-- ==== Sys2Proof/Word.lean ====
section
/-! DEFINITION. The word types of the machine and their plainest arithmetic (R4, R5). -/

namespace Sys2Proof

/-- A register, or a 32-bit word of a buffer. -/
abbrev Word := BitVec 32

/-- One byte. -/
abbrev Byte := BitVec 8

/-- A timestamp TS64 in tu (R5): bits [63:10] the TBCLK count, bits [9:0] the fine part. -/
abbrev Stamp := BitVec 64

/-- The 54-bit TBCLK coarse count of R5. -/
abbrev Count := BitVec 54

/-- The stamp of the TBCLK edge with count `c`: C × 1,024 (R534). -/
def Count.stamp (c : Count) : Stamp := BitVec.ofNat 64 (c.toNat * 1024)

end Sys2Proof
end

