-- ==== Sys2Proof/Syntax.lean ====
section
/-! DEFINITION. The commands of the block: one constructor of `Instr` for each row of the table of operations and events. What
the table's rows take from outside the part (pin levels, measurements, faults met, data of hosts and memories) is an operand. A
unit is named by its number. -/

namespace Sys2Proof

/-- A master of the register fabric (R435): a host port or the system controller. -/
inductive Master where
  | hp (p : Fin 4)
  | sc
  deriving DecidableEq, Repr

/-- The spaces of an access, coded as in R453: BAR0, BAR2, BAR4, configuration space. -/
inductive Bar where
  | bar0 | bar2 | bar4 | cfg
  deriving DecidableEq, Repr

/-- One 32-bit part of an access: the master, the space, the offset with its view bits, the data written (zero for a
read), whether it is a read, and whether it is a later part of a longer access (R431, R453). -/
structure Part where
  m     : Master
  bar   : Bar := .bar0
  off   : Nat
  data  : Word := 0#32
  read  : Bool := false
  later : Bool := false
  deriving DecidableEq, Repr

/-- What an engine meets while it executes an instruction: the residue check of its result (0 right, 1 wrong once, 2 wrong
twice, R244), the word fetched and the word loaded (0 good, 1 corrected, 2 uncorrectable, R245). -/
structure Haz where
  res   : Fin 3 := 0
  fetch : Fin 3 := 0
  data  : Fin 3 := 0
  deriving DecidableEq, Repr

/-- What meets a generator at the start of a segment: its number, and the words of the segment's data whose read shows an error, with
the error (1 corrected, 2 uncorrectable, R326, R327). -/
structure SgRead where
  gen  : Fin 8
  hits : List (Nat × Fin 3) := []
  deriving DecidableEq, Repr

/-- What meets the patrol at a word: the error of its read (0 good, 1 corrected, 2 uncorrectable) and the value that an access wrote
between the read and the write back, if one did (R329, R333). -/
structure ScrubRead where
  ecc  : Fin 3 := 0
  coll : Option (BitVec 64) := none
  deriving DecidableEq, Repr

/-- What meets a mailbox service: whether the flash fails it, and the error of the first word that it reads from host scratch (R479, R327). -/
structure MailMeet where
  flashFail : Bool := false
  ecc       : Fin 3 := 0
  deriving DecidableEq, Repr

inductive Instr where
  /-- REGISTER_WRITE: A write to a register that has no row of its own stores, ignores or acts on the written value according to each field's access type (R6). -/
  | registerWrite (m : Master) (bar : Bar) (off : Nat) (data : List Word) (be : Fin 16) (ecc : Fin 3) (poison : Bool)
  /-- LATCHING_READ: A read of a LO register latches its HI partner for the reading master (R439). -/
  | latchingRead (m : Master) (bar : Bar) (off : Nat) (words : Fin 1025) (be : Fin 16) (ecc : Fin 3)
  /-- EDGE_EVENT: An edge at a receiver is stamped by the correction pipeline and delivered to the consumers of its channel (R25). -/
  | edgeEvent (c : Fin 128) (vp vn : Int) (b : Fin 256) (res ecc : Fin 3)
  /-- COLLAPSE_ENTRY: At the end of the dead time, a latch that caught transitions yields one collapse entry with the final level (R21). -/
  | collapseEntry (c : Fin 128) (back : Fin 2) (b : Fin 256) (vp vn : Int) (res ecc : Fin 3)
  /-- CH_AT_GO: A one in a channel's bit starts auto-threshold on that channel (R16). -/
  | chAtGo (m : Master) (i : Fin 4) (w : Word)
  /-- CH_AT_DONE: Auto-threshold ends its sweep, chooses a code or reports NO_WINDOW (R19). -/
  | chAtDone (c : Fin 128) (counts : List Nat)
  /-- CH_CNT_CLR: A one clears the edge and collapse counters of a channel (R41). -/
  | chCntClr (m : Master) (i : Fin 4) (w : Word)
  /-- TDC_CAL_GO: A one in a group's bit starts TDC calibration of an idle group (R29). -/
  | tdcCalGo (m : Master) (w : Word)
  /-- TDC_CAL_AUTO: The system controller starts calibration of a group with AUTO = 1 and CAL_DUE = 1 once it is idle (R29). -/
  | tdcCalAuto (g : Fin 16)
  /-- TDC_CAL_DONE: Calibration completes and the shadow tables replace the tables in use (R29). -/
  | tdcCalDone (g : Fin 16) (hists : List (List Nat)) (lens : List Nat)
  /-- TDC_CNT_CLR: A one clears the residue and ECC counters of a group's channels (R42). -/
  | tdcCntClr (m : Master) (w : Word)
  /-- LINE_LENGTH_MEASURE: Every 10 µs the line-length monitor measures the twin lines and updates λ (R33). -/
  | lineLengthMeasure (lens : List Nat)
  /-- SENSOR_SAMPLE: Every 100 µs the die sensors are sampled for TDC temperature, thermal limits and tamper (R499). -/
  | sensorSample (temps : List Int)
  /-- LOSS_OF_REFERENCE: Two reference periods pass without a REF_IN edge, TBPLL freezes and starts to coast (R57). -/
  | lossOfReference
  /-- REF_FREQ_WINDOW: A 1,024-period frequency window ends and a result off by more than 1,000 ppm declares loss (R46). -/
  | refFreqWindow (n : Nat)
  /-- REF_QUALIFIED: 1,024 consecutive good periods qualify the reference and the spare starts to lock (R46). -/
  | refQualified
  /-- APPLY_QUALIFY_TIMEOUT: A reference not qualified within 10 ms of an accepted TB_APPLY is declared lost and coasting begins (R537). -/
  | applyQualifyTimeout
  /-- PLL_LOCK: A PLL's phase error stays within LOCK_WIN for LOCK_N cycles and it declares lock (R48). -/
  | pllLock (which : Fin 6)
  /-- PLL_LOSS_OF_LOCK: A DPLL or SGPLL declares loss of lock and its recovery begins (R49). -/
  | pllLossOfLock (which : Fin 5)
  /-- TBPLL_LOSS_OF_LOCK: TBPLL loses lock with the reference present, coasts and relocks at once (R60). -/
  | tbpllLossOfLock
  /-- RELOCK_BOUNDARY: TBCLK switches to the locked spare, J is measured and the epoch boundary is recorded (R62). -/
  | relockBoundary (d : Nat)
  /-- LOL_SUSPEND_END: 2 µs after a boundary, DPLL and SGPLL loss-of-lock detection restarts (R66). -/
  | lolSuspendEnd
  /-- COUNTER_WRAP: The timebase counter wraps to 0 and WRAP epoch markers are written (R56). -/
  | counterWrap
  /-- RAMP_UPDATE: Every 8 ns the ramp generator updates its FCW offset along the profile (R69). -/
  | rampUpdate
  /-- SAMPLED_SYNC: A REF_IN edge samples a rising SYNC_IN and the device acts on it or ignores it (R72). -/
  | sampledSync (own : Bool) (phase : Fin 5)
  /-- SYNC_RESTART: The SGPLL output and STCLK dividers restart on the TBCLK edge set after the sampled SYNC (R73). -/
  | syncRestart
  /-- TB_SYNC_FIRE: A write with a current GEN increments TB_SYNC_GEN and in mode 2 issues a SYNC pulse (R536). -/
  | tbSyncFire (m : Master) (gen : BitVec 16)
  /-- TB_APPLY: A write with a current GEN starts a hitless TBPLL relock with the staged settings (R537). -/
  | tbApply (m : Master) (gen : BitVec 16)
  /-- TB_SG_APPLY: A write with a current GEN relocks SGPLL at the staged FCW and dividers (R78). -/
  | tbSgApply (m : Master) (gen : BitVec 16)
  /-- RAMP_GO: GO in TB_RAMP_GO starts the ramp profile (R69). -/
  | rampGo (m : Master) (gen : BitVec 16)
  /-- RAMP_STOP: STOP in TB_RAMP_GO stops the ramp and returns its offset to 0 (R71). -/
  | rampStop (m : Master) (gen : BitVec 16)
  /-- PTM_DIALOGUE: Every PERIOD ms a port sends a PTM request and stamps its departure (R79). -/
  | ptmDialogue (p : Fin 4) (fine : Fin 1024)
  /-- PTM_RESPONSE: A PTM response arrives and the device-host time pair is stored (R79). -/
  | ptmResponse (p : Fin 4) (master delay : BitVec 64)
  /-- CH_GRP_GO: A one asks a group to start, which is refused or enters HELD or WAIT (R89). -/
  | chGrpGo (m : Master) (w : Word)
  /-- HELD_RELEASE: A group in HELD enters WAIT when calibration ends (R90). -/
  | heldRelease (g : Fin 16)
  /-- GROUP_RUN: The timebase reaches the start stamp S and the group enters RUN (R90). -/
  | groupRun (g : Fin 16)
  /-- CH_GRP_HALT: A one stops a group, setting its stop stamp and entering DRAIN (R92). -/
  | chGrpHalt (m : Master) (w : Word)
  /-- GRP_DRAINED: The packer has emptied staging below E and the group enters IDLE (R93). -/
  | grpDrained (g : Fin 16)
  /-- CHANNEL_ENABLE_STAMP: A change of CH_CTL.EN takes effect at its stamp and opens or closes a DISABLED gap (R95). -/
  | channelEnableStamp (c : Fin 128)
  /-- CMP_MISSING: An expected item's window passes with no sample (R106). -/
  | cmpMissing (g : Fin 16)
  /-- MARGIN_EMIT: A margin window's last hold is known and its margin entries are emitted (R105). -/
  | marginEmit (g : Fin 16)
  /-- PACK_ITEM: Once the counter has passed its stamp plus 100 ns and decisions are known, the packer encodes a staged item (R158). -/
  | packItem (g : Fin 16) (ecc : Fin 3) (bad : Bool)
  /-- BLOCK_FLUSH: A partly filled block is closed FLUSH µs after its first item (R177). -/
  | blockFlush (g : Fin 16)
  /-- BLOCK_WRITTEN: A capture block has been written and CH_GRP_WPTR advances (R176). -/
  | blockWritten (g : Fin 16)
  /-- RESOURCE_ENABLE_STAMP: A change of a trigger resource's EN takes effect at its stamp (R117). -/
  | resourceEnableStamp (k : Fin 4) (n : Fin 64)
  /-- PC_DUR_HIT: An ENTER comparator that stayed true for DUR produces its hit (R121). -/
  | pcDurHit (p : Fin 64)
  /-- IQ_TIMEOUT: A TIMEOUT qualifier's deadline passes without a B edge and it hits (R123). -/
  | iqTimeout (q : Fin 32)
  /-- COUNTER_TERMINAL: A trigger counter reaches LIMIT and produces its terminal hit (R127). -/
  | counterTerminal (n : Fin 32)
  /-- MATCHER_MESSAGE: A message or interval record arrives at the matchers and is matched or judged late (R129). -/
  | matcherMessage
  /-- SEQ_DECISION: A sequencer's horizon passes a hit's stamp and it takes the stage's condition and branches (R130). -/
  | seqDecision (q : Fin 8) (residue : Option (Fin 32))
  /-- TRG_ARM: A one asks a sequencer to arm, clearing its counters and setting A (R136). -/
  | trgArm (m : Master) (w : Word)
  /-- TRG_ARMED: The arm stamp A is reached and the sequencer enters HOLDOFF (R137). -/
  | trgArmed (q : Fin 8)
  /-- SEQ_RUN_ENTRY: At A + PRE the sequencer enters RUN in stage 0 (R137). -/
  | seqRunEntry (q : Fin 8)
  /-- TRG_DONE: The counter passes T + POST, the sequencer enters DONE and pending stops fall due (R138). -/
  | trgDone (q : Fin 8)
  /-- TRG_HALT: A one halts a sequencer to IDLE or DONE (R141). -/
  | trgHalt (m : Master) (w : Word)
  /-- TRG_IO_APPLY: A write with a current GEN applies the staged TRIG_IO routing (R147). -/
  | trgIoApply (m : Master) (gen : BitVec 16)
  /-- TRIG_IO_INPUT: A TRIG_IO input change produces a hit (R148). -/
  | trigIoInput (k : Fin 16) (level : Bool)
  /-- TRIG_IO_LAUNCH: At its launch edge a TRIG_IO output changes for an event or level (R149). -/
  | trigIoLaunch (k : Fin 16)
  /-- TRIG_IO_PULSE_END: A TRIG_IO pulse ends after WIDTH × 4 ns (R149). -/
  | trigIoPulseEnd (k : Fin 16)
  /-- IU_ENABLE: A write of EN = 1 enables an interval unit or is refused (R190). -/
  | iuEnable (m : Master) (u : Fin 16) (w : Word)
  /-- IU_DISABLE: A write of EN = 0 sets the disable stamp (R190). -/
  | iuDisable (m : Master) (u : Fin 16) (w : Word)
  /-- IU_ENABLE_STAMP: At the enable stamp the unit clears its statistics and starts taking edges (R190). -/
  | iuEnableStamp (u : Fin 16)
  /-- IU_DISABLE_STAMP: At the disable stamp the unit takes no more starts (R190). -/
  | iuDisableStamp (u : Fin 16)
  /-- IU_DECIDE: The counter passes a + max(W_HI, 0) + 100 ns and the start's results are formed and recorded (R196). -/
  | iuDecide (u : Fin 16) (fail : Bool)
  /-- IU_SNAP: A one sets a snapshot stamp that keeps running totals (R206). -/
  | iuSnap (m : Master) (w : Word)
  /-- IU_SNAP_CLR: A one sets a snapshot stamp that clears the live bank (R206). -/
  | iuSnapClr (m : Master) (w : Word)
  /-- IU_SNAPSHOT_DONE: Every start below Ts is decided and the live bank becomes the frozen bank (R206). -/
  | iuSnapshotDone (u : Fin 16)
  /-- IDLE_SYMBOL: IDLE_N bit periods pass without an edge and an IDLE symbol is produced (R226). -/
  | idleSymbol (x : Fin 128)
  /-- SYMBOL_DELIVERY: An extractor delivers a symbol to its stream input port (R227). -/
  | symbolDelivery (x : Fin 128)
  /-- SYMBOL_RELEASE: Every bound extractor's horizon has passed a symbol and the port releases it into the FIFO (R233). -/
  | symbolRelease (e : Fin 256)
  /-- ME_GO: A one starts an engine or gang from its entry address (R231). -/
  | meGo (m : Master) (k : Fin 8) (w : Word)
  /-- ME_STOP: A one halts an engine or gang at the next instruction boundary (R231). -/
  | meStop (m : Master) (k : Fin 8) (w : Word)
  /-- ME_SPD_ACCESS: An access to ME_SPD reads or writes the scratchpad word at ME_SPA and advances it (R232). -/
  | meSpdAccess (m : Master) (e : Fin 256) (read : Bool) (data : Word) (ecc : Fin 3)
  /-- ME_KICK: A write stores the value in CSR KICK and makes HOST pending (R238). -/
  | meKick (m : Master) (e : Fin 256) (w : Word)
  /-- ADD: d = a + b (R243). -/
  | meAdd (e : Fin 256) (h : Haz)
  /-- SUB: d = a − b (R243). -/
  | meSub (e : Fin 256) (h : Haz)
  /-- AND: d = a & b (R243). -/
  | meAnd (e : Fin 256) (h : Haz)
  /-- OR: d = a | b (R243). -/
  | meOr (e : Fin 256) (h : Haz)
  /-- XOR: d = a ^ b (R243). -/
  | meXor (e : Fin 256) (h : Haz)
  /-- SLL: Logical shift left by register (R243). -/
  | meSll (e : Fin 256) (h : Haz)
  /-- SRL: Logical shift right by register (R243). -/
  | meSrl (e : Fin 256) (h : Haz)
  /-- SRA: Arithmetic shift right by register (R243). -/
  | meSra (e : Fin 256) (h : Haz)
  /-- MUL: Low 32 bits of a × b (R243). -/
  | meMul (e : Fin 256) (h : Haz)
  /-- SLT: Signed less-than (R243). -/
  | meSlt (e : Fin 256) (h : Haz)
  /-- SLTU: Unsigned less-than (R243). -/
  | meSltu (e : Fin 256) (h : Haz)
  /-- ADDI: Add sign-extended immediate (R243). -/
  | meAddi (e : Fin 256) (h : Haz)
  /-- ANDI: AND with zero-extended immediate (R243). -/
  | meAndi (e : Fin 256) (h : Haz)
  /-- ORI: OR with zero-extended immediate (R243). -/
  | meOri (e : Fin 256) (h : Haz)
  /-- XORI: XOR with zero-extended immediate (R243). -/
  | meXori (e : Fin 256) (h : Haz)
  /-- SLLI: Shift left by immediate (R243). -/
  | meSlli (e : Fin 256) (h : Haz)
  /-- SRLI: Logical shift right by immediate (R243). -/
  | meSrli (e : Fin 256) (h : Haz)
  /-- SRAI: Arithmetic shift right by immediate (R243). -/
  | meSrai (e : Fin 256) (h : Haz)
  /-- LUI: Load upper immediate (R243). -/
  | meLui (e : Fin 256) (h : Haz)
  /-- EXT: Extract a bit field (R243). -/
  | meExt (e : Fin 256) (h : Haz)
  /-- INS: Insert a bit field (R243). -/
  | meIns (e : Fin 256) (h : Haz)
  /-- REV: Reverse the low bits (R243). -/
  | meRev (e : Fin 256) (h : Haz)
  /-- CRC: Update a CRC state with data bits using a CRC slot (R241). -/
  | meCrc (e : Fin 256) (h : Haz)
  /-- LW: Load a word from the data region (R243). -/
  | meLw (e : Fin 256) (h : Haz)
  /-- SW: Store a word to the data region (R243). -/
  | meSw (e : Fin 256) (h : Haz)
  /-- LHU: Load a halfword zero-extended (R243). -/
  | meLhu (e : Fin 256) (h : Haz)
  /-- SH: Store a halfword (R243). -/
  | meSh (e : Fin 256) (h : Haz)
  /-- LBU: Load a byte zero-extended (R243). -/
  | meLbu (e : Fin 256) (h : Haz)
  /-- SB: Store a byte (R243). -/
  | meSb (e : Fin 256) (h : Haz)
  /-- BEQ: Branch if equal (R243). -/
  | meBeq (e : Fin 256) (h : Haz)
  /-- BNE: Branch if not equal (R243). -/
  | meBne (e : Fin 256) (h : Haz)
  /-- BLT: Branch if less, signed (R243). -/
  | meBlt (e : Fin 256) (h : Haz)
  /-- BGE: Branch if greater or equal, signed (R243). -/
  | meBge (e : Fin 256) (h : Haz)
  /-- BLTU: Branch if less, unsigned (R243). -/
  | meBltu (e : Fin 256) (h : Haz)
  /-- BGEU: Branch if greater or equal, unsigned (R243). -/
  | meBgeu (e : Fin 256) (h : Haz)
  /-- JAL: Jump and link (R243). -/
  | meJal (e : Fin 256) (h : Haz)
  /-- JALR: Jump to register and link (R243). -/
  | meJalr (e : Fin 256) (h : Haz)
  /-- SPOP: Pop the head symbol into the latch and a stamp slot (R234). -/
  | meSpop (e : Fin 256) (h : Haz)
  /-- SGET: Read a field of the latched or head symbol (R234). -/
  | meSget (e : Fin 256) (h : Haz)
  /-- SDIF: Difference of two stamp slots saturated to 32 bits (R243). -/
  | meSdif (e : Fin 256) (h : Haz)
  /-- TSET: Arm or cancel a timer at a stamp deadline (R236). -/
  | meTset (e : Fin 256) (h : Haz)
  /-- MWR: Write a word of the message buffer (R239). -/
  | meMwr (e : Fin 256) (h : Haz)
  /-- MSND: Hand a message to the message output port (R239). -/
  | meMsnd (e : Fin 256) (h : Haz)
  /-- LSND: Append a word to a gang member's link FIFO (R243). -/
  | meLsnd (e : Fin 256) (h : Haz)
  /-- LGET: Take the oldest word of the own link FIFO (R243). -/
  | meLget (e : Fin 256) (h : Haz)
  /-- CSR: Read and optionally write a control and status register (R237). -/
  | meCsr (e : Fin 256) (h : Haz)
  /-- WAIT: Wait for an enabled event and dispatch to its handler (R238). -/
  | meWait (e : Fin 256) (h : Haz)
  /-- HALT: Enter HALTED (R243). -/
  | meHalt (e : Fin 256) (h : Haz)
  /-- ENGINE_UNBLOCK: A blocked engine resumes when its symbol, room, link word or event arrives (R230). -/
  | engineUnblock (e : Fin 256)
  /-- TIMER_PENDING: The stream horizon passes an armed timer's deadline and its event becomes pending (R236). -/
  | timerPending (e : Fin 256) (t : Fin 2)
  /-- GANG_MSG_RELEASE: A gang member's waiting messages are released once the previous slice is done (R250). -/
  | gangMsgRelease (e : Fin 256)
  /-- QM_ACCEPT: A message reaches the queue manager and is accepted, deduplicated, refused or held (R260). -/
  | qmAccept (e : Fin 256)
  /-- PAGE_FILL: A spilled page has been read back ahead of delivery (R262). -/
  | pageFill (q : Fin 16384) (page : Nat)
  /-- QUEUE_ENABLE: A write that sets EN asks for a queue to be enabled or is refused (R256). -/
  | queueEnable (m : Master) (q : Fin 16384) (w : Word)
  /-- QUEUE_DISABLE: Clearing EN takes an OBS queue to DRAIN or a ring to OFF (R255). -/
  | queueDisable (m : Master) (q : Fin 16384) (w : Word)
  /-- QUEUE_DRAINED: A draining OBS queue has delivered all it held and enters OFF (R255). -/
  | queueDrained (q : Fin 16384)
  /-- RING_WRITE: The queue manager writes records into free ring slots and then the tail shadow (R272). -/
  | ringWrite (q : Fin 16384) (n : Nat) (hurt : List (Fin 16384 × Nat × Fin 32 × Nat × Bool)) (index : List (Fin 16384 × Nat))
  /-- INTERRUPT_MOD_TIMEOUT: MOD_TIME passes since the first slot after the last interrupt and the vector is raised (R273). -/
  | interruptModTimeout (q : Fin 16384)
  /-- DOORBELL: A doorbell write moves a ring's HEAD or TAIL (R271). -/
  | doorbell (p : Fin 4) (q : Fin 16384) (x : Word)
  /-- SG_GO: A one asks a generator to start, which is refused or enters WAIT (R305). -/
  | sgGo (m : Master) (w : Word)
  /-- SG_START: The start grid instant is reached and entry 0 plays (R306). -/
  | sgStart (g : SgRead)
  /-- JUMP_LATCH_CLOSE: A segment's jump latch closes and its next entry is fixed (R300). -/
  | jumpLatchClose (g : Fin 8)
  /-- SEGMENT_END: A segment's last sample ends and the next entry is chosen by jump or FLOW (R298). -/
  | segmentEnd (g : SgRead)
  /-- SG_JUMP: A write of REQ = 1 makes a jump request (R301). -/
  | sgJump (m : Master) (g : Fin 8)
  /-- SEQ_JUMP_ARRIVAL: A sequencer's TRIGGER or PULSE reaches a generator as a jump request at its launch edge (R301). -/
  | seqJumpArrival (g : Fin 8)
  /-- SG_HALT: A one asks a generator to stop at the next 64-aligned grid instant (R307). -/
  | sgHalt (m : Master) (w : Word)
  /-- SG_STOPPED: A run ends at its stop stamp and the lanes show REST (R307). -/
  | sgStopped (g : Fin 8)
  /-- STREAM_ENABLE: Setting SG_STR_CTL.EN resets the host stream and starts chunk reads (R308). -/
  | streamEnable (m : Master) (g : Fin 8) (w : Word)
  /-- SG_STR_DB: A doorbell write moves the host stream TAIL (R308). -/
  | sgStrDb (m : Master) (g : Fin 8) (w : Word)
  /-- STREAM_CHUNK_READ: A chunk has been read, HEAD advances and the head shadow is written (R309). -/
  | streamChunkRead (g : Fin 8)
  /-- PREFETCH_DATA: DRAM segment data arrives in the DRAM FIFO (R294). -/
  | prefetchData (g : Fin 8) (n : Fin 4097)
  /-- SG_UNDERRUN: A sample due for launch has not arrived and the generator starves (R311). -/
  | sgUnderrun (g : Fin 8)
  /-- SG_RESUME: The starved data arrives and playing resumes (R312). -/
  | sgResume (g : Fin 8)
  /-- SG_CAL: A write of GO = 1 starts loopback skew calibration (R320). -/
  | sgCal (m : Master) (g : Fin 8) (grp : Bool)
  /-- SG_CAL_DONE: Skew calibration ends and lane trims are set (R320). -/
  | sgCalDone (g : Fin 8) (trims : List (Nat × Int))
  /-- SG_LS_ACCESS: An access to SG_LS_DATA reads or writes the local store and advances the address (R292). -/
  | sgLsAccess (m : Master) (g : Fin 8) (read : Bool) (data : Word) (ecc : Fin 3)
  /-- PATROL_SCRUB: The SRAM patrol scrubber reads and repairs words every 100 ms (R329). -/
  | patrolScrub (mem : Fin 4) (index : Fin 256) (off : Nat) (met : ScrubRead)
  /-- SB_DIA_ENTER: A one puts a shared bank into Diapause or is refused (R335). -/
  | sbDiaEnter (m : Master) (w : Word)
  /-- SB_DIA_SP_ENTER: A one puts an engine's scratchpad into Diapause or is refused (R336). -/
  | sbDiaSpEnter (m : Master) (k : Fin 8) (w : Word)
  /-- SB_DIA_WAKE: A one wakes a bank from Diapause (R337). -/
  | sbDiaWake (m : Master) (w : Word)
  /-- SB_DIA_SP_WAKE: A one wakes a scratchpad from Diapause (R337). -/
  | sbDiaSpWake (m : Master) (k : Fin 8) (w : Word)
  /-- DIAPAUSE_WAKE_DONE: A woken array serves its first access within 12 µs (R337). -/
  | diapauseWakeDone (mem : Fin 2) (index : Fin 256)
  /-- STARTUP_MARCH_DONE: The start-up march ends and arrays hold their reset contents (R340). -/
  | startupMarchDone (fails : List (Nat × Nat × Nat))
  /-- MT_GO: GO in SB_MT_CTL requests a march test of slices of one array (R341). -/
  | mtGo (m : Master) (p : Fin 4) (w : Word)
  /-- MT_ABORT: ABORT in SB_MT_CTL ends the test (R348). -/
  | mtAbort (m : Master) (p : Fin 4) (w : Word)
  /-- MT_SLICE_DONE: The march engine finishes a slice and moves on (R344). -/
  | mtSliceDone (p : Fin 4) (fails : List Nat)
  /-- SB_COCOON_WIPE: The Cocoon wipe and verify end and KEY_READY is 0 (R353). -/
  | sbCocoonWipe (ecc verifyFail : Bool)
  /-- SCRATCH_WINDOW_ACCESS: A host access to a host scratch window reaches its shared bank (R334). -/
  | scratchWindowAccess (p : Fin 4) (off : Fin 0x1000000) (data : List Word) (read : Bool) (be : Fin 16) (ecc : Fin 3) (poison : Bool)
      (coll : Option (BitVec 64))
  /-- DRAM_ACCESS_DONE: An acquisition-memory access completes, corrected or marked uncorrectable (R367). -/
  | dramAccessDone (c : Fin 16) (port cls : Nat) (a : Nat) (outcome : Fin 3) (ns : Nat)
  /-- DC_PATROL: The DRAM patrol scrubber reads and repairs units (R368). -/
  | dcPatrol (a : Nat) (outcome : Fin 3) (ns : Nat)
  /-- FILL_GO: GO in DC_FILL_CTL starts the fill engine over a region of the share (R369). -/
  | fillGo (m : Master) (p : Fin 4) (w : Word)
  /-- DC_FILL_DONE: The fill engine completes and reports PASS or FAIL (R369). -/
  | dcFillDone (p : Fin 4) (fail : Option Nat)
  /-- STARTUP_ZEROING_DONE: The start-up zeroing of all of DC_CAP ends (R538). -/
  | startupZeroingDone
  /-- REQUEST_PROMOTE: A request's age passes its class limit and it is promoted (R371). -/
  | requestPromote (c : Fin 16) (i : Nat)
  /-- REFRESH_DUE: A refresh interval accrues to a rank's debt, making refresh mandatory at 8 (R373). -/
  | refreshDue (c : Fin 16) (r : Fin 2)
  /-- MR4_POLL: Every 16 ms MR4 is read and the refresh multiplier and debt are converted (R376). -/
  | mr4Poll (c : Fin 16) (r : Fin 2) (m : Fin 3) (hot : Bool)
  /-- DC_ENABLE: Setting DC_CTL.EN starts a fast retrain or full training (R379). -/
  | dcEnable (m : Master) (c : Fin 16) (w : Word)
  /-- DC_DISABLE: Clearing DC_CTL.EN drains the channel and enters self-refresh (R379). -/
  | dcDisable (m : Master) (c : Fin 16) (w : Word)
  /-- SELF_REFRESH_ACK: A controller acknowledges self-refresh entry and its clocks are gated (R380). -/
  | selfRefreshAck (c : Fin 16)
  /-- FULL_TRAINING_DONE: Full training of a channel ends, ACTIVE or FAILED (R381). -/
  | fullTrainingDone (c : Fin 16) (fail : Option Nat) (wr rd ca : List Nat) (vref : Word)
  /-- FAST_RETRAIN_DONE: A fast retrain ends, resuming service or falling back to full training (R383). -/
  | fastRetrainDone (c : Fin 16) (ok : Bool)
  /-- TRN_MRW: Custom training mode-register write (R384). -/
  | trnMrw (m : Master) (c : Fin 16) (rank : Fin 2) (bank : Fin 16) (pat : Bool) (arg : Fin 65536)
  /-- TRN_MRR: Custom training mode-register read (R384). -/
  | trnMrr (m : Master) (c : Fin 16) (rank : Fin 2) (bank : Fin 16) (pat : Bool) (arg : Fin 65536)
  /-- TRN_WRITE: Custom training write bursts (R384). -/
  | trnWrite (m : Master) (c : Fin 16) (rank : Fin 2) (bank : Fin 16) (pat : Bool) (arg : Fin 65536)
  /-- TRN_READ: Custom training read bursts with compare (R384). -/
  | trnRead (m : Master) (c : Fin 16) (rank : Fin 2) (bank : Fin 16) (pat : Bool) (arg : Fin 65536)
  /-- TRN_FIFO_WRITE: Custom training FIFO write (R384). -/
  | trnFifoWrite (m : Master) (c : Fin 16) (rank : Fin 2) (bank : Fin 16) (pat : Bool) (arg : Fin 65536)
  /-- TRN_FIFO_READ: Custom training FIFO read with compare (R384). -/
  | trnFifoRead (m : Master) (c : Fin 16) (rank : Fin 2) (bank : Fin 16) (pat : Bool) (arg : Fin 65536)
  /-- TRN_SR_ENTRY: Custom training self-refresh entry (R384). -/
  | trnSrEntry (m : Master) (c : Fin 16) (rank : Fin 2) (bank : Fin 16) (pat : Bool) (arg : Fin 65536)
  /-- TRN_SR_EXIT: Custom training self-refresh exit (R384). -/
  | trnSrExit (m : Master) (c : Fin 16) (rank : Fin 2) (bank : Fin 16) (pat : Bool) (arg : Fin 65536)
  /-- TRN_ZQ: Custom training ZQ calibration (R384). -/
  | trnZq (m : Master) (c : Fin 16) (rank : Fin 2) (bank : Fin 16) (pat : Bool) (arg : Fin 65536)
  /-- TRN_CMD_DONE: A custom training command completes and BUSY falls (R384). -/
  | trnCmdDone (c : Fin 16) (mrr : Byte) (errs : List Nat) (beats : List (List Byte))
  /-- ACQ_WINDOW_ACCESS: A host access through the acquisition-memory window in class C3 (R365). -/
  | acqWindowAccess (p : Fin 4) (off : Fin 0x1000000) (data : List Word) (read : Bool) (be : Fin 16) (ecc : Fin 3) (poison : Bool)
  /-- WINDOW_WAIT_TIMEOUT: A window access waiting 1 ms for its channel ends with UNAVAILABLE (R365). -/
  | windowWaitTimeout (p : Fin 4)
  /-- PERST_ASSERT: Assertion of PERST# resets a port and its partition (R410). -/
  | perstAssert (p : Fin 4)
  /-- PERST_RELEASE: Release of PERST# starts link training of the port (R391). -/
  | perstRelease (p : Fin 4)
  /-- HP_LINK_UP: A port's link comes up (R391). -/
  | hpLinkUp (p : Fin 4) (speed width : Fin 6)
  /-- HOT_RESET: An in-band Hot Reset fences the port (R411). -/
  | hotReset (p : Fin 4)
  /-- LINK_DOWN: A link-down not caused by PERST# fences the port (R411). -/
  | linkDown (p : Fin 4)
  /-- WRITE_ACKNOWLEDGED: The link partner acknowledges a write TLP (R412). -/
  | writeAcknowledged (p : Fin 4)
  /-- FENCE_RELEASE: RELEASE = 1 lifts the fence and deliveries resume from T (R413). -/
  | fenceRelease (m : Master) (p : Fin 4)
  /-- BME_CLEAR: The host clears Bus Master Enable and the grace period starts (R406). -/
  | bmeClear (p : Fin 4)
  /-- BME_GRACE_END: 10 ms after the clear, outstanding tags are freed (R408). -/
  | bmeGraceEnd (p : Fin 4)
  /-- BME_SET: Bus Master Enable is set and freed reads are issued again (R408). -/
  | bmeSet (p : Fin 4)
  /-- D3HOT_ENTRY: The port enters D3hot and stops issuing requests (R401). -/
  | d3hotEntry (p : Fin 4)
  /-- D0_RETURN: The port returns to D0 with its settings kept (R401). -/
  | d0Return (p : Fin 4)
  /-- MSIX_UNMASK: A mask clears and pending MSI-X messages are sent (R398). -/
  | msixUnmask (p : Fin 4)
  /-- READ_COMPLETION: A completion for a host-memory read arrives (R405). -/
  | readCompletion (p : Fin 4) (tag : Fin 1024) (bytes : List Byte) (poison : Bool)
  /-- COMPLETION_TIMEOUT: A host-memory read times out and is re-issued or fails (R404). -/
  | completionTimeout (p : Fin 4) (tag : Fin 512)
  /-- NOP: Command that does nothing (R423). -/
  | nop (q : Fin 16384)
  /-- ATTACH: Command that attaches a driver version to the partition (R416). -/
  | attach (q : Fin 16384)
  /-- DETACH: Command that detaches the partition (R416). -/
  | detach (q : Fin 16384)
  /-- DIGEST: Command that writes the partition digest to host memory (R426). -/
  | digest (q : Fin 16384)
  /-- LOAD_FULL: LOAD command with full scope (R470). -/
  | loadFull (q : Fin 16384)
  /-- LOAD_PARTITION: LOAD command with partition scope (R470). -/
  | loadPartition (q : Fin 16384)
  /-- GROUP_GO: Command that starts the named groups (R423). -/
  | groupGo (q : Fin 16384)
  /-- GROUP_HALT: Command that stops the named groups (R423). -/
  | groupHalt (q : Fin 16384)
  /-- ARM: Command that arms the named sequencers (R423). -/
  | arm (q : Fin 16384)
  /-- DISARM: Command that halts the named sequencers (R423). -/
  | disarm (q : Fin 16384)
  /-- SG_GO_COMMAND: Command that starts the named generators (R423). -/
  | sgGoCommand (q : Fin 16384)
  /-- SG_HALT_COMMAND: Command that stops the named generators (R423). -/
  | sgHaltCommand (q : Fin 16384)
  /-- JUMP: Command that requests a generator jump and completes when it is taken (R301). -/
  | jump (q : Fin 16384)
  /-- SHARED_APPLY: SHARED action APPLY reads a value block and applies a shared object (R424). -/
  | sharedApply (q : Fin 16384)
  /-- SHARED_RAMP_GO: SHARED action RAMP_GO starts the ramp (R424). -/
  | sharedRampGo (q : Fin 16384)
  /-- SHARED_RAMP_STOP: SHARED action RAMP_STOP stops the ramp (R424). -/
  | sharedRampStop (q : Fin 16384)
  /-- SHARED_FIRE: SHARED action FIRE issues a SYNC pulse (R424). -/
  | sharedFire (q : Fin 16384)
  /-- READOUT: Command that copies acquisition memory to host memory (R425). -/
  | readout (q : Fin 16384)
  /-- READOUT_DONE: A readout's writes are done and the command completes (R425). -/
  | readoutDone (q : Fin 16384)
  /-- PROVISION: LIFECYCLE action taking BLANK to PROVISIONED (R484). -/
  | provision (q : Fin 16384)
  /-- REPROVISION: LIFECYCLE action that provisions again (R484). -/
  | reprovision (q : Fin 16384)
  /-- FINALISE: LIFECYCLE action taking PROVISIONED to FIELD (R484). -/
  | finalise (q : Fin 16384)
  /-- RETURN: LIFECYCLE action taking the device to RETURN (R484). -/
  | lcReturn (q : Fin 16384)
  /-- DIGEST_SNAP: GO in HP_DIGEST_SNAP starts building a digest into the window (R426). -/
  | digestSnap (m : Master)
  /-- DIGEST_SNAP_DONE: The digest snapshot is ready and BUSY falls (R426). -/
  | digestSnapDone (p : Fin 4)
  /-- IMAGE_STAGED: The image has been staged, checked and validated, or the load fails (R470). -/
  | imageStaged (flashFail : Bool)
  /-- SC_IMG_LOADED: The image records are applied and the load completes (R471). -/
  | scImgLoaded
  /-- ISLAND_TIMEOUT: A queued island access fails to complete in time and the island is marked failed (R437). -/
  | islandTimeout (m : Master) (bar : Bar) (off : Nat) (data : Word) (read : Bool)
  /-- ISLAND_HEARTBEAT_LOSS: A clocked island sends no heartbeat for 10 µs (R503). -/
  | islandHeartbeatLoss (i : Fin 9)
  /-- CFGI_PASS: A CFGI pass over a partition completes and is compared with the tracked reference (R449). -/
  | cfgiPass (p : Fin 4) (strikes : List (Nat × Word))
  /-- CFGI_CAPTURE: CAPTURE in CFGI_COMMIT takes the next pass as the reference (R451). -/
  | cfgiCapture (m : Master) (p : Fin 4)
  /-- CFGI_VALUE: VALUE in CFGI_COMMIT commits CFGI_REF as the reference (R451). -/
  | cfgiValue (m : Master) (p : Fin 4)
  /-- PORST_ASSERT: PORST_N asserts and resets the whole device (R409). -/
  | porstAssert
  /-- PORST_RELEASE: PORST_N releases, the straps are sampled and start-up begins (R475). -/
  | porstRelease (refsel portcfg : Fin 4)
  /-- SC_FW_OK: Firmware is authenticated and starts (R475). -/
  | scFwOk
  /-- INFO: Mailbox service returning the firmware version (R479). -/
  | info (m : Master) (p : Fin 4)
  /-- FLASH_READ: Mailbox service reading flash into host scratch (R479). -/
  | flashRead (m : Master) (p : Fin 4)
  /-- FLASH_ERASE: Mailbox service erasing flash (R479). -/
  | flashErase (m : Master) (p : Fin 4)
  /-- FLASH_WRITE: Mailbox service writing flash from host scratch (R479). -/
  | flashWrite (m : Master) (p : Fin 4)
  /-- IMAGE_LOAD: Mailbox service loading a full image from host scratch (R479). -/
  | imageLoad (m : Master) (p : Fin 4)
  /-- FW_RECOVER: Mailbox service recovering firmware from host scratch (R479). -/
  | fwRecover (m : Master) (p : Fin 4)
  /-- MAILBOX_DONE: A mailbox service ends with its status and result (R479). -/
  | mailboxDone (p : Fin 4) (met : MailMeet)
  /-- TAMPER_PIN: TAMPER_N low for 1 µs wipes the Cocoon (R485). -/
  | tamperPin (low : Bool)
  /-- TAMPER_SUPPLY: A supply outside its tamper range for 50 ns wipes the Cocoon (R485). -/
  | tamperSupply
  /-- TAMPER_CLOCK: Two deviating clock periods wipe the Cocoon (R485). -/
  | tamperClock
  /-- LOCKSTEP_MISMATCH: The two system controller cores disagree (R478). -/
  | lockstepMismatch
  /-- THERMAL_END: Every sensor at or below 103 °C for 1 ms ends thermal throttling (R499). -/
  | thermalEnd
  /-- PG_ESTIMATE: Every 250 ns the governor forms the estimate and adjusts throttling (R491). -/
  | pgEstimate (draws : List Nat) (x : Fin 65537)
  /-- PG_CALIBRATE: Every 1 ms the energy coefficients are corrected from the regulator (R491). -/
  | pgCalibrate (ack : Bool) (vout iout : Fin 65536)
  /-- TOKEN_GRANT: A token request is granted in full or at the allowed rate (R492). -/
  | tokenGrant (c : Fin 14) (n : Nat) (x : Fin 65537)
  /-- PG_APPLY: A write with a current GEN applies the staged budget (R490). -/
  | pgApply (m : Master) (gen : BitVec 16)
  /-- VCORE_STEP: After 100 µs of its condition, VCORE moves one 10 mV step through PMBus (R495). -/
  | vcoreStep (work ack : Bool) (meas : Fin 65536)
  /-- PMB_RETRY: Every 100 ms the governor retries a silent regulator (R496). -/
  | pmbRetry (ok : Bool)
  /-- MON_SAMPLE: Every SAMPLE µs a level monitor takes a value (R507). -/
  | monSample (m : Fin 32) (occ : Fin 1025)
  /-- MON_SNAP: A one sets a monitor snapshot stamp keeping totals (R509). -/
  | monSnap (m : Master) (w : Word)
  /-- MON_SNAP_CLR: A one sets a monitor snapshot stamp clearing the live bank (R509). -/
  | monSnapClr (m : Master) (w : Word)
  /-- MON_SNAPSHOT_DONE: A monitor snapshot completes and the frozen bank is replaced (R509). -/
  | monSnapshotDone (m : Fin 32)
  /-- ILLEGAL_INSTRUCTION: The engine fetches a word that is no legal instruction, or fetches outside its code region, and faults under R246 (R242). -/
  | illegalInstruction (e : Fin 256)
  /-- SEALER_CHAIN_STEP: The sealer finishes hashing a block or message, or a signature, and releases waiting packers and sealed deliveries (R185). -/
  | sealerChainStep
  /-- PER_BANK_REFRESH_DONE: A per-bank refresh ends after tRFCpb, freeing the bank pair, paying debt and ending a refresh hold (R374). -/
  | perBankRefreshDone (c : Fin 16) (r : Fin 2)
  /-- TAG_RETIREMENT_END: 2 × CTO after a timeout, a retired read tag returns to the pool of free tags (R405). -/
  | tagRetirementEnd (p : Fin 4) (tag : Fin 512)
  deriving DecidableEq, Repr

end Sys2Proof
end

