-- ==== Sys2Proof/Machine/Bits.lean ====
section
/-! DEFINITION. Bit fields, byte order (R4), stamps and their order (R534), the CRC-32C of R155, and small helpers over
lists. -/

namespace Sys2Proof.Bits

/-- The field [hi:lo] of a word. -/
def fld (w : Word) (hi lo : Nat) : Nat := (w.toNat >>> lo) % 2 ^ (hi + 1 - lo)

/-- Bit `i` of a word. -/
def bit (w : Word) (i : Nat) : Bool := w.getLsbD i

/-- The mask of the field [hi:lo]. -/
def mask (hi lo : Nat) : Word := BitVec.ofNat 32 ((2 ^ (hi + 1 - lo) - 1) <<< lo)

/-- `w` with its field [hi:lo] replaced by the low bits of `v`. -/
def setFld (w : Word) (hi lo v : Nat) : Word :=
  (w &&& ~~~(mask hi lo)) ||| (BitVec.ofNat 32 (v <<< lo) &&& mask hi lo)

/-- `n` read as a two's complement number of `w` bits. -/
def signed (w n : Nat) : Int := (BitVec.ofNat w n).toInt

/-- A natural number of at most one bit. -/
def b2n (b : Bool) : Nat := if b then 1 else 0

/-- A word from a natural number. -/
def word (n : Nat) : Word := BitVec.ofNat 32 n

/-- The low word of a 64-bit value. -/
def lo32 (x : BitVec 64) : Word := x.setWidth 32

/-- The high word of a 64-bit value. -/
def hi32 (x : BitVec 64) : Word := (x >>> 32).setWidth 32

/-- A 64-bit value from its two words. -/
def cat64 (hi lo : Word) : BitVec 64 := hi ++ lo

/-- The set bits of a mask, below `n`, lowest first. -/
def ones (n : Nat) (w : Word) : List Nat := (List.range n).filter (fun i => w.getLsbD i)

/-- `n` little-endian bytes of `v` (R4). -/
def leBytes : Nat → Nat → List Byte
  | 0, _ => []
  | n + 1, v => BitVec.ofNat 8 v :: leBytes n (v / 256)

/-- The value of little-endian bytes (R4). -/
def leVal : List Byte → Nat
  | [] => 0
  | b :: r => b.toNat + 256 * leVal r

/-- The `n` bytes of a list from offset `o`, missing bytes read as zero. -/
def slice (l : List Byte) (o n : Nat) : List Byte := (List.range n).map (fun i => l.getD (o + i) 0)

/-- The little-endian value of `n` bytes of a list from offset `o`. -/
def leAt (l : List Byte) (o n : Nat) : Nat := leVal (slice l o n)

/-- Bytes of a word, little-endian. -/
def wordBytes (w : Word) : List Byte := leBytes 4 w.toNat

/-- A list padded with zero bytes, or cut, to `n` bytes. -/
def padTo (n : Nat) (l : List Byte) : List Byte := slice l 0 n

/-- One bit step of the reflected CRC-32C. -/
def crcBit (c : Word) : Word := if c.getLsbD 0 then (c >>> 1) ^^^ 0x82F63B78#32 else c >>> 1

/-- One byte step of the reflected CRC-32C. -/
def crcByte (c : Word) (b : Byte) : Word :=
  let c := c ^^^ b.setWidth 32
  crcBit (crcBit (crcBit (crcBit (crcBit (crcBit (crcBit (crcBit c)))))))

/-- The CRC-32C of R155: reflected, initial value and final XOR of all ones. -/
def crc32c (l : List Byte) : Word := ~~~(l.foldl crcByte 0xFFFFFFFF#32)

/-- Count up by one, saturating at 0xFFFF_FFFF (the 32-bit counters of R7's paragraph). -/
def sat32 (w : Word) (n : Nat) : Word := word (min (w.toNat + n) 0xFFFFFFFF)

/-- A stamp from a natural number, modulo 2^64 (R5). -/
def stamp (n : Nat) : Stamp := BitVec.ofNat 64 n

/-- The signed difference s2 − s1 of two stamps, modulo 2^64 (R534). -/
def diff (s1 s2 : Stamp) : Int := (s2 - s1).toInt

/-- Stamp `s1` lies before stamp `s2` (R534). -/
def before (s1 s2 : Stamp) : Bool := decide (0 < diff s1 s2)

/-- Stamp `s1` lies at or before stamp `s2` (R534). -/
def upto (s1 s2 : Stamp) : Bool := decide (0 ≤ diff s1 s2)

/-- Stamp plus a signed span. -/
def shift (s : Stamp) (d : Int) : Stamp := s + BitVec.ofInt 64 d

/-- The smallest of some stamps, none of an empty list. -/
def earliest : List Stamp → Option Stamp
  | [] => none
  | s :: r => match earliest r with
    | none => some s
    | some t => some (if before t s then t else s)

/-- `x` clamped to [lo, hi]. -/
def clamp (lo hi x : Int) : Int := if x < lo then lo else if hi < x then hi else x

/-- The 32-bit two's complement word of an integer. -/
def iword (x : Int) : Word := BitVec.ofInt 32 x

/-- Put `x` into a list sorted by `le`, after every element that is not after it. -/
def insertBy {α : Type} (le : α → α → Bool) (x : α) : List α → List α
  | [] => [x]
  | y :: r => if le y x then y :: insertBy le x r else x :: y :: r

/-- Apply `f` to every element in turn, threading a state. -/
def forAll {α β : Type} (l : List α) (s : β) (f : α → β → β) : β :=
  match l with
  | [] => s
  | x :: r => forAll r (f x s) f

/-- floor(log2 n) for n ≥ 1, 0 for 0. -/
def log2 (n : Nat) : Nat := Nat.log2 n

/-- ceil(a / b). -/
def ceilDiv (a b : Nat) : Nat := (a + b - 1) / b

end Sys2Proof.Bits
end

