-- ==== Sys2Proof/Machine/Code8b10b.lean ====
section
/-! DEFINITION. The 8b/10b code of IEEE 802.3 Clause 36, which R215 names (log entry 30). Bits are in line order, a b c d
e i f g h j, the first on the line first. -/

namespace Sys2Proof.Code8b10b

/-- The 5b/6b code for negative running disparity, abcdei as a number with `a` most significant. -/
def six (n : Nat) : Nat :=
  [0b100111, 0b011101, 0b101101, 0b110001, 0b110101, 0b101001, 0b011001, 0b111000, 0b111001, 0b100101, 0b010101, 0b110100,
   0b001101, 0b101100, 0b011100, 0b010111, 0b011011, 0b100011, 0b010011, 0b110010, 0b001011, 0b101010, 0b011010, 0b111010,
   0b110011, 0b100110, 0b010110, 0b110110, 0b001110, 0b101110, 0b011110, 0b101011].getD n 0

/-- The number of ones of a number of `w` bits. -/
def ones (w n : Nat) : Nat := ((List.range w).filter (fun i => n.testBit i)).length

/-- A sub-block after the running disparity `rd` (true positive): one with unequal ones and zeros is inverted for positive
disparity, and 111000 as well. -/
def sixFor (rd : Bool) (c : Nat) : Nat := if rd && (ones 6 c != 3 || c == 0b111000) then 63 - c else c

/-- Disparity after a sub-block of `w` bits. -/
def after (w : Nat) (rd : Bool) (c : Nat) : Bool := if w < 2 * ones w c then true else if 2 * ones w c < w then false else rd

/-- The 3b/4b code of a data character, fghj, for the disparity before it. -/
def four (n : Nat) (rd : Bool) (alt : Bool) : Nat :=
  let neg := if n = 7 then (if alt then 0b0111 else 0b1110) else [0b1011, 0b1001, 0b0101, 0b1100, 0b1101, 0b1010, 0b0110].getD n 0
  if rd && (ones 4 neg != 2 || neg == 0b1100) then 15 - neg else neg

/-- D.x.7 takes its alternate code after some sub-blocks. -/
def altFor (rd : Bool) (x : Nat) : Bool :=
  if rd then x == 11 || x == 13 || x == 14 else x == 17 || x == 18 || x == 20

/-- The 10-bit group of a data character. -/
def dataGroup (byte : Nat) (rd : Bool) : Nat :=
  let a := sixFor rd (six (byte % 32))
  let rd1 := after 6 rd a
  a * 16 + four (byte / 32) rd1 (altFor rd1 (byte % 32))

/-- The groups of the control characters for negative disparity: K28.0 to K28.7, K23.7, K27.7, K29.7, K30.7. -/
def controls : List (Nat × Nat) :=
  [(0x1C, 0b0011110100), (0x3C, 0b0011111001), (0x5C, 0b0011110101), (0x7C, 0b0011110011), (0x9C, 0b0011110010),
   (0xBC, 0b0011111010), (0xDC, 0b0011110110), (0xFC, 0b0011111000), (0xF7, 0b1110101000), (0xFB, 0b1101101000),
   (0xFD, 0b1011101000), (0xFE, 0b0111101000)]

/-- The group of a control character: inverted for positive disparity. -/
def controlGroup (g : Nat) (rd : Bool) : Nat := if rd then 1023 - g else g

/-- What a group decodes to for one running disparity: the byte and whether it is a control character. -/
def lookup (g : Nat) (rd : Bool) : Option (Nat × Bool) :=
  match controls.find? (fun e => controlGroup e.2 rd == g) with
  | some e => some (e.1, true)
  | none => ((List.range 256).find? (fun b => dataGroup b rd == g)).map (fun b => (b, false))

/-- A received group: byte, control character, code error, disparity error, and the running disparity after it. -/
structure Result where
  byte : Nat
  k    : Bool
  code : Bool
  disp : Bool
  rd   : Option Bool

/-- Decode a group after a running disparity, unknown before the first group (R223). -/
def decode (g : Nat) (rd : Option Bool) : Result :=
  let next (r : Bool) : Bool := after 10 r g
  match rd with
  | some r =>
    match lookup g r with
    | some (b, k) => ⟨b, k, false, false, some (next r)⟩
    | none => match lookup g (!r) with
      | some (b, k) => ⟨b, k, false, true, some (next (!r))⟩
      | none => ⟨0, false, true, false, some (next r)⟩
  | none =>
    match lookup g false with
    | some (b, k) => ⟨b, k, false, false, some (next false)⟩
    | none => match lookup g true with
      | some (b, k) => ⟨b, k, false, false, some (next true)⟩
      | none => ⟨0, false, true, false, none⟩

end Sys2Proof.Code8b10b
end

