-- ==== Sys2Proof/Config.lean ====
section
/-! DEFINITION. The free values: what the spec leaves open, as constants with no body, so that no proof can see what they
are (log entries 4 to 8). -/

namespace Sys2Proof.Config

/-- SHA-384 of some bytes. The spec names the function (R182) and does not restate it; the model leaves it uninterpreted. -/
opaque sha384 : List Byte → BitVec 384

/-- ECDSA P-384 signing with the seal key of generation `gen` (R183, R279): r and s, 48 bytes each, little-endian. -/
opaque sealSign : (gen : Nat) → List Byte → BitVec 768

/-- Whether an ECDSA P-384 signature (public key, message, r and s) verifies (R462, R467). -/
opaque ecdsaVerify : (key : List Byte) → (msg : List Byte) → (sig : List Byte) → Bool

/-- AES key unwrap of a KEYWRAP section with this device's image-decryption key (R463); none where it fails. -/
opaque unwrapKey : (gen : Nat) → List Byte → Option (BitVec 256)

/-- AES-256-GCM decryption (key, section index, additional data, stored bytes); none where the tag fails (R463). -/
opaque gcmOpen : BitVec 256 → Nat → List Byte → List Byte → Option (List Byte)

/-- The seal public key of generation `gen`, X then Y, 96 bytes (R480, R484). A generation is named by the RECORD_SEQ of the
provisioning record that holds its keys. -/
opaque sealPub : (gen : Nat) → List Byte

/-- The image-decryption public key of generation `gen`, X then Y, 96 bytes (R480, R484). -/
opaque imagePub : (gen : Nat) → List Byte

/-- Bytes 480 to 603 of a provisioning record (R480): the nonce, the two wrapped private keys and the tag. -/
opaque wrapKeys : (gen : Nat) → List Byte

/-- The signature of the device attestation key over some bytes (R480): r and s, 48 bytes each, little-endian. -/
opaque attestSign : List Byte → BitVec 768

/-- Whether other bytes verify as a signature of the device attestation key (R480, R481). -/
opaque attestVerify : (msg : List Byte) → (sig : List Byte) → Bool

/-- Whether X, Y is a point on P-384 (R484). -/
opaque onCurve : List Byte → Bool

/-- Whether a public key is Thrumdal's return key, whose hash is fused and which the firmware carries, and verifies a return
token (R484). -/
opaque returnVerify : (hash : BitVec 384) → (msg : List Byte) → (sig : List Byte) → Bool

/-- The key identifier of the seal key of generation `gen` (R181): the first 8 bytes of the SHA-384 of its public key in
uncompressed form. -/
def keyId (gen : Nat) : BitVec 64 :=
  BitVec.ofNat 64 (Bits.leVal (((Bits.leBytes 48 (sha384 (0x04#8 :: sealPub gen)).toNat).reverse).take 8))

/-- The code of a master in SB_UE and SB_COLL records, by the model's name for it (R355): the spec gives no codes. -/
opaque masterCode : Nat → BitVec 8

/-- The number of steps the dither LFSR takes up to a count since the count before it (R53): the spec does not give its clock. -/
opaque ditherSteps : Nat → Nat

/-- Whether a sample period of a / b in 2^-32 tu that is no whole number is rounded up (R290): the spec does not say. -/
opaque periodUp : Nat → Nat → Bool

/-- Whether a sum of sample periods half-way between two tu is rounded up (R290): the spec does not say. -/
opaque halfUp : Int → Bool

/-- The entry that follows the last of the 1,024 entries of a generator (R298): the spec does not say. -/
opaque entryPastEnd : Nat → BitVec 10

/-- The consumer code of a failed read of a SHARED value block in HP_CTO (R404, R428): the spec gives none. -/
opaque valueConsumer : BitVec 8

/-- Whether the allowed rate of a throttled class (numerator over 65,536) that is no whole number is rounded up (R493). -/
opaque rateUp : Nat → Bool

/-- A fresh free bit, by the number of free values taken so far. -/
opaque freeBit : Nat → Bool

/-- A fresh free word, by the number of free values taken so far. -/
opaque freeWord : Nat → Word

end Sys2Proof.Config
end

