-- ==== Sys2Proof/Machine/Addr.lean ====
section
/-! DEFINITION. The BAR0 address of every register, by its name in the spec (R41, R42, R81, R114, R151, R187, R213, R253, R285, R322, R356, R388, R429, R455, R487, R511, R512). A function takes the register's indexes, outermost first. -/

namespace Sys2Proof.R

/-! GLB registers (R455 of file 13). -/

def GLB_ID : Nat := 0x0
def GLB_STATUS : Nat := 0x4
def GLB_SCRATCH (i : Nat) : Nat := 0x10 + 0x4 * i
def GLB_ONCE (i : Nat) : Nat := 0x20 + 0x4 * i
def GLB_EVT_CNT (i j : Nat) : Nat := 0x100 + 0x20 * i + 0x4 * j
def GLB_CT_EVT_CNT (i j : Nat) : Nat := 0x200 + 0x20 * i + 0x4 * j

/-! HP registers (R429 of file 12). -/

def HP_STATUS (i : Nat) : Nat := 0x10000 + 0x40 * i
def HP_CTL (i : Nat) : Nat := 0x10004 + 0x40 * i
def HP_LTR (i : Nat) : Nat := 0x10008 + 0x40 * i
def HP_FENCE (i : Nat) : Nat := 0x1000C + 0x40 * i
def HP_CTO_CNT (i : Nat) : Nat := 0x10010 + 0x40 * i
def HP_UC_CNT (i : Nat) : Nat := 0x10014 + 0x40 * i
def HP_FDROP_CNT (i : Nat) : Nat := 0x10018 + 0x40 * i
def HP_EVT_CNT (i j : Nat) : Nat := 0x10100 + 0x40 * i + 0x4 * j
def HP_CFG : Nat := 0x10200
def HP_IFVER : Nat := 0x10204
def HP_DIGEST_SNAP : Nat := 0x10208
def HP_DIGEST_STATUS : Nat := 0x1020C
def HP_DIGEST_WIN (i : Nat) : Nat := 0x14000 + 0x4 * i

/-! CFGI registers (R455 of file 13). -/

def CFGI_CTL (i : Nat) : Nat := 0x20000 + 0x40 * i
def CFGI_COMMIT (i : Nat) : Nat := 0x20004 + 0x40 * i
def CFGI_REF (i : Nat) : Nat := 0x20008 + 0x40 * i
def CFGI_STATUS (i : Nat) : Nat := 0x2000C + 0x40 * i
def CFGI_LAST (i : Nat) : Nat := 0x20010 + 0x40 * i
def CFGI_TRACK (i : Nat) : Nat := 0x20014 + 0x40 * i
def CFGI_BLK (i : Nat) : Nat := 0x20018 + 0x40 * i
def CFGI_PASS_CNT (i : Nat) : Nat := 0x2001C + 0x40 * i
def CFGI_MIS_CNT (i : Nat) : Nat := 0x20020 + 0x40 * i
def CFGI_EVT_CNT (i j : Nat) : Nat := 0x20024 + 0x40 * i + 0x4 * j

/-! TB registers (R81 of file 02). -/

def TB_STATUS : Nat := 0x40000
def TB_PLL_GEN : Nat := 0x40004
def TB_SG_GEN : Nat := 0x40008
def TB_SYNC_GEN : Nat := 0x4000C
def TB_COUNT_LO : Nat := 0x40010
def TB_COUNT_HI : Nat := 0x40014
def TB_REF_CTL : Nat := 0x40020
def TB_LOCK_CTL : Nat := 0x40024
def TB_DITHER_SEED : Nat := 0x40028
def TB_APPLY : Nat := 0x4002C
def TB_LAST_JUMP : Nat := 0x40030
def TB_SYNC_CTL : Nat := 0x40100
def TB_SYNC_FIRE : Nat := 0x40104
def TB_SYNC_TS_LO : Nat := 0x40108
def TB_SYNC_TS_HI : Nat := 0x4010C
def TB_REF_OUT_CTL : Nat := 0x40120
def TB_EVT_CNT (i : Nat) : Nat := 0x40200 + 0x4 * i
def TB_SG_FCW : Nat := 0x44000
def TB_SG_CTL : Nat := 0x44004
def TB_SG_APPLY : Nat := 0x44008
def TB_DPLL_CTL (i : Nat) : Nat := 0x44010 + 0x4 * i
def TB_RAMP_CTL : Nat := 0x44020
def TB_RAMP_GO : Nat := 0x44024
def TB_RAMP_STATUS : Nat := 0x44028
def TB_RAMP_DELTA (i : Nat) : Nat := 0x44100 + 0x8 * i
def TB_RAMP_DUR (i : Nat) : Nat := 0x44104 + 0x8 * i
def TB_PTM_CTL (i : Nat) : Nat := 0x48000 + 0x20 * i
def TB_PTM_SEQ (i : Nat) : Nat := 0x48004 + 0x20 * i
def TB_PTM_DEV_LO (i : Nat) : Nat := 0x48008 + 0x20 * i
def TB_PTM_DEV_HI (i : Nat) : Nat := 0x4800C + 0x20 * i
def TB_PTM_HOST_LO (i : Nat) : Nat := 0x48010 + 0x20 * i
def TB_PTM_HOST_HI (i : Nat) : Nat := 0x48014 + 0x20 * i

/-! CH registers (R41 of file 01). -/

def CH_CTL (i : Nat) : Nat := 0x80000 + 0x4 * i
def CH_THR (i : Nat) : Nat := 0x80200 + 0x4 * i
def CH_DESKEW (i : Nat) : Nat := 0x80400 + 0x4 * i
def CH_STATUS (i : Nat) : Nat := 0x80600 + 0x4 * i
def CH_EDGE_CNT (i : Nat) : Nat := 0x80800 + 0x4 * i
def CH_COLLAPSE_CNT (i : Nat) : Nat := 0x80A00 + 0x4 * i
def CH_ZERO (i : Nat) : Nat := 0x80C00 + 0x4 * i
def CH_AT_CFG (i : Nat) : Nat := 0x84000 + 0x4 * i
def CH_AT_GO (i : Nat) : Nat := 0x84040 + 0x4 * i
def CH_CNT_CLR (i : Nat) : Nat := 0x84050 + 0x4 * i
def CH_AT_RESULT (i : Nat) : Nat := 0x84200 + 0x4 * i

/-! GRP registers (R114 of file 03). -/

def CH_GRP_CTL (i : Nat) : Nat := 0x88000 + 0x80 * i
def CH_GRP_STATUS (i : Nat) : Nat := 0x88004 + 0x80 * i
def CH_GRP_TIMING (i : Nat) : Nat := 0x88008 + 0x80 * i
def CH_GRP_STATE (i : Nat) : Nat := 0x8800C + 0x80 * i
def CH_GRP_MARGIN (i : Nat) : Nat := 0x88010 + 0x80 * i
def CH_GRP_STG (i : Nat) : Nat := 0x88014 + 0x80 * i
def CH_GRP_START_LO (i : Nat) : Nat := 0x88018 + 0x80 * i
def CH_GRP_START_HI (i : Nat) : Nat := 0x8801C + 0x80 * i
def CH_GRP_STOP_LO (i : Nat) : Nat := 0x88020 + 0x80 * i
def CH_GRP_STOP_HI (i : Nat) : Nat := 0x88024 + 0x80 * i
def CH_GRP_RGN_BASE_LO (i : Nat) : Nat := 0x88028 + 0x80 * i
def CH_GRP_RGN_BASE_HI (i : Nat) : Nat := 0x8802C + 0x80 * i
def CH_GRP_RGN_CTL (i : Nat) : Nat := 0x88030 + 0x80 * i
def CH_GRP_BLK_CNT (i : Nat) : Nat := 0x88034 + 0x80 * i
def CH_GRP_OVF_CNT (i : Nat) : Nat := 0x88038 + 0x80 * i
def CH_GRP_CMP (i : Nat) : Nat := 0x8803C + 0x80 * i
def CH_GRP_CMP_DLY (i : Nat) : Nat := 0x88040 + 0x80 * i
def CH_GRP_CMP_WIN (i : Nat) : Nat := 0x88044 + 0x80 * i
def CH_GRP_FMAP_BASE_LO (i : Nat) : Nat := 0x88048 + 0x80 * i
def CH_GRP_FMAP_BASE_HI (i : Nat) : Nat := 0x8804C + 0x80 * i
def CH_GRP_FMAP_SIZE (i : Nat) : Nat := 0x88050 + 0x80 * i
def CH_GRP_CMP_ITEM_CNT (i : Nat) : Nat := 0x88054 + 0x80 * i
def CH_GRP_CMP_FAIL_CNT (i : Nat) : Nat := 0x88058 + 0x80 * i
def CH_GRP_EVT_CNT (i j : Nat) : Nat := 0x88060 + 0x80 * i + 0x4 * j
def CH_GRP_GO : Nat := 0x88800
def CH_GRP_HALT : Nat := 0x88804
def CH_SPLIT_ZERO (i : Nat) : Nat := 0x88A00 + 0x4 * i

/-! CAP registers (R187 of file 05). -/

def CH_GRP_PACK (i : Nat) : Nat := 0x8C000 + 0x20 * i
def CH_GRP_SEAL (i : Nat) : Nat := 0x8C004 + 0x20 * i
def CH_GRP_WPTR_LO (i : Nat) : Nat := 0x8C008 + 0x20 * i
def CH_GRP_WPTR_HI (i : Nat) : Nat := 0x8C00C + 0x20 * i
def CH_CAP_EVT_CNT (i j : Nat) : Nat := 0x8C010 + 0x20 * i + 0x4 * j
def CH_SEAL_STATUS : Nat := 0x8C200
def CH_SEAL_KEY_ID_LO : Nat := 0x8C204
def CH_SEAL_KEY_ID_HI : Nat := 0x8C208

/-! IU registers (R213 of file 06). -/

def IU_HIST_BIN (i j : Nat) : Nat := 0x90000 + 0x4000 * i + 0x4 * j
def IU_CTL (i : Nat) : Nat := 0xD0000 + 0x80 * i
def IU_WLO (i : Nat) : Nat := 0xD0004 + 0x80 * i
def IU_WHI (i : Nat) : Nat := 0xD0008 + 0x80 * i
def IU_GATE_N (i : Nat) : Nat := 0xD000C + 0x80 * i
def IU_HIST (i : Nat) : Nat := 0xD0010 + 0x80 * i
def IU_HIST_OFS_LO (i : Nat) : Nat := 0xD0014 + 0x80 * i
def IU_HIST_OFS_HI (i : Nat) : Nat := 0xD0018 + 0x80 * i
def IU_QUEUE (i : Nat) : Nat := 0xD001C + 0x80 * i
def IU_STATUS (i : Nat) : Nat := 0xD0020 + 0x80 * i
def IU_ACC_COUNT_LO (i : Nat) : Nat := 0xD0024 + 0x80 * i
def IU_ACC_COUNT_HI (i : Nat) : Nat := 0xD0028 + 0x80 * i
def IU_ACC_SUM (i j : Nat) : Nat := 0xD002C + 0x80 * i + 0x4 * j
def IU_ACC_SQ (i j : Nat) : Nat := 0xD0038 + 0x80 * i + 0x4 * j
def IU_ACC_MIN_LO (i : Nat) : Nat := 0xD0048 + 0x80 * i
def IU_ACC_MIN_HI (i : Nat) : Nat := 0xD004C + 0x80 * i
def IU_ACC_MAX_LO (i : Nat) : Nat := 0xD0050 + 0x80 * i
def IU_ACC_MAX_HI (i : Nat) : Nat := 0xD0054 + 0x80 * i
def IU_SNAP_TS_LO (i : Nat) : Nat := 0xD0058 + 0x80 * i
def IU_SNAP_TS_HI (i : Nat) : Nat := 0xD005C + 0x80 * i
def IU_UNDER_CNT (i : Nat) : Nat := 0xD0060 + 0x80 * i
def IU_OVER_CNT (i : Nat) : Nat := 0xD0064 + 0x80 * i
def IU_REJ_CNT (i : Nat) : Nat := 0xD0068 + 0x80 * i
def IU_MISS_CNT (i : Nat) : Nat := 0xD006C + 0x80 * i
def IU_START_DROP_CNT (i : Nat) : Nat := 0xD0070 + 0x80 * i
def IU_EXCL_CNT (i : Nat) : Nat := 0xD0074 + 0x80 * i
def IU_COLL_CNT (i : Nat) : Nat := 0xD0078 + 0x80 * i
def IU_REC_DROP_CNT (i : Nat) : Nat := 0xD007C + 0x80 * i
def IU_EVT_CNT (i j : Nat) : Nat := 0xD0800 + 0x20 * i + 0x4 * j
def IU_SNAP : Nat := 0xD0C00
def IU_SNAP_CLR : Nat := 0xD0C04

/-! TDC registers (R42 of file 01). -/

def TDC_TABLE (i j k : Nat) : Nat := 0x100000 + 0x4000 * i + 0x200 * j + 0x4 * k
def TDC_CAL_CTL (i : Nat) : Nat := 0x140000 + 0x4 * i
def TDC_CAL_GO : Nat := 0x140040
def TDC_CNT_CLR : Nat := 0x140044
def TDC_STATUS (i : Nat) : Nat := 0x140080 + 0x4 * i
def TDC_CAL_TEMP (i : Nat) : Nat := 0x1400C0 + 0x4 * i
def TDC_LLM_RATIO (i : Nat) : Nat := 0x140200 + 0x4 * i
def TDC_B254 (i : Nat) : Nat := 0x140400 + 0x4 * i
def TDC_RES_CNT (i : Nat) : Nat := 0x140600 + 0x4 * i
def TDC_ECC_CNT (i : Nat) : Nat := 0x140800 + 0x4 * i

/-! TRG registers (R151 of file 04). -/

def TRG_SEQ_CTL (i : Nat) : Nat := 0x200000 + 0x80 * i
def TRG_SEQ_STATUS (i : Nat) : Nat := 0x200004 + 0x80 * i
def TRG_SEQ_GRP (i : Nat) : Nat := 0x200008 + 0x80 * i
def TRG_SEQ_PRE_LO (i : Nat) : Nat := 0x20000C + 0x80 * i
def TRG_SEQ_PRE_HI (i : Nat) : Nat := 0x200010 + 0x80 * i
def TRG_SEQ_POST_LO (i : Nat) : Nat := 0x200014 + 0x80 * i
def TRG_SEQ_POST_HI (i : Nat) : Nat := 0x200018 + 0x80 * i
def TRG_SEQ_ARM_LO (i : Nat) : Nat := 0x20001C + 0x80 * i
def TRG_SEQ_ARM_HI (i : Nat) : Nat := 0x200020 + 0x80 * i
def TRG_SEQ_TRIG_LO (i : Nat) : Nat := 0x200024 + 0x80 * i
def TRG_SEQ_TRIG_HI (i : Nat) : Nat := 0x200028 + 0x80 * i
def TRG_SEQ_TRIG_INFO (i : Nat) : Nat := 0x20002C + 0x80 * i
def TRG_SEQ_EXTRA_CNT (i : Nat) : Nat := 0x200030 + 0x80 * i
def TRG_SEQ_LATE_CNT (i : Nat) : Nat := 0x200034 + 0x80 * i
def TRG_SEQ_EVT_CNT (i j : Nat) : Nat := 0x200040 + 0x80 * i + 0x4 * j
def TRG_ARM : Nat := 0x200400
def TRG_HALT : Nat := 0x200404
def TRG_STG_CTL (i j : Nat) : Nat := 0x204000 + 0x200 * i + 0x20 * j
def TRG_COND (i j k : Nat) : Nat := 0x204004 + 0x200 * i + 0x20 * j + 0x4 * k
def TRG_PC_CTL (i : Nat) : Nat := 0x208000 + 0x40 * i
def TRG_PC_DUR (i : Nat) : Nat := 0x208004 + 0x40 * i
def TRG_PC_MASK (i j : Nat) : Nat := 0x208010 + 0x40 * i + 0x4 * j
def TRG_PC_VALUE (i j : Nat) : Nat := 0x208020 + 0x40 * i + 0x4 * j
def TRG_PC_HIT_CNT (i : Nat) : Nat := 0x208030 + 0x40 * i
def TRG_IQ_CTL (i : Nat) : Nat := 0x214000 + 0x20 * i
def TRG_IQ_MIN (i : Nat) : Nat := 0x214004 + 0x20 * i
def TRG_IQ_MAX (i : Nat) : Nat := 0x214008 + 0x20 * i
def TRG_IQ_HIT_CNT (i : Nat) : Nat := 0x21400C + 0x20 * i
def TRG_CT_CTL (i : Nat) : Nat := 0x20C000 + 0x20 * i
def TRG_CT_STAGES (i : Nat) : Nat := 0x20C004 + 0x20 * i
def TRG_CT_LIMIT_LO (i : Nat) : Nat := 0x20C008 + 0x20 * i
def TRG_CT_LIMIT_HI (i : Nat) : Nat := 0x20C00C + 0x20 * i
def TRG_CT_VALUE_LO (i : Nat) : Nat := 0x20C010 + 0x20 * i
def TRG_CT_VALUE_HI (i : Nat) : Nat := 0x20C014 + 0x20 * i
def TRG_CT_STATUS (i : Nat) : Nat := 0x20C018 + 0x20 * i
def TRG_MM_CTL (i : Nat) : Nat := 0x218000 + 0x40 * i
def TRG_MM_QSEL (i : Nat) : Nat := 0x218004 + 0x40 * i
def TRG_MM_TYPE (i : Nat) : Nat := 0x218008 + 0x40 * i
def TRG_MM_PVAL_LO (i : Nat) : Nat := 0x21800C + 0x40 * i
def TRG_MM_PVAL_HI (i : Nat) : Nat := 0x218010 + 0x40 * i
def TRG_MM_PMASK_LO (i : Nat) : Nat := 0x218014 + 0x40 * i
def TRG_MM_PMASK_HI (i : Nat) : Nat := 0x218018 + 0x40 * i
def TRG_MM_HIT_CNT (i : Nat) : Nat := 0x21801C + 0x40 * i
def TRG_IO_CTL (i : Nat) : Nat := 0x210000 + 0x4 * i
def TRG_IO_GEN : Nat := 0x210040
def TRG_IO_APPLY : Nat := 0x210044
def TRG_IO_STATUS : Nat := 0x210048
def TRG_IO_IN_DLY : Nat := 0x21004C
def TRG_IO_STALE_CNT : Nat := 0x210050

/-! ME registers (R253 of file 07). -/

def ME_X_CTL (i : Nat) : Nat := 0x400000 + 0x20 * i
def ME_X_PER (i : Nat) : Nat := 0x400004 + 0x20 * i
def ME_X_FMT (i : Nat) : Nat := 0x400008 + 0x20 * i
def ME_X_CLK (i : Nat) : Nat := 0x40000C + 0x20 * i
def ME_X_TGT (i : Nat) : Nat := 0x400010 + 0x20 * i
def ME_X_STATUS (i : Nat) : Nat := 0x400014 + 0x20 * i
def ME_X_SYM_CNT (i : Nat) : Nat := 0x400018 + 0x20 * i
def ME_STATUS (i j : Nat) : Nat := 0x404000 + 0x4000 * i + 0x40 * j
def ME_PC (i j : Nat) : Nat := 0x404004 + 0x4000 * i + 0x40 * j
def ME_CAUSE (i j : Nat) : Nat := 0x404008 + 0x4000 * i + 0x40 * j
def ME_ENTRY (i j : Nat) : Nat := 0x40400C + 0x4000 * i + 0x40 * j
def ME_CODE (i j : Nat) : Nat := 0x404010 + 0x4000 * i + 0x40 * j
def ME_SPA (i j : Nat) : Nat := 0x404014 + 0x4000 * i + 0x40 * j
def ME_SPD (i j : Nat) : Nat := 0x404018 + 0x4000 * i + 0x40 * j
def ME_KICK (i j : Nat) : Nat := 0x40401C + 0x4000 * i + 0x40 * j
def ME_STEP_LO (i j : Nat) : Nat := 0x404020 + 0x4000 * i + 0x40 * j
def ME_STEP_HI (i j : Nat) : Nat := 0x404024 + 0x4000 * i + 0x40 * j
def ME_MSG_CNT (i j : Nat) : Nat := 0x404028 + 0x4000 * i + 0x40 * j
def ME_LOSS_CNT (i j : Nat) : Nat := 0x40402C + 0x4000 * i + 0x40 * j
def ME_DISC_CNT (i j : Nat) : Nat := 0x404030 + 0x4000 * i + 0x40 * j
def ME_RES_CNT (i j : Nat) : Nat := 0x404034 + 0x4000 * i + 0x40 * j
def ME_ECC_CNT (i j : Nat) : Nat := 0x404038 + 0x4000 * i + 0x40 * j
def ME_MDROP_CNT (i j : Nat) : Nat := 0x40403C + 0x4000 * i + 0x40 * j
def ME_GO (i : Nat) : Nat := 0x414000 + 0x4 * i
def ME_STOP (i : Nat) : Nat := 0x414020 + 0x4 * i
def ME_X_BIND_CNT : Nat := 0x414040
def ME_EVT_CNT (i j k : Nat) : Nat := 0x418000 + 0x4000 * i + 0x10 * j + 0x4 * k

/-! QM registers (R285 of file 08). -/

def QM_DESC0 (i j : Nat) : Nat := 0x800000 + 0x4000 * i + 0x20 * j
def QM_DESC1 (i j : Nat) : Nat := 0x800004 + 0x4000 * i + 0x20 * j
def QM_DESC2 (i j : Nat) : Nat := 0x800008 + 0x4000 * i + 0x20 * j
def QM_DESC3 (i j : Nat) : Nat := 0x80000C + 0x4000 * i + 0x20 * j
def QM_DESC4 (i j : Nat) : Nat := 0x800010 + 0x4000 * i + 0x20 * j
def QM_DESC5 (i j : Nat) : Nat := 0x800014 + 0x4000 * i + 0x20 * j
def QM_DESC6 (i j : Nat) : Nat := 0x800018 + 0x4000 * i + 0x20 * j
def QM_DESC7 (i j : Nat) : Nat := 0x80001C + 0x4000 * i + 0x20 * j
def QM_EVTQ (i : Nat) : Nat := 0xA00000 + 0x4 * i
def QM_POOL (i : Nat) : Nat := 0xA00010 + 0x4 * i
def QM_EVT_LEVEL (i : Nat) : Nat := 0xA00020 + 0x4 * i
def QM_LOSS_CNT (i : Nat) : Nat := 0xA00030 + 0x4 * i
def QM_DUP_CNT (i : Nat) : Nat := 0xA00040 + 0x4 * i
def QM_BAD_CNT (i : Nat) : Nat := 0xA00050 + 0x4 * i
def QM_EVT_LOST_CNT (i : Nat) : Nat := 0xA00060 + 0x4 * i
def QM_EVT_CNT (i j : Nat) : Nat := 0xA00100 + 0x20 * i + 0x4 * j

/-! SG registers (R322 of file 09). -/

def SG_ENTRY (i j k l : Nat) : Nat := 0xC00000 + 0x10000 * i + 0x4000 * j + 0x10 * k + 0x4 * l
def SG_CTL (i : Nat) : Nat := 0xC80000 + 0x4000 * i
def SG_STATUS (i : Nat) : Nat := 0xC80004 + 0x4000 * i
def SG_CFG (i : Nat) : Nat := 0xC80008 + 0x4000 * i
def SG_SEQ (i : Nat) : Nat := 0xC8000C + 0x4000 * i
def SG_START_LO (i : Nat) : Nat := 0xC80010 + 0x4000 * i
def SG_START_HI (i : Nat) : Nat := 0xC80014 + 0x4000 * i
def SG_STOP_LO (i : Nat) : Nat := 0xC80018 + 0x4000 * i
def SG_STOP_HI (i : Nat) : Nat := 0xC8001C + 0x4000 * i
def SG_PLAY_LO (i : Nat) : Nat := 0xC80020 + 0x4000 * i
def SG_PLAY_HI (i : Nat) : Nat := 0xC80024 + 0x4000 * i
def SG_LOOP (i : Nat) : Nat := 0xC80028 + 0x4000 * i
def SG_JSRC (i : Nat) : Nat := 0xC80030 + 0x4000 * i
def SG_JUMP (i : Nat) : Nat := 0xC80034 + 0x4000 * i
def SG_JUMP_TS_LO (i : Nat) : Nat := 0xC80038 + 0x4000 * i
def SG_JUMP_TS_HI (i : Nat) : Nat := 0xC8003C + 0x4000 * i
def SG_IDLE (i j : Nat) : Nat := 0xC80040 + 0x4000 * i + 0x4 * j
def SG_LS_ADDR (i : Nat) : Nat := 0xC80060 + 0x4000 * i
def SG_LS_DATA (i : Nat) : Nat := 0xC80064 + 0x4000 * i
def SG_STR_CTL (i : Nat) : Nat := 0xC80070 + 0x4000 * i
def SG_STR_DB (i : Nat) : Nat := 0xC80074 + 0x4000 * i
def SG_STR_HEAD (i : Nat) : Nat := 0xC80078 + 0x4000 * i
def SG_STR_TAIL (i : Nat) : Nat := 0xC8007C + 0x4000 * i
def SG_STR_BASE_LO (i : Nat) : Nat := 0xC80080 + 0x4000 * i
def SG_STR_BASE_HI (i : Nat) : Nat := 0xC80084 + 0x4000 * i
def SG_STR_SHADOW_LO (i : Nat) : Nat := 0xC80088 + 0x4000 * i
def SG_STR_SHADOW_HI (i : Nat) : Nat := 0xC8008C + 0x4000 * i
def SG_OUT (i j : Nat) : Nat := 0xC80090 + 0x4000 * i + 0x4 * j
def SG_LANE_TRIM (i j : Nat) : Nat := 0xC800A0 + 0x4000 * i + 0x4 * j
def SG_CAL (i : Nat) : Nat := 0xC800B0 + 0x4000 * i
def SG_MT_CTL (i : Nat) : Nat := 0xC80100 + 0x4000 * i
def SG_MT_GEOM (i : Nat) : Nat := 0xC80104 + 0x4000 * i
def SG_MT_XOR (i : Nat) : Nat := 0xC80108 + 0x4000 * i
def SG_MT_ELEM (i j : Nat) : Nat := 0xC80110 + 0x4000 * i + 0x4 * j
def SG_MT_SCR (i j : Nat) : Nat := 0xC80120 + 0x4000 * i + 0x4 * j
def SG_MT_LANE_A (i j : Nat) : Nat := 0xC80200 + 0x4000 * i + 0x8 * j
def SG_MT_LANE_B (i j : Nat) : Nat := 0xC80204 + 0x4000 * i + 0x8 * j
def SG_UNDER_CNT (i : Nat) : Nat := 0xC80300 + 0x4000 * i
def SG_JDROP_CNT (i : Nat) : Nat := 0xC80304 + 0x4000 * i
def SG_EVT_CNT (i j : Nat) : Nat := 0xC80340 + 0x4000 * i + 0x4 * j
def SG_GO : Nat := 0xCA0000
def SG_HALT : Nat := 0xCA0004
def SG_COMMON_STATUS : Nat := 0xCA0008
def SG_CAL_OFS : Nat := 0xCA000C
def SG_GRID_O_LO : Nat := 0xCA0010
def SG_GRID_O_HI : Nat := 0xCA0014

/-! SB registers (R356 of file 10). -/

def SB_MAP (i : Nat) : Nat := 0xE00000 + 0x4 * i
def SB_CE_CNT (i : Nat) : Nat := 0xE00080 + 0x4 * i
def SB_UE_CNT (i : Nat) : Nat := 0xE00100 + 0x4 * i
def SB_COLL_CNT (i : Nat) : Nat := 0xE00180 + 0x4 * i
def SB_DIA_ENTER : Nat := 0xE00200
def SB_DIA_WAKE : Nat := 0xE00204
def SB_DIA_SP_ENTER (i : Nat) : Nat := 0xE00220 + 0x4 * i
def SB_DIA_SP_WAKE (i : Nat) : Nat := 0xE00240 + 0x4 * i
def SB_DIA_SP_STATE (i : Nat) : Nat := 0xE00260 + 0x4 * i
def SB_STG_CE_CNT (i : Nat) : Nat := 0xE00300 + 0x4 * i
def SB_STG_UE_CNT (i : Nat) : Nat := 0xE00340 + 0x4 * i
def SB_HEALTH : Nat := 0xE00380
def SB_MT_CTL (i : Nat) : Nat := 0xE04000 + 0x40 * i
def SB_MT_RANGE (i : Nat) : Nat := 0xE04004 + 0x40 * i
def SB_MT_STATUS (i : Nat) : Nat := 0xE04008 + 0x40 * i
def SB_MT_RESULT (i : Nat) : Nat := 0xE0400C + 0x40 * i
def SB_MT_FAIL_ADDR (i : Nat) : Nat := 0xE04010 + 0x40 * i
def SB_EVT_CNT (i j : Nat) : Nat := 0xE04100 + 0x20 * i + 0x4 * j
def SB_REP_SEL : Nat := 0xE04200
def SB_REP_DATA : Nat := 0xE04204
def SB_COCOON_STATUS : Nat := 0xE04300
def SB_COCOON_WIPES : Nat := 0xE04304

/-! DC registers (R388 of file 11). -/

def DC_CTL (i : Nat) : Nat := 0x1000000 + 0x4000 * i
def DC_STATUS (i : Nat) : Nat := 0x1000004 + 0x4000 * i
def DC_TIM0 (i : Nat) : Nat := 0x1000010 + 0x4000 * i
def DC_TIM1 (i : Nat) : Nat := 0x1000014 + 0x4000 * i
def DC_TIM2 (i : Nat) : Nat := 0x1000018 + 0x4000 * i
def DC_SWZ (i j : Nat) : Nat := 0x1000020 + 0x4000 * i + 0x4 * j
def DC_TRN_SEED (i : Nat) : Nat := 0x1000034 + 0x4000 * i
def DC_TRN_PAT_LO (i : Nat) : Nat := 0x1000038 + 0x4000 * i
def DC_TRN_PAT_HI (i : Nat) : Nat := 0x100003C + 0x4000 * i
def DC_TRN_CMD (i : Nat) : Nat := 0x1000040 + 0x4000 * i
def DC_TRN_STATUS (i : Nat) : Nat := 0x1000048 + 0x4000 * i
def DC_VREF (i : Nat) : Nat := 0x100004C + 0x4000 * i
def DC_CE_CNT (i : Nat) : Nat := 0x1000050 + 0x4000 * i
def DC_UE_CNT (i : Nat) : Nat := 0x1000054 + 0x4000 * i
def DC_TRN_ERR (i j : Nat) : Nat := 0x1000080 + 0x4000 * i + 0x4 * j
def DC_DLY_WR (i j : Nat) : Nat := 0x1000100 + 0x4000 * i + 0x4 * j
def DC_DLY_RD (i j : Nat) : Nat := 0x1000180 + 0x4000 * i + 0x4 * j
def DC_DLY_CA (i j : Nat) : Nat := 0x1000200 + 0x4000 * i + 0x4 * j
def DC_CFG : Nat := 0x1040000
def DC_CAP_LO : Nat := 0x1040004
def DC_CAP_HI : Nat := 0x1040008
def DC_XOR_MASK (i : Nat) : Nat := 0x1040010 + 0x4 * i
def DC_AGE : Nat := 0x1040030
def DC_SCRUB : Nat := 0x1040034
def DC_PART_BASE (i : Nat) : Nat := 0x1040040 + 0x8 * i
def DC_PART_LIMIT (i : Nat) : Nat := 0x1040044 + 0x8 * i
def DC_WIN (i : Nat) : Nat := 0x1040060 + 0x4 * i
def DC_FILL_BASE (i : Nat) : Nat := 0x1040080 + 0x8 * i
def DC_FILL_CTL (i : Nat) : Nat := 0x1040084 + 0x8 * i
def DC_EVT_CNT (i : Nat) : Nat := 0x1040100 + 0x4 * i

/-! PG registers (R511 of file 15). -/

def PG_STATUS : Nat := 0x1400000
def PG_GEN : Nat := 0x1400004
def PG_BUDGET : Nat := 0x1400008
def PG_APPLY : Nat := 0x140000C
def PG_DRAW : Nat := 0x1400010
def PG_VCTL : Nat := 0x1400014
def PG_VCORE : Nat := 0x1400018
def PG_PMB : Nat := 0x140001C
def PG_FAULT : Nat := 0x1400020
def PG_TEMP (i : Nat) : Nat := 0x1400040 + 0x4 * i
def PG_CLASS (i : Nat) : Nat := 0x1400100 + 0x8 * i
def PG_CLASS_DRAW (i : Nat) : Nat := 0x1400104 + 0x8 * i
def PG_EVT_CNT (i : Nat) : Nat := 0x1400200 + 0x4 * i

/-! MON registers (R512 of file 15). -/

def MON_CTL (i j : Nat) : Nat := 0x1600000 + 0x4000 * i + 0x200 * j
def MON_SRC (i j : Nat) : Nat := 0x1600004 + 0x4000 * i + 0x200 * j
def MON_OFS (i j : Nat) : Nat := 0x1600008 + 0x4000 * i + 0x200 * j
def MON_ALARM (i j : Nat) : Nat := 0x160000C + 0x4000 * i + 0x200 * j
def MON_STATUS (i j : Nat) : Nat := 0x1600010 + 0x4000 * i + 0x200 * j
def MON_MIN (i j : Nat) : Nat := 0x1600014 + 0x4000 * i + 0x200 * j
def MON_MAX (i j : Nat) : Nat := 0x1600018 + 0x4000 * i + 0x200 * j
def MON_COUNT_LO (i j : Nat) : Nat := 0x160001C + 0x4000 * i + 0x200 * j
def MON_COUNT_HI (i j : Nat) : Nat := 0x1600020 + 0x4000 * i + 0x200 * j
def MON_UNDER (i j : Nat) : Nat := 0x1600024 + 0x4000 * i + 0x200 * j
def MON_OVER (i j : Nat) : Nat := 0x1600028 + 0x4000 * i + 0x200 * j
def MON_SNAP_TS_LO (i j : Nat) : Nat := 0x160002C + 0x4000 * i + 0x200 * j
def MON_SNAP_TS_HI (i j : Nat) : Nat := 0x1600030 + 0x4000 * i + 0x200 * j
def MON_EVT_CNT (i j k : Nat) : Nat := 0x1600034 + 0x4000 * i + 0x200 * j + 0x4 * k
def MON_BIN (i j k : Nat) : Nat := 0x1600100 + 0x4000 * i + 0x200 * j + 0x4 * k
def MON_SNAP : Nat := 0x1610000
def MON_SNAP_CLR : Nat := 0x1610004

/-! SC registers (R487 of file 14). -/

def SC_MB_CMD (i : Nat) : Nat := 0x1800000 + 0x40 * i
def SC_MB_STATUS (i : Nat) : Nat := 0x1800004 + 0x40 * i
def SC_MB_ARG (i j : Nat) : Nat := 0x1800008 + 0x40 * i + 0x4 * j
def SC_MB_RES_LO (i : Nat) : Nat := 0x1800018 + 0x40 * i
def SC_MB_RES_HI (i : Nat) : Nat := 0x180001C + 0x40 * i
def SC_FW_VER_LO : Nat := 0x1804000
def SC_FW_VER_HI : Nat := 0x1804004
def SC_LC : Nat := 0x1804008
def SC_AUTH : Nat := 0x180400C
def SC_LOG_HEAD : Nat := 0x1804010
def SC_EVT_CNT (i j : Nat) : Nat := 0x1804100 + 0x20 * i + 0x4 * j
def SC_LOG (i : Nat) : Nat := 0x1808000 + 0x4 * i

end Sys2Proof.R
end

