-- ==== Sys2Proof/Machine/RegTable.lean ====
section
/-! DEFINITION. The register tables of the spec as data: for every register its place, its owner, the gate of its EG
fields and its fields with their access types (R6) and reset entries (R442). One list per block of R454. -/

namespace Sys2Proof

/-- The access types of R6. PRV is a separate flag, since it is always combined with another type. -/
inductive Acc where
  | RW | RO | LV | EG | WO | W1
  deriving DecidableEq, Repr

/-- Where a field's reset value comes from (R442). `num v` is a number of the table; `dash` is a data port (a Reset
entry of "—"); `computed` is a value a rule states by formula. -/
inductive Rst where
  | num (v : Nat) | image | prov | fused | strap | dash | computed
  deriving DecidableEq, Repr

/-- Whose resource a register is (R434). `mixed` registers hold one bit for each unit and are tested bit by bit. -/
inductive Own where
  | dev | part | chan | grp | splitz | seq | pc | iq | ct | mm | iu | eng | queue | bank | sg | mon | mixed
  deriving DecidableEq, Repr

/-- The condition that counts as "its block is enabled" for the EG fields of a register (R6, R440). -/
inductive Gate where
  | none | chEn | grpIdle | xtGrp | seqIdle | pcEn | iqEn | ctEn | mmEn | iuEn | qOff | sgIdle | mtBusy | fillBusy
  | dcAll | dcQuad | dcEn | rampRun | monEn
  deriving DecidableEq, Repr

/-- One field of a register table. -/
structure FieldSpec where
  hi  : Nat
  lo  : Nat
  acc : Acc
  prv : Bool
  rst : Rst
  deriving DecidableEq, Repr

/-- One register, or one array of registers, of a register table. `dims` lists (stride, count), outermost first; the
unit that owns an element is its flattened index divided by `div`; `pub` is true where every master may read it. -/
structure RegRow where
  base   : Nat
  dims   : List (Nat × Nat)
  own    : Own
  div    : Nat
  pub    : Bool
  gate   : Gate
  fields : List FieldSpec
  deriving DecidableEq, Repr

namespace RegTable

def rowsGLB0 : List RegRow := [
  -- GLB_ID
  ⟨0x0, [], .dev, 1, true, .none, [⟨31, 16, .RO, false, .num 0x7128⟩, ⟨15, 8, .RO, false, .num 0x1⟩, ⟨7, 0, .RO, false, .num 0x1⟩]⟩,
  -- GLB_STATUS
  ⟨0x4, [], .dev, 1, true, .none, [⟨14, 14, .RO, false, .dash⟩, ⟨13, 12, .RO, false, .dash⟩, ⟨7, 4, .LV, false, .num 0x0⟩, ⟨2, 2, .LV, false, .num 0x0⟩, ⟨1, 1, .LV, false, .num 0x0⟩, ⟨0, 0, .LV, false, .num 0x0⟩]⟩,
  -- GLB_SCRATCH
  ⟨0x10, [(0x4, 4)], .part, 1, false, .none, [⟨31, 0, .RW, false, .num 0x0⟩]⟩,
  -- GLB_ONCE
  ⟨0x20, [(0x4, 4)], .part, 1, false, .none, [⟨31, 0, .W1, false, .num 0x0⟩]⟩,
  -- GLB_EVT_CNT
  ⟨0x100, [(0x20, 4), (0x4, 5)], .part, 5, false, .none, [⟨31, 0, .RO, false, .num 0x0⟩]⟩,
  -- GLB_CT_EVT_CNT
  ⟨0x200, [(0x20, 4), (0x4, 5)], .part, 5, false, .none, [⟨31, 0, .RO, false, .num 0x0⟩]⟩]

/-- The GLB registers (R455). -/
def rowsGLB : List RegRow := rowsGLB0

def rowsHP0 : List RegRow := [
  -- HP_STATUS
  ⟨0x10000, [(0x40, 4)], .part, 1, false, .none, [⟨27, 26, .LV, false, .num 0x0⟩, ⟨25, 25, .LV, false, .num 0x0⟩, ⟨24, 24, .LV, false, .num 0x0⟩, ⟨23, 23, .LV, false, .num 0x0⟩, ⟨22, 22, .LV, false, .num 0x0⟩, ⟨21, 21, .LV, false, .num 0x0⟩, ⟨20, 20, .LV, false, .num 0x0⟩, ⟨19, 19, .LV, false, .num 0x0⟩, ⟨18, 18, .LV, false, .num 0x0⟩, ⟨17, 17, .LV, false, .num 0x0⟩, ⟨16, 16, .RO, false, .strap⟩, ⟨7, 4, .LV, false, .num 0x0⟩, ⟨3, 0, .LV, false, .num 0x0⟩]⟩,
  -- HP_CTL
  ⟨0x10004, [(0x40, 4)], .part, 1, false, .none, [⟨6, 0, .RW, false, .num 0xA⟩]⟩,
  -- HP_LTR
  ⟨0x10008, [(0x40, 4)], .part, 1, false, .none, [⟨31, 16, .RW, false, .num 0xBB8⟩, ⟨15, 0, .RW, false, .num 0x14⟩]⟩,
  -- HP_FENCE
  ⟨0x1000C, [(0x40, 4)], .part, 1, false, .none, [⟨0, 0, .WO, false, .num 0x0⟩]⟩,
  -- HP_CTO_CNT
  ⟨0x10010, [(0x40, 4)], .part, 1, false, .none, [⟨31, 0, .RO, false, .num 0x0⟩]⟩,
  -- HP_UC_CNT
  ⟨0x10014, [(0x40, 4)], .part, 1, false, .none, [⟨31, 0, .RO, false, .num 0x0⟩]⟩,
  -- HP_FDROP_CNT
  ⟨0x10018, [(0x40, 4)], .part, 1, false, .none, [⟨31, 0, .RO, false, .num 0x0⟩]⟩,
  -- HP_EVT_CNT
  ⟨0x10100, [(0x40, 4), (0x4, 9)], .part, 9, false, .none, [⟨31, 0, .RO, false, .num 0x0⟩]⟩,
  -- HP_CFG
  ⟨0x10200, [], .dev, 1, true, .none, [⟨9, 8, .RO, false, .prov⟩, ⟨1, 0, .RO, false, .strap⟩]⟩,
  -- HP_IFVER
  ⟨0x10204, [], .dev, 1, true, .none, [⟨15, 8, .RO, false, .num 0x0⟩, ⟨7, 0, .RO, false, .num 0x0⟩]⟩,
  -- HP_DIGEST_SNAP
  ⟨0x10208, [], .dev, 1, true, .none, [⟨0, 0, .WO, false, .num 0x0⟩]⟩,
  -- HP_DIGEST_STATUS
  ⟨0x1020C, [], .dev, 1, true, .none, [⟨31, 16, .RO, false, .num 0x0⟩, ⟨0, 0, .LV, false, .num 0x0⟩]⟩]

def rowsHP1 : List RegRow := [
  -- HP_DIGEST_WIN
  ⟨0x14000, [(0x4, 1024)], .dev, 1, true, .none, [⟨31, 0, .RO, false, .num 0x0⟩]⟩]

/-- The HP registers (R429). -/
def rowsHP : List RegRow := rowsHP0 ++ rowsHP1

def rowsCFGI0 : List RegRow := [
  -- CFGI_CTL
  ⟨0x20000, [(0x40, 4)], .part, 1, false, .none, [⟨1, 1, .RW, false, .num 0x0⟩, ⟨0, 0, .RW, false, .num 0x1⟩]⟩,
  -- CFGI_COMMIT
  ⟨0x20004, [(0x40, 4)], .part, 1, false, .none, [⟨1, 1, .WO, false, .num 0x0⟩, ⟨0, 0, .WO, false, .num 0x0⟩]⟩,
  -- CFGI_REF
  ⟨0x20008, [(0x40, 4)], .part, 1, false, .none, [⟨31, 0, .RW, false, .num 0x0⟩]⟩,
  -- CFGI_STATUS
  ⟨0x2000C, [(0x40, 4)], .part, 1, false, .none, [⟨2, 2, .LV, false, .num 0x0⟩, ⟨1, 0, .LV, false, .num 0x0⟩]⟩,
  -- CFGI_LAST
  ⟨0x20010, [(0x40, 4)], .part, 1, false, .none, [⟨31, 0, .RO, false, .num 0x0⟩]⟩,
  -- CFGI_TRACK
  ⟨0x20014, [(0x40, 4)], .part, 1, false, .none, [⟨31, 0, .RO, false, .num 0x0⟩]⟩,
  -- CFGI_BLK
  ⟨0x20018, [(0x40, 4)], .part, 1, false, .none, [⟨13, 0, .LV, false, .num 0x0⟩]⟩,
  -- CFGI_PASS_CNT
  ⟨0x2001C, [(0x40, 4)], .part, 1, false, .none, [⟨31, 0, .RO, false, .num 0x0⟩]⟩,
  -- CFGI_MIS_CNT
  ⟨0x20020, [(0x40, 4)], .part, 1, false, .none, [⟨31, 0, .RO, false, .num 0x0⟩]⟩,
  -- CFGI_EVT_CNT
  ⟨0x20024, [(0x40, 4), (0x4, 2)], .part, 2, false, .none, [⟨31, 0, .RO, false, .num 0x0⟩]⟩]

/-- The CFGI registers (R455). -/
def rowsCFGI : List RegRow := rowsCFGI0

def rowsTB0 : List RegRow := [
  -- TB_STATUS
  ⟨0x40000, [], .dev, 1, true, .none, [⟨13, 13, .RO, false, .num 0x0⟩, ⟨12, 12, .LV, false, .num 0x0⟩, ⟨11, 11, .LV, false, .num 0x0⟩, ⟨10, 7, .LV, false, .num 0x0⟩, ⟨6, 6, .LV, false, .num 0x0⟩, ⟨5, 5, .LV, false, .num 0x0⟩, ⟨4, 4, .LV, false, .num 0x0⟩, ⟨3, 3, .LV, false, .num 0x0⟩, ⟨2, 2, .RO, false, .num 0x0⟩, ⟨1, 0, .RO, false, .strap⟩]⟩,
  -- TB_PLL_GEN
  ⟨0x40004, [], .dev, 1, true, .none, [⟨15, 0, .RO, false, .num 0x0⟩]⟩,
  -- TB_SG_GEN
  ⟨0x40008, [], .dev, 1, true, .none, [⟨15, 0, .RO, false, .num 0x0⟩]⟩,
  -- TB_SYNC_GEN
  ⟨0x4000C, [], .dev, 1, true, .none, [⟨15, 0, .RO, false, .num 0x0⟩]⟩,
  -- TB_COUNT_LO
  ⟨0x40010, [], .dev, 1, true, .none, [⟨31, 0, .RO, false, .num 0x0⟩]⟩,
  -- TB_COUNT_HI
  ⟨0x40014, [], .dev, 1, true, .none, [⟨31, 0, .RO, false, .num 0x0⟩]⟩,
  -- TB_REF_CTL
  ⟨0x40020, [], .dev, 1, false, .none, [⟨2, 2, .RW, true, .num 0x1⟩, ⟨1, 0, .RW, true, .strap⟩]⟩,
  -- TB_LOCK_CTL
  ⟨0x40024, [], .dev, 1, false, .none, [⟨23, 8, .RW, true, .num 0x400⟩, ⟨7, 0, .RW, true, .num 0x32⟩]⟩,
  -- TB_DITHER_SEED
  ⟨0x40028, [], .dev, 1, false, .none, [⟨31, 0, .RW, true, .num 0x13579BDF⟩]⟩,
  -- TB_APPLY
  ⟨0x4002C, [], .dev, 1, false, .none, [⟨15, 0, .WO, true, .num 0x0⟩]⟩,
  -- TB_LAST_JUMP
  ⟨0x40030, [], .dev, 1, true, .none, [⟨31, 0, .RO, false, .num 0x0⟩]⟩,
  -- TB_SYNC_CTL
  ⟨0x40100, [], .dev, 1, false, .none, [⟨7, 4, .RW, true, .num 0x0⟩, ⟨2, 1, .RW, true, .num 0x0⟩, ⟨0, 0, .RW, true, .num 0x0⟩]⟩]

def rowsTB1 : List RegRow := [
  -- TB_SYNC_FIRE
  ⟨0x40104, [], .dev, 1, false, .none, [⟨15, 0, .WO, true, .num 0x0⟩]⟩,
  -- TB_SYNC_TS_LO
  ⟨0x40108, [], .dev, 1, true, .none, [⟨31, 0, .RO, false, .num 0x0⟩]⟩,
  -- TB_SYNC_TS_HI
  ⟨0x4010C, [], .dev, 1, true, .none, [⟨31, 0, .RO, false, .num 0x0⟩]⟩,
  -- TB_REF_OUT_CTL
  ⟨0x40120, [], .dev, 1, false, .none, [⟨9, 8, .RW, true, .num 0x0⟩, ⟨7, 0, .RW, true, .num 0x9⟩]⟩,
  -- TB_EVT_CNT
  ⟨0x40200, [(0x4, 13)], .dev, 1, true, .none, [⟨31, 0, .RO, false, .num 0x0⟩]⟩,
  -- TB_SG_FCW
  ⟨0x44000, [], .dev, 1, false, .none, [⟨31, 0, .RW, true, .num 0x40000000⟩]⟩,
  -- TB_SG_CTL
  ⟨0x44004, [], .dev, 1, false, .none, [⟨17, 16, .RW, true, .num 0x0⟩, ⟨15, 0, .RW, true, .num 0x0⟩]⟩,
  -- TB_SG_APPLY
  ⟨0x44008, [], .dev, 1, false, .none, [⟨15, 0, .WO, true, .num 0x0⟩]⟩,
  -- TB_DPLL_CTL
  ⟨0x44010, [(0x4, 4)], .dev, 1, false, .dcQuad, [⟨1, 0, .EG, true, .num 0x0⟩]⟩,
  -- TB_RAMP_CTL
  ⟨0x44020, [], .dev, 1, false, .rampRun, [⟨9, 9, .EG, true, .num 0x0⟩, ⟨8, 8, .EG, true, .num 0x0⟩, ⟨6, 0, .EG, true, .num 0x1⟩]⟩,
  -- TB_RAMP_GO
  ⟨0x44024, [], .dev, 1, false, .none, [⟨31, 16, .WO, true, .num 0x0⟩, ⟨1, 1, .WO, true, .num 0x0⟩, ⟨0, 0, .WO, true, .num 0x0⟩]⟩,
  -- TB_RAMP_STATUS
  ⟨0x44028, [], .dev, 1, true, .none, [⟨13, 8, .RO, false, .num 0x0⟩, ⟨0, 0, .LV, false, .num 0x0⟩]⟩]

def rowsTB2 : List RegRow := [
  -- TB_RAMP_DELTA
  ⟨0x44100, [(0x8, 64)], .dev, 1, false, .rampRun, [⟨31, 0, .EG, true, .num 0x0⟩]⟩,
  -- TB_RAMP_DUR
  ⟨0x44104, [(0x8, 64)], .dev, 1, false, .rampRun, [⟨15, 0, .EG, true, .num 0x0⟩]⟩,
  -- TB_PTM_CTL
  ⟨0x48000, [(0x20, 4)], .part, 1, false, .none, [⟨15, 8, .RW, false, .num 0xA⟩, ⟨0, 0, .RW, false, .num 0x0⟩]⟩,
  -- TB_PTM_SEQ
  ⟨0x48004, [(0x20, 4)], .part, 1, false, .none, [⟨31, 0, .RO, false, .num 0x0⟩]⟩,
  -- TB_PTM_DEV_LO
  ⟨0x48008, [(0x20, 4)], .part, 1, false, .none, [⟨31, 0, .RO, false, .num 0x0⟩]⟩,
  -- TB_PTM_DEV_HI
  ⟨0x4800C, [(0x20, 4)], .part, 1, false, .none, [⟨31, 0, .RO, false, .num 0x0⟩]⟩,
  -- TB_PTM_HOST_LO
  ⟨0x48010, [(0x20, 4)], .part, 1, false, .none, [⟨31, 0, .RO, false, .num 0x0⟩]⟩,
  -- TB_PTM_HOST_HI
  ⟨0x48014, [(0x20, 4)], .part, 1, false, .none, [⟨31, 0, .RO, false, .num 0x0⟩]⟩]

/-- The TB registers (R81). -/
def rowsTB : List RegRow := rowsTB0 ++ rowsTB1 ++ rowsTB2

def rowsCH0 : List RegRow := [
  -- CH_CTL
  ⟨0x80000, [(0x4, 128)], .chan, 1, false, .chEn, [⟨15, 8, .EG, false, .num 0x0⟩, ⟨7, 4, .EG, false, .num 0x0⟩, ⟨3, 3, .EG, false, .num 0x0⟩, ⟨2, 2, .EG, false, .num 0x0⟩, ⟨1, 1, .EG, false, .num 0x0⟩, ⟨0, 0, .RW, false, .num 0x0⟩]⟩,
  -- CH_THR
  ⟨0x80200, [(0x4, 128)], .chan, 1, false, .chEn, [⟨11, 0, .EG, false, .num 0x2AA⟩]⟩,
  -- CH_DESKEW
  ⟨0x80400, [(0x4, 128)], .chan, 1, false, .chEn, [⟨16, 0, .EG, false, .num 0x0⟩]⟩,
  -- CH_STATUS
  ⟨0x80600, [(0x4, 128)], .chan, 1, false, .none, [⟨2, 2, .LV, false, .num 0x0⟩, ⟨1, 1, .LV, false, .num 0x0⟩, ⟨0, 0, .RO, false, .num 0x0⟩]⟩,
  -- CH_EDGE_CNT
  ⟨0x80800, [(0x4, 128)], .chan, 1, false, .none, [⟨31, 0, .RO, false, .num 0x0⟩]⟩,
  -- CH_COLLAPSE_CNT
  ⟨0x80A00, [(0x4, 128)], .chan, 1, false, .none, [⟨31, 0, .RO, false, .num 0x0⟩]⟩,
  -- CH_ZERO
  ⟨0x80C00, [(0x4, 128)], .chan, 1, false, .none, [⟨15, 0, .RO, false, .fused⟩]⟩,
  -- CH_AT_CFG
  ⟨0x84000, [(0x4, 16)], .grp, 1, false, .none, [⟨19, 16, .RW, false, .num 0x0⟩, ⟨15, 8, .RW, false, .num 0xA⟩, ⟨5, 0, .RW, false, .num 0x10⟩]⟩,
  -- CH_AT_GO
  ⟨0x84040, [(0x4, 4)], .mixed, 1, false, .none, [⟨31, 0, .WO, false, .num 0x0⟩]⟩,
  -- CH_CNT_CLR
  ⟨0x84050, [(0x4, 4)], .mixed, 1, false, .none, [⟨31, 0, .WO, false, .num 0x0⟩]⟩,
  -- CH_AT_RESULT
  ⟨0x84200, [(0x4, 128)], .chan, 1, false, .none, [⟨26, 24, .RO, false, .num 0x0⟩, ⟨23, 12, .RO, false, .num 0x0⟩, ⟨11, 0, .RO, false, .num 0x0⟩]⟩]

/-- The CH registers (R41). -/
def rowsCH : List RegRow := rowsCH0

def rowsGRP0 : List RegRow := [
  -- CH_GRP_CTL
  ⟨0x88000, [(0x80, 16)], .grp, 1, false, .grpIdle, [⟨15, 12, .EG, false, .num 0x0⟩, ⟨7, 7, .EG, false, .num 0x0⟩, ⟨6, 6, .EG, false, .num 0x0⟩, ⟨5, 5, .EG, false, .num 0x0⟩, ⟨4, 4, .EG, false, .num 0x0⟩, ⟨2, 0, .EG, false, .num 0x0⟩]⟩,
  -- CH_GRP_STATUS
  ⟨0x88004, [(0x80, 16)], .grp, 1, false, .none, [⟨15, 8, .LV, false, .num 0x0⟩, ⟨7, 7, .LV, false, .num 0x0⟩, ⟨2, 0, .LV, false, .num 0x0⟩]⟩,
  -- CH_GRP_TIMING
  ⟨0x88008, [(0x80, 16)], .grp, 1, false, .grpIdle, [⟨23, 0, .EG, false, .num 0x1⟩]⟩,
  -- CH_GRP_STATE
  ⟨0x8800C, [(0x80, 16)], .grp, 1, false, .grpIdle, [⟨25, 24, .EG, false, .num 0x1⟩, ⟨22, 16, .EG, false, .num 0x0⟩, ⟨15, 0, .EG, false, .num 0x0⟩]⟩,
  -- CH_GRP_MARGIN
  ⟨0x88010, [(0x80, 16)], .grp, 1, false, .grpIdle, [⟨8, 8, .EG, false, .num 0x0⟩, ⟨4, 0, .EG, false, .num 0xA⟩]⟩,
  -- CH_GRP_STG
  ⟨0x88014, [(0x80, 16)], .grp, 1, false, .none, [⟨23, 16, .RW, false, .num 0xC0⟩, ⟨7, 0, .RW, false, .num 0x80⟩]⟩,
  -- CH_GRP_START_LO
  ⟨0x88018, [(0x80, 16)], .grp, 1, false, .none, [⟨31, 0, .RO, false, .num 0x0⟩]⟩,
  -- CH_GRP_START_HI
  ⟨0x8801C, [(0x80, 16)], .grp, 1, false, .none, [⟨31, 0, .RO, false, .num 0x0⟩]⟩,
  -- CH_GRP_STOP_LO
  ⟨0x88020, [(0x80, 16)], .grp, 1, false, .none, [⟨31, 0, .RO, false, .num 0x0⟩]⟩,
  -- CH_GRP_STOP_HI
  ⟨0x88024, [(0x80, 16)], .grp, 1, false, .none, [⟨31, 0, .RO, false, .num 0x0⟩]⟩,
  -- CH_GRP_RGN_BASE_LO
  ⟨0x88028, [(0x80, 16)], .grp, 1, false, .grpIdle, [⟨31, 0, .EG, false, .num 0x0⟩]⟩,
  -- CH_GRP_RGN_BASE_HI
  ⟨0x8802C, [(0x80, 16)], .grp, 1, false, .grpIdle, [⟨31, 0, .EG, false, .num 0x0⟩]⟩]

def rowsGRP1 : List RegRow := [
  -- CH_GRP_RGN_CTL
  ⟨0x88030, [(0x80, 16)], .grp, 1, false, .grpIdle, [⟨31, 31, .EG, false, .num 0x0⟩, ⟨30, 0, .EG, false, .num 0x0⟩]⟩,
  -- CH_GRP_BLK_CNT
  ⟨0x88034, [(0x80, 16)], .grp, 1, false, .none, [⟨31, 0, .RO, false, .num 0x0⟩]⟩,
  -- CH_GRP_OVF_CNT
  ⟨0x88038, [(0x80, 16)], .grp, 1, false, .none, [⟨31, 0, .RO, false, .num 0x0⟩]⟩,
  -- CH_GRP_CMP
  ⟨0x8803C, [(0x80, 16)], .grp, 1, false, .grpIdle, [⟨15, 8, .EG, false, .num 0xFF⟩, ⟨6, 4, .EG, false, .num 0x0⟩, ⟨0, 0, .EG, false, .num 0x0⟩]⟩,
  -- CH_GRP_CMP_DLY
  ⟨0x88040, [(0x80, 16)], .grp, 1, false, .grpIdle, [⟨31, 0, .EG, false, .num 0x0⟩]⟩,
  -- CH_GRP_CMP_WIN
  ⟨0x88044, [(0x80, 16)], .grp, 1, false, .grpIdle, [⟨15, 0, .EG, false, .num 0x400⟩]⟩,
  -- CH_GRP_FMAP_BASE_LO
  ⟨0x88048, [(0x80, 16)], .grp, 1, false, .grpIdle, [⟨31, 0, .EG, false, .num 0x0⟩]⟩,
  -- CH_GRP_FMAP_BASE_HI
  ⟨0x8804C, [(0x80, 16)], .grp, 1, false, .grpIdle, [⟨31, 0, .EG, false, .num 0x0⟩]⟩,
  -- CH_GRP_FMAP_SIZE
  ⟨0x88050, [(0x80, 16)], .grp, 1, false, .grpIdle, [⟨31, 0, .EG, false, .num 0x0⟩]⟩,
  -- CH_GRP_CMP_ITEM_CNT
  ⟨0x88054, [(0x80, 16)], .grp, 1, false, .none, [⟨31, 0, .RO, false, .num 0x0⟩]⟩,
  -- CH_GRP_CMP_FAIL_CNT
  ⟨0x88058, [(0x80, 16)], .grp, 1, false, .none, [⟨31, 0, .RO, false, .num 0x0⟩]⟩,
  -- CH_GRP_EVT_CNT
  ⟨0x88060, [(0x80, 16), (0x4, 8)], .grp, 8, false, .none, [⟨31, 0, .RO, false, .num 0x0⟩]⟩]

def rowsGRP2 : List RegRow := [
  -- CH_GRP_GO
  ⟨0x88800, [], .mixed, 1, false, .none, [⟨15, 0, .WO, false, .num 0x0⟩]⟩,
  -- CH_GRP_HALT
  ⟨0x88804, [], .mixed, 1, false, .none, [⟨15, 0, .WO, false, .num 0x0⟩]⟩,
  -- CH_SPLIT_ZERO
  ⟨0x88A00, [(0x4, 64)], .splitz, 1, false, .none, [⟨15, 0, .RO, false, .fused⟩]⟩]

/-- The GRP registers (R114). -/
def rowsGRP : List RegRow := rowsGRP0 ++ rowsGRP1 ++ rowsGRP2

def rowsCAP0 : List RegRow := [
  -- CH_GRP_PACK
  ⟨0x8C000, [(0x20, 16)], .grp, 1, false, .grpIdle, [⟨15, 0, .EG, false, .num 0x3E8⟩]⟩,
  -- CH_GRP_SEAL
  ⟨0x8C004, [(0x20, 16)], .grp, 1, false, .grpIdle, [⟨31, 31, .EG, false, .num 0x0⟩, ⟨15, 0, .EG, false, .num 0x1000⟩]⟩,
  -- CH_GRP_WPTR_LO
  ⟨0x8C008, [(0x20, 16)], .grp, 1, false, .none, [⟨31, 0, .RO, false, .num 0x0⟩]⟩,
  -- CH_GRP_WPTR_HI
  ⟨0x8C00C, [(0x20, 16)], .grp, 1, false, .none, [⟨31, 0, .RO, false, .num 0x0⟩]⟩,
  -- CH_CAP_EVT_CNT
  ⟨0x8C010, [(0x20, 16), (0x4, 3)], .grp, 3, false, .none, [⟨31, 0, .RO, false, .num 0x0⟩]⟩,
  -- CH_SEAL_STATUS
  ⟨0x8C200, [], .dev, 1, true, .none, [⟨1, 1, .LV, false, .num 0x0⟩, ⟨0, 0, .LV, false, .num 0x0⟩]⟩,
  -- CH_SEAL_KEY_ID_LO
  ⟨0x8C204, [], .dev, 1, true, .none, [⟨31, 0, .RO, false, .num 0x0⟩]⟩,
  -- CH_SEAL_KEY_ID_HI
  ⟨0x8C208, [], .dev, 1, true, .none, [⟨31, 0, .RO, false, .num 0x0⟩]⟩]

/-- The CAP registers (R187). -/
def rowsCAP : List RegRow := rowsCAP0

def rowsIU0 : List RegRow := [
  -- IU_HIST_BIN
  ⟨0x90000, [(0x4000, 16), (0x4, 1024)], .iu, 1024, false, .none, [⟨31, 0, .RO, false, .num 0x0⟩]⟩,
  -- IU_CTL
  ⟨0xD0000, [(0x80, 16)], .iu, 1, false, .iuEn, [⟨29, 23, .EG, false, .num 0x0⟩, ⟨22, 16, .EG, false, .num 0x0⟩, ⟨13, 12, .EG, false, .num 0x0⟩, ⟨11, 10, .EG, false, .num 0x0⟩, ⟨9, 9, .EG, false, .num 0x0⟩, ⟨8, 8, .EG, false, .num 0x0⟩, ⟨4, 4, .EG, false, .num 0x0⟩, ⟨1, 1, .EG, false, .num 0x0⟩, ⟨0, 0, .RW, false, .num 0x0⟩]⟩,
  -- IU_WLO
  ⟨0xD0004, [(0x80, 16)], .iu, 1, false, .iuEn, [⟨31, 0, .EG, false, .num 0x0⟩]⟩,
  -- IU_WHI
  ⟨0xD0008, [(0x80, 16)], .iu, 1, false, .iuEn, [⟨31, 0, .EG, false, .num 0x0⟩]⟩,
  -- IU_GATE_N
  ⟨0xD000C, [(0x80, 16)], .iu, 1, false, .iuEn, [⟨31, 0, .EG, false, .num 0x1⟩]⟩,
  -- IU_HIST
  ⟨0xD0010, [(0x80, 16)], .iu, 1, false, .iuEn, [⟨5, 0, .EG, false, .num 0x0⟩]⟩,
  -- IU_HIST_OFS_LO
  ⟨0xD0014, [(0x80, 16)], .iu, 1, false, .iuEn, [⟨31, 0, .EG, false, .num 0x0⟩]⟩,
  -- IU_HIST_OFS_HI
  ⟨0xD0018, [(0x80, 16)], .iu, 1, false, .iuEn, [⟨31, 0, .EG, false, .num 0x0⟩]⟩,
  -- IU_QUEUE
  ⟨0xD001C, [(0x80, 16)], .iu, 1, false, .iuEn, [⟨13, 0, .EG, false, .num 0x0⟩]⟩,
  -- IU_STATUS
  ⟨0xD0020, [(0x80, 16)], .iu, 1, false, .none, [⟨28, 16, .RO, false, .num 0x0⟩, ⟨3, 3, .LV, false, .num 0x0⟩, ⟨2, 2, .LV, false, .num 0x0⟩, ⟨1, 1, .LV, false, .num 0x0⟩, ⟨0, 0, .LV, false, .num 0x0⟩]⟩,
  -- IU_ACC_COUNT_LO
  ⟨0xD0024, [(0x80, 16)], .iu, 1, false, .none, [⟨31, 0, .RO, false, .num 0x0⟩]⟩,
  -- IU_ACC_COUNT_HI
  ⟨0xD0028, [(0x80, 16)], .iu, 1, false, .none, [⟨31, 0, .RO, false, .num 0x0⟩]⟩]

def rowsIU1 : List RegRow := [
  -- IU_ACC_SUM
  ⟨0xD002C, [(0x80, 16), (0x4, 3)], .iu, 3, false, .none, [⟨31, 0, .RO, false, .num 0x0⟩]⟩,
  -- IU_ACC_SQ
  ⟨0xD0038, [(0x80, 16), (0x4, 4)], .iu, 4, false, .none, [⟨31, 0, .RO, false, .num 0x0⟩]⟩,
  -- IU_ACC_MIN_LO
  ⟨0xD0048, [(0x80, 16)], .iu, 1, false, .none, [⟨31, 0, .RO, false, .num 0xFFFFFFFF⟩]⟩,
  -- IU_ACC_MIN_HI
  ⟨0xD004C, [(0x80, 16)], .iu, 1, false, .none, [⟨31, 0, .RO, false, .num 0x7FFFFFFF⟩]⟩,
  -- IU_ACC_MAX_LO
  ⟨0xD0050, [(0x80, 16)], .iu, 1, false, .none, [⟨31, 0, .RO, false, .num 0x0⟩]⟩,
  -- IU_ACC_MAX_HI
  ⟨0xD0054, [(0x80, 16)], .iu, 1, false, .none, [⟨31, 0, .RO, false, .num 0x80000000⟩]⟩,
  -- IU_SNAP_TS_LO
  ⟨0xD0058, [(0x80, 16)], .iu, 1, false, .none, [⟨31, 0, .RO, false, .num 0x0⟩]⟩,
  -- IU_SNAP_TS_HI
  ⟨0xD005C, [(0x80, 16)], .iu, 1, false, .none, [⟨31, 0, .RO, false, .num 0x0⟩]⟩,
  -- IU_UNDER_CNT
  ⟨0xD0060, [(0x80, 16)], .iu, 1, false, .none, [⟨31, 0, .RO, false, .num 0x0⟩]⟩,
  -- IU_OVER_CNT
  ⟨0xD0064, [(0x80, 16)], .iu, 1, false, .none, [⟨31, 0, .RO, false, .num 0x0⟩]⟩,
  -- IU_REJ_CNT
  ⟨0xD0068, [(0x80, 16)], .iu, 1, false, .none, [⟨31, 0, .RO, false, .num 0x0⟩]⟩,
  -- IU_MISS_CNT
  ⟨0xD006C, [(0x80, 16)], .iu, 1, false, .none, [⟨31, 0, .RO, false, .num 0x0⟩]⟩]

def rowsIU2 : List RegRow := [
  -- IU_START_DROP_CNT
  ⟨0xD0070, [(0x80, 16)], .iu, 1, false, .none, [⟨31, 0, .RO, false, .num 0x0⟩]⟩,
  -- IU_EXCL_CNT
  ⟨0xD0074, [(0x80, 16)], .iu, 1, false, .none, [⟨31, 0, .RO, false, .num 0x0⟩]⟩,
  -- IU_COLL_CNT
  ⟨0xD0078, [(0x80, 16)], .iu, 1, false, .none, [⟨31, 0, .RO, false, .num 0x0⟩]⟩,
  -- IU_REC_DROP_CNT
  ⟨0xD007C, [(0x80, 16)], .iu, 1, false, .none, [⟨31, 0, .RO, false, .num 0x0⟩]⟩,
  -- IU_EVT_CNT
  ⟨0xD0800, [(0x20, 16), (0x4, 5)], .iu, 5, false, .none, [⟨31, 0, .RO, false, .num 0x0⟩]⟩,
  -- IU_SNAP
  ⟨0xD0C00, [], .mixed, 1, false, .none, [⟨15, 0, .WO, false, .num 0x0⟩]⟩,
  -- IU_SNAP_CLR
  ⟨0xD0C04, [], .mixed, 1, false, .none, [⟨15, 0, .WO, false, .num 0x0⟩]⟩]

/-- The IU registers (R213). -/
def rowsIU : List RegRow := rowsIU0 ++ rowsIU1 ++ rowsIU2

def rowsTDC0 : List RegRow := [
  -- TDC_TABLE
  ⟨0x100000, [(0x4000, 16), (0x200, 8), (0x4, 128)], .chan, 128, false, .none, [⟨31, 16, .RO, false, .computed⟩, ⟨15, 0, .RO, false, .computed⟩]⟩,
  -- TDC_CAL_CTL
  ⟨0x140000, [(0x4, 16)], .grp, 1, false, .none, [⟨0, 0, .RW, false, .num 0x1⟩]⟩,
  -- TDC_CAL_GO
  ⟨0x140040, [], .mixed, 1, false, .none, [⟨15, 0, .WO, false, .num 0x0⟩]⟩,
  -- TDC_CNT_CLR
  ⟨0x140044, [], .mixed, 1, false, .none, [⟨15, 0, .WO, false, .num 0x0⟩]⟩,
  -- TDC_STATUS
  ⟨0x140080, [(0x4, 16)], .grp, 1, false, .none, [⟨4, 4, .LV, false, .num 0x0⟩, ⟨3, 3, .LV, false, .num 0x0⟩, ⟨2, 2, .LV, false, .num 0x1⟩, ⟨1, 1, .LV, false, .num 0x0⟩, ⟨0, 0, .LV, false, .num 0x0⟩]⟩,
  -- TDC_CAL_TEMP
  ⟨0x1400C0, [(0x4, 16)], .grp, 1, false, .none, [⟨31, 16, .RO, false, .num 0x0⟩, ⟨15, 0, .RO, false, .num 0x0⟩]⟩,
  -- TDC_LLM_RATIO
  ⟨0x140200, [(0x4, 128)], .chan, 1, false, .none, [⟨31, 0, .RO, false, .num 0x10000⟩]⟩,
  -- TDC_B254
  ⟨0x140400, [(0x4, 128)], .chan, 1, false, .none, [⟨15, 0, .RO, false, .num 0xFF00⟩]⟩,
  -- TDC_RES_CNT
  ⟨0x140600, [(0x4, 128)], .chan, 1, false, .none, [⟨31, 0, .RO, false, .num 0x0⟩]⟩,
  -- TDC_ECC_CNT
  ⟨0x140800, [(0x4, 128)], .chan, 1, false, .none, [⟨31, 0, .RO, false, .num 0x0⟩]⟩]

/-- The TDC registers (R42). -/
def rowsTDC : List RegRow := rowsTDC0

def rowsTRG0 : List RegRow := [
  -- TRG_SEQ_CTL
  ⟨0x200000, [(0x80, 8)], .seq, 1, false, .seqIdle, [⟨31, 20, .EG, false, .num 0x0⟩, ⟨19, 16, .EG, false, .num 0x0⟩, ⟨2, 2, .EG, false, .num 0x0⟩, ⟨1, 1, .EG, false, .num 0x1⟩, ⟨0, 0, .EG, false, .num 0x0⟩]⟩,
  -- TRG_SEQ_STATUS
  ⟨0x200004, [(0x80, 8)], .seq, 1, false, .none, [⟨7, 4, .LV, false, .num 0x0⟩, ⟨3, 3, .LV, false, .num 0x1⟩, ⟨2, 0, .LV, false, .num 0x0⟩]⟩,
  -- TRG_SEQ_GRP
  ⟨0x200008, [(0x80, 8)], .seq, 1, false, .seqIdle, [⟨15, 0, .EG, false, .num 0x0⟩]⟩,
  -- TRG_SEQ_PRE_LO
  ⟨0x20000C, [(0x80, 8)], .seq, 1, false, .seqIdle, [⟨31, 0, .EG, false, .num 0x0⟩]⟩,
  -- TRG_SEQ_PRE_HI
  ⟨0x200010, [(0x80, 8)], .seq, 1, false, .seqIdle, [⟨15, 0, .EG, false, .num 0x0⟩]⟩,
  -- TRG_SEQ_POST_LO
  ⟨0x200014, [(0x80, 8)], .seq, 1, false, .seqIdle, [⟨31, 0, .EG, false, .num 0x0⟩]⟩,
  -- TRG_SEQ_POST_HI
  ⟨0x200018, [(0x80, 8)], .seq, 1, false, .seqIdle, [⟨15, 0, .EG, false, .num 0x0⟩]⟩,
  -- TRG_SEQ_ARM_LO
  ⟨0x20001C, [(0x80, 8)], .seq, 1, false, .none, [⟨31, 0, .RO, false, .num 0x0⟩]⟩,
  -- TRG_SEQ_ARM_HI
  ⟨0x200020, [(0x80, 8)], .seq, 1, false, .none, [⟨31, 0, .RO, false, .num 0x0⟩]⟩,
  -- TRG_SEQ_TRIG_LO
  ⟨0x200024, [(0x80, 8)], .seq, 1, false, .none, [⟨31, 0, .RO, false, .num 0x0⟩]⟩,
  -- TRG_SEQ_TRIG_HI
  ⟨0x200028, [(0x80, 8)], .seq, 1, false, .none, [⟨31, 0, .RO, false, .num 0x0⟩]⟩,
  -- TRG_SEQ_TRIG_INFO
  ⟨0x20002C, [(0x80, 8)], .seq, 1, false, .none, [⟨9, 9, .RO, false, .num 0x0⟩, ⟨8, 8, .RO, false, .num 0x0⟩, ⟨5, 4, .RO, false, .num 0x0⟩, ⟨3, 0, .RO, false, .num 0x0⟩]⟩]

def rowsTRG1 : List RegRow := [
  -- TRG_SEQ_EXTRA_CNT
  ⟨0x200030, [(0x80, 8)], .seq, 1, false, .none, [⟨31, 0, .RO, false, .num 0x0⟩]⟩,
  -- TRG_SEQ_LATE_CNT
  ⟨0x200034, [(0x80, 8)], .seq, 1, false, .none, [⟨31, 0, .RO, false, .num 0x0⟩]⟩,
  -- TRG_SEQ_EVT_CNT
  ⟨0x200040, [(0x80, 8), (0x4, 6)], .seq, 6, false, .none, [⟨31, 0, .RO, false, .num 0x0⟩]⟩,
  -- TRG_ARM
  ⟨0x200400, [], .mixed, 1, false, .none, [⟨7, 0, .WO, false, .num 0x0⟩]⟩,
  -- TRG_HALT
  ⟨0x200404, [], .mixed, 1, false, .none, [⟨7, 0, .WO, false, .num 0x0⟩]⟩,
  -- TRG_STG_CTL
  ⟨0x204000, [(0x200, 8), (0x20, 16)], .seq, 16, false, .seqIdle, [⟨13, 8, .EG, false, .num 0x0⟩, ⟨1, 0, .EG, false, .num 0x0⟩]⟩,
  -- TRG_COND
  ⟨0x204004, [(0x200, 8), (0x20, 16), (0x4, 4)], .seq, 64, false, .seqIdle, [⟨31, 24, .EG, false, .num 0xFF⟩, ⟨23, 23, .EG, false, .num 0x0⟩, ⟨22, 22, .EG, false, .num 0x0⟩, ⟨21, 16, .EG, false, .num 0x0⟩, ⟨11, 8, .EG, false, .num 0x0⟩, ⟨2, 2, .EG, false, .num 0x0⟩, ⟨1, 1, .EG, false, .num 0x0⟩, ⟨0, 0, .EG, false, .num 0x0⟩]⟩,
  -- TRG_PC_CTL
  ⟨0x208000, [(0x40, 64)], .pc, 1, false, .pcEn, [⟨14, 8, .EG, false, .num 0x0⟩, ⟨5, 4, .EG, false, .num 0x1⟩, ⟨2, 1, .EG, false, .num 0x0⟩, ⟨0, 0, .RW, false, .num 0x0⟩]⟩,
  -- TRG_PC_DUR
  ⟨0x208004, [(0x40, 64)], .pc, 1, false, .pcEn, [⟨23, 0, .EG, false, .num 0x0⟩]⟩,
  -- TRG_PC_MASK
  ⟨0x208010, [(0x40, 64), (0x4, 4)], .pc, 4, false, .pcEn, [⟨31, 0, .EG, false, .num 0x0⟩]⟩,
  -- TRG_PC_VALUE
  ⟨0x208020, [(0x40, 64), (0x4, 4)], .pc, 4, false, .pcEn, [⟨31, 0, .EG, false, .num 0x0⟩]⟩,
  -- TRG_PC_HIT_CNT
  ⟨0x208030, [(0x40, 64)], .pc, 1, false, .none, [⟨31, 0, .RO, false, .num 0x0⟩]⟩]

def rowsTRG2 : List RegRow := [
  -- TRG_IQ_CTL
  ⟨0x214000, [(0x20, 32)], .iq, 1, false, .iqEn, [⟨30, 24, .EG, false, .num 0x0⟩, ⟨22, 16, .EG, false, .num 0x0⟩, ⟨11, 10, .EG, false, .num 0x0⟩, ⟨9, 8, .EG, false, .num 0x0⟩, ⟨2, 1, .EG, false, .num 0x0⟩, ⟨0, 0, .RW, false, .num 0x0⟩]⟩,
  -- TRG_IQ_MIN
  ⟨0x214004, [(0x20, 32)], .iq, 1, false, .iqEn, [⟨31, 0, .EG, false, .num 0x0⟩]⟩,
  -- TRG_IQ_MAX
  ⟨0x214008, [(0x20, 32)], .iq, 1, false, .iqEn, [⟨31, 0, .EG, false, .num 0x0⟩]⟩,
  -- TRG_IQ_HIT_CNT
  ⟨0x21400C, [(0x20, 32)], .iq, 1, false, .none, [⟨31, 0, .RO, false, .num 0x0⟩]⟩,
  -- TRG_CT_CTL
  ⟨0x20C000, [(0x20, 32)], .ct, 1, false, .ctEn, [⟨23, 16, .EG, false, .num 0xFF⟩, ⟨10, 8, .EG, false, .num 0x0⟩, ⟨5, 4, .EG, false, .num 0x0⟩, ⟨2, 1, .EG, false, .num 0x0⟩, ⟨0, 0, .RW, false, .num 0x0⟩]⟩,
  -- TRG_CT_STAGES
  ⟨0x20C004, [(0x20, 32)], .ct, 1, false, .ctEn, [⟨15, 0, .EG, false, .num 0x0⟩]⟩,
  -- TRG_CT_LIMIT_LO
  ⟨0x20C008, [(0x20, 32)], .ct, 1, false, .ctEn, [⟨31, 0, .EG, false, .num 0x0⟩]⟩,
  -- TRG_CT_LIMIT_HI
  ⟨0x20C00C, [(0x20, 32)], .ct, 1, false, .ctEn, [⟨15, 0, .EG, false, .num 0x0⟩]⟩,
  -- TRG_CT_VALUE_LO
  ⟨0x20C010, [(0x20, 32)], .ct, 1, false, .none, [⟨31, 0, .RO, false, .num 0x0⟩]⟩,
  -- TRG_CT_VALUE_HI
  ⟨0x20C014, [(0x20, 32)], .ct, 1, false, .none, [⟨15, 0, .RO, false, .num 0x0⟩]⟩,
  -- TRG_CT_STATUS
  ⟨0x20C018, [(0x20, 32)], .ct, 1, false, .none, [⟨1, 1, .LV, false, .num 0x0⟩, ⟨0, 0, .LV, false, .num 0x0⟩]⟩,
  -- TRG_MM_CTL
  ⟨0x218000, [(0x40, 64)], .mm, 1, false, .mmEn, [⟨0, 0, .RW, false, .num 0x0⟩]⟩]

def rowsTRG3 : List RegRow := [
  -- TRG_MM_QSEL
  ⟨0x218004, [(0x40, 64)], .mm, 1, false, .mmEn, [⟨29, 16, .EG, false, .num 0x0⟩, ⟨13, 0, .EG, false, .num 0x0⟩]⟩,
  -- TRG_MM_TYPE
  ⟨0x218008, [(0x40, 64)], .mm, 1, false, .mmEn, [⟨15, 8, .EG, false, .num 0x0⟩, ⟨7, 0, .EG, false, .num 0x0⟩]⟩,
  -- TRG_MM_PVAL_LO
  ⟨0x21800C, [(0x40, 64)], .mm, 1, false, .mmEn, [⟨31, 0, .EG, false, .num 0x0⟩]⟩,
  -- TRG_MM_PVAL_HI
  ⟨0x218010, [(0x40, 64)], .mm, 1, false, .mmEn, [⟨31, 0, .EG, false, .num 0x0⟩]⟩,
  -- TRG_MM_PMASK_LO
  ⟨0x218014, [(0x40, 64)], .mm, 1, false, .mmEn, [⟨31, 0, .EG, false, .num 0x0⟩]⟩,
  -- TRG_MM_PMASK_HI
  ⟨0x218018, [(0x40, 64)], .mm, 1, false, .mmEn, [⟨31, 0, .EG, false, .num 0x0⟩]⟩,
  -- TRG_MM_HIT_CNT
  ⟨0x21801C, [(0x40, 64)], .mm, 1, false, .none, [⟨31, 0, .RO, false, .num 0x0⟩]⟩,
  -- TRG_IO_CTL
  ⟨0x210000, [(0x4, 16)], .dev, 1, false, .none, [⟨23, 16, .RW, true, .num 0x4⟩, ⟨9, 8, .RW, true, .num 0x0⟩, ⟨6, 4, .RW, true, .num 0x0⟩, ⟨2, 2, .RW, true, .num 0x0⟩, ⟨1, 0, .RW, true, .num 0x0⟩]⟩,
  -- TRG_IO_GEN
  ⟨0x210040, [], .dev, 1, true, .none, [⟨15, 0, .RO, false, .num 0x0⟩]⟩,
  -- TRG_IO_APPLY
  ⟨0x210044, [], .dev, 1, false, .none, [⟨15, 0, .WO, true, .num 0x0⟩]⟩,
  -- TRG_IO_STATUS
  ⟨0x210048, [], .dev, 1, true, .none, [⟨15, 0, .RO, false, .computed⟩]⟩,
  -- TRG_IO_IN_DLY
  ⟨0x21004C, [], .dev, 1, true, .none, [⟨15, 0, .RO, false, .fused⟩]⟩]

def rowsTRG4 : List RegRow := [
  -- TRG_IO_STALE_CNT
  ⟨0x210050, [], .dev, 1, false, .none, [⟨31, 0, .RO, false, .num 0x0⟩]⟩]

/-- The TRG registers (R151). -/
def rowsTRG : List RegRow := rowsTRG0 ++ rowsTRG1 ++ rowsTRG2 ++ rowsTRG3 ++ rowsTRG4

def rowsME0 : List RegRow := [
  -- ME_X_CTL
  ⟨0x400000, [(0x20, 128)], .chan, 1, false, .xtGrp, [⟨31, 24, .EG, false, .num 0xB⟩, ⟨23, 20, .EG, false, .num 0x8⟩, ⟨19, 16, .EG, false, .num 0x2⟩, ⟨15, 8, .EG, false, .num 0x80⟩, ⟨7, 4, .EG, false, .num 0x0⟩, ⟨2, 0, .EG, false, .num 0x0⟩]⟩,
  -- ME_X_PER
  ⟨0x400004, [(0x20, 128)], .chan, 1, false, .xtGrp, [⟨31, 0, .EG, false, .num 0x10000⟩]⟩,
  -- ME_X_FMT
  ⟨0x400008, [(0x20, 128)], .chan, 1, false, .xtGrp, [⟨30, 24, .EG, false, .num 0x0⟩, ⟨23, 22, .EG, false, .num 0x0⟩, ⟨21, 21, .EG, false, .num 0x0⟩, ⟨20, 20, .EG, false, .num 0x0⟩, ⟨19, 16, .EG, false, .num 0x0⟩, ⟨15, 15, .EG, false, .num 0x0⟩, ⟨14, 14, .EG, false, .num 0x0⟩, ⟨13, 12, .EG, false, .num 0x0⟩, ⟨11, 8, .EG, false, .num 0x8⟩, ⟨5, 5, .EG, false, .num 0x0⟩, ⟨4, 0, .EG, false, .num 0x1F⟩]⟩,
  -- ME_X_CLK
  ⟨0x40000C, [(0x20, 128)], .chan, 1, false, .xtGrp, [⟨27, 27, .EG, false, .num 0x0⟩, ⟨26, 26, .EG, false, .num 0x0⟩, ⟨25, 24, .EG, false, .num 0x1⟩, ⟨22, 16, .EG, false, .num 0x0⟩, ⟨15, 0, .EG, false, .num 0x0⟩]⟩,
  -- ME_X_TGT
  ⟨0x400010, [(0x20, 128)], .chan, 1, false, .xtGrp, [⟨31, 24, .EG, false, .num 0x40⟩, ⟨23, 12, .EG, false, .num 0xF80⟩, ⟨10, 8, .EG, false, .num 0x0⟩, ⟨7, 0, .EG, false, .num 0x0⟩]⟩,
  -- ME_X_STATUS
  ⟨0x400014, [(0x20, 128)], .chan, 1, false, .none, [⟨3, 3, .LV, false, .num 0x0⟩, ⟨2, 2, .LV, false, .num 0x0⟩, ⟨1, 1, .LV, false, .num 0x0⟩, ⟨0, 0, .LV, false, .num 0x0⟩]⟩,
  -- ME_X_SYM_CNT
  ⟨0x400018, [(0x20, 128)], .chan, 1, false, .none, [⟨31, 0, .RO, false, .num 0x0⟩]⟩,
  -- ME_STATUS
  ⟨0x404000, [(0x4000, 4), (0x40, 64)], .eng, 1, false, .none, [⟨23, 20, .RO, false, .image⟩, ⟨19, 17, .RO, false, .image⟩, ⟨15, 8, .LV, false, .num 0x0⟩, ⟨4, 4, .LV, false, .num 0x0⟩, ⟨2, 0, .LV, false, .image⟩]⟩,
  -- ME_PC
  ⟨0x404004, [(0x4000, 4), (0x40, 64)], .eng, 1, false, .none, [⟨16, 0, .RO, false, .num 0x0⟩]⟩,
  -- ME_CAUSE
  ⟨0x404008, [(0x4000, 4), (0x40, 64)], .eng, 1, false, .none, [⟨16, 0, .RO, false, .num 0x0⟩]⟩,
  -- ME_ENTRY
  ⟨0x40400C, [(0x4000, 4), (0x40, 64)], .eng, 1, false, .none, [⟨16, 0, .RO, false, .image⟩]⟩,
  -- ME_CODE
  ⟨0x404010, [(0x4000, 4), (0x40, 64)], .eng, 1, false, .none, [⟨16, 0, .RO, false, .image⟩]⟩]

def rowsME1 : List RegRow := [
  -- ME_SPA
  ⟨0x404014, [(0x4000, 4), (0x40, 64)], .eng, 1, false, .none, [⟨16, 2, .RW, false, .num 0x0⟩]⟩,
  -- ME_SPD
  ⟨0x404018, [(0x4000, 4), (0x40, 64)], .eng, 1, false, .none, [⟨31, 0, .RW, false, .dash⟩]⟩,
  -- ME_KICK
  ⟨0x40401C, [(0x4000, 4), (0x40, 64)], .eng, 1, false, .none, [⟨31, 0, .WO, false, .num 0x0⟩]⟩,
  -- ME_STEP_LO
  ⟨0x404020, [(0x4000, 4), (0x40, 64)], .eng, 1, false, .none, [⟨31, 0, .RO, false, .num 0x0⟩]⟩,
  -- ME_STEP_HI
  ⟨0x404024, [(0x4000, 4), (0x40, 64)], .eng, 1, false, .none, [⟨31, 0, .RO, false, .num 0x0⟩]⟩,
  -- ME_MSG_CNT
  ⟨0x404028, [(0x4000, 4), (0x40, 64)], .eng, 1, false, .none, [⟨31, 0, .RO, false, .num 0x0⟩]⟩,
  -- ME_LOSS_CNT
  ⟨0x40402C, [(0x4000, 4), (0x40, 64)], .eng, 1, false, .none, [⟨31, 0, .RO, false, .num 0x0⟩]⟩,
  -- ME_DISC_CNT
  ⟨0x404030, [(0x4000, 4), (0x40, 64)], .eng, 1, false, .none, [⟨31, 0, .RO, false, .num 0x0⟩]⟩,
  -- ME_RES_CNT
  ⟨0x404034, [(0x4000, 4), (0x40, 64)], .eng, 1, false, .none, [⟨31, 0, .RO, false, .num 0x0⟩]⟩,
  -- ME_ECC_CNT
  ⟨0x404038, [(0x4000, 4), (0x40, 64)], .eng, 1, false, .none, [⟨31, 0, .RO, false, .num 0x0⟩]⟩,
  -- ME_MDROP_CNT
  ⟨0x40403C, [(0x4000, 4), (0x40, 64)], .eng, 1, false, .none, [⟨31, 0, .RO, false, .num 0x0⟩]⟩,
  -- ME_GO
  ⟨0x414000, [(0x4, 8)], .mixed, 1, false, .none, [⟨31, 0, .WO, false, .num 0x0⟩]⟩]

def rowsME2 : List RegRow := [
  -- ME_STOP
  ⟨0x414020, [(0x4, 8)], .mixed, 1, false, .none, [⟨31, 0, .WO, false, .num 0x0⟩]⟩,
  -- ME_X_BIND_CNT
  ⟨0x414040, [], .dev, 1, false, .none, [⟨31, 0, .RO, false, .num 0x0⟩]⟩,
  -- ME_EVT_CNT
  ⟨0x418000, [(0x4000, 4), (0x10, 64), (0x4, 4)], .eng, 4, false, .none, [⟨31, 0, .RO, false, .num 0x0⟩]⟩]

/-- The ME registers (R253). -/
def rowsME : List RegRow := rowsME0 ++ rowsME1 ++ rowsME2

def rowsQM0 : List RegRow := [
  -- QM_DESC0
  ⟨0x800000, [(0x4000, 128), (0x20, 128)], .queue, 1, false, .qOff, [⟨29, 16, .EG, false, .image⟩, ⟨12, 12, .EG, false, .image⟩, ⟨11, 11, .EG, false, .image⟩, ⟨10, 10, .EG, false, .image⟩, ⟨9, 8, .EG, false, .image⟩, ⟨7, 6, .LV, false, .image⟩, ⟨5, 4, .RO, false, .image⟩, ⟨3, 3, .RW, false, .image⟩, ⟨2, 0, .EG, false, .image⟩]⟩,
  -- QM_DESC1
  ⟨0x800004, [(0x4000, 128), (0x20, 128)], .queue, 1, false, .none, [⟨31, 0, .RO, false, .num 0x0⟩]⟩,
  -- QM_DESC2
  ⟨0x800008, [(0x4000, 128), (0x20, 128)], .queue, 1, false, .none, [⟨31, 0, .RO, false, .num 0x0⟩]⟩,
  -- QM_DESC3
  ⟨0x80000C, [(0x4000, 128), (0x20, 128)], .queue, 1, false, .qOff, [⟨31, 16, .EG, false, .image⟩, ⟨15, 0, .RO, false, .num 0x0⟩]⟩,
  -- QM_DESC4
  ⟨0x800010, [(0x4000, 128), (0x20, 128)], .queue, 1, false, .qOff, [⟨31, 16, .EG, false, .image⟩, ⟨15, 0, .EG, false, .image⟩]⟩,
  -- QM_DESC5
  ⟨0x800014, [(0x4000, 128), (0x20, 128)], .queue, 1, false, .qOff, [⟨31, 0, .EG, false, .image⟩]⟩,
  -- QM_DESC6
  ⟨0x800018, [(0x4000, 128), (0x20, 128)], .queue, 1, false, .qOff, [⟨31, 0, .RW, false, .image⟩]⟩,
  -- QM_DESC7
  ⟨0x80001C, [(0x4000, 128), (0x20, 128)], .queue, 1, false, .qOff, [⟨31, 16, .RO, false, .num 0x0⟩, ⟨15, 0, .RO, false, .num 0x0⟩]⟩,
  -- QM_EVTQ
  ⟨0xA00000, [(0x4, 4)], .part, 1, false, .none, [⟨31, 31, .RW, false, .num 0x0⟩, ⟨13, 0, .RW, false, .num 0x0⟩]⟩,
  -- QM_POOL
  ⟨0xA00010, [(0x4, 4)], .part, 1, false, .none, [⟨31, 16, .RO, false, .image⟩, ⟨15, 0, .RO, false, .image⟩]⟩,
  -- QM_EVT_LEVEL
  ⟨0xA00020, [(0x4, 4)], .part, 1, false, .none, [⟨12, 0, .LV, false, .num 0x0⟩]⟩,
  -- QM_LOSS_CNT
  ⟨0xA00030, [(0x4, 4)], .part, 1, false, .none, [⟨31, 0, .RO, false, .num 0x0⟩]⟩]

def rowsQM1 : List RegRow := [
  -- QM_DUP_CNT
  ⟨0xA00040, [(0x4, 4)], .part, 1, false, .none, [⟨31, 0, .RO, false, .num 0x0⟩]⟩,
  -- QM_BAD_CNT
  ⟨0xA00050, [(0x4, 4)], .part, 1, false, .none, [⟨31, 0, .RO, false, .num 0x0⟩]⟩,
  -- QM_EVT_LOST_CNT
  ⟨0xA00060, [(0x4, 4)], .part, 1, false, .none, [⟨31, 0, .RO, false, .num 0x0⟩]⟩,
  -- QM_EVT_CNT
  ⟨0xA00100, [(0x20, 4), (0x4, 6)], .part, 6, false, .none, [⟨31, 0, .RO, false, .num 0x0⟩]⟩]

/-- The QM registers (R285). -/
def rowsQM : List RegRow := rowsQM0 ++ rowsQM1

def rowsSG0 : List RegRow := [
  -- SG_ENTRY
  ⟨0xC00000, [(0x10000, 8), (0x4000, 4), (0x10, 256), (0x4, 4)], .sg, 4096, false, .sgIdle, [⟨31, 0, .EG, false, .num 0x0⟩]⟩,
  -- SG_CTL
  ⟨0xC80000, [(0x4000, 8)], .sg, 1, false, .sgIdle, [⟨11, 8, .EG, false, .num 0x0⟩, ⟨6, 6, .EG, false, .num 0x0⟩, ⟨5, 5, .EG, false, .num 0x0⟩, ⟨4, 4, .EG, false, .num 0x0⟩, ⟨3, 3, .EG, false, .num 0x0⟩]⟩,
  -- SG_STATUS
  ⟨0xC80004, [(0x4000, 8)], .sg, 1, false, .none, [⟨25, 16, .LV, false, .num 0x0⟩, ⟨7, 7, .LV, false, .num 0x0⟩, ⟨6, 6, .LV, false, .num 0x0⟩, ⟨5, 5, .LV, false, .num 0x0⟩, ⟨4, 4, .LV, false, .num 0x0⟩, ⟨2, 0, .LV, false, .num 0x0⟩]⟩,
  -- SG_CFG
  ⟨0xC80008, [(0x4000, 8)], .sg, 1, false, .sgIdle, [⟨31, 24, .EG, false, .num 0x80⟩, ⟨11, 8, .EG, false, .num 0x0⟩, ⟨3, 0, .EG, false, .num 0x4⟩]⟩,
  -- SG_SEQ
  ⟨0xC8000C, [(0x4000, 8)], .sg, 1, false, .sgIdle, [⟨10, 0, .EG, false, .num 0x1⟩]⟩,
  -- SG_START_LO
  ⟨0xC80010, [(0x4000, 8)], .sg, 1, false, .none, [⟨31, 0, .RO, false, .num 0x0⟩]⟩,
  -- SG_START_HI
  ⟨0xC80014, [(0x4000, 8)], .sg, 1, false, .none, [⟨31, 0, .RO, false, .num 0x0⟩]⟩,
  -- SG_STOP_LO
  ⟨0xC80018, [(0x4000, 8)], .sg, 1, false, .none, [⟨31, 0, .RO, false, .num 0x0⟩]⟩,
  -- SG_STOP_HI
  ⟨0xC8001C, [(0x4000, 8)], .sg, 1, false, .none, [⟨31, 0, .RO, false, .num 0x0⟩]⟩,
  -- SG_PLAY_LO
  ⟨0xC80020, [(0x4000, 8)], .sg, 1, false, .none, [⟨31, 0, .RO, false, .num 0x0⟩]⟩,
  -- SG_PLAY_HI
  ⟨0xC80024, [(0x4000, 8)], .sg, 1, false, .none, [⟨31, 0, .RO, false, .num 0x0⟩]⟩,
  -- SG_LOOP
  ⟨0xC80028, [(0x4000, 8)], .sg, 1, false, .none, [⟨31, 16, .RO, false, .num 0x0⟩, ⟨15, 0, .RO, false, .num 0x0⟩]⟩]

def rowsSG1 : List RegRow := [
  -- SG_JSRC
  ⟨0xC80030, [(0x4000, 8)], .sg, 1, false, .sgIdle, [⟨8, 8, .EG, false, .num 0x0⟩, ⟨4, 4, .EG, false, .num 0x0⟩, ⟨2, 0, .EG, false, .num 0x0⟩]⟩,
  -- SG_JUMP
  ⟨0xC80034, [(0x4000, 8)], .sg, 1, false, .none, [⟨0, 0, .WO, false, .num 0x0⟩]⟩,
  -- SG_JUMP_TS_LO
  ⟨0xC80038, [(0x4000, 8)], .sg, 1, false, .none, [⟨31, 0, .RO, false, .num 0x0⟩]⟩,
  -- SG_JUMP_TS_HI
  ⟨0xC8003C, [(0x4000, 8)], .sg, 1, false, .none, [⟨31, 0, .RO, false, .num 0x0⟩]⟩,
  -- SG_IDLE
  ⟨0xC80040, [(0x4000, 8), (0x4, 8)], .sg, 8, false, .sgIdle, [⟨31, 0, .EG, false, .num 0x0⟩]⟩,
  -- SG_LS_ADDR
  ⟨0xC80060, [(0x4000, 8)], .sg, 1, false, .none, [⟨17, 2, .RW, false, .num 0x0⟩]⟩,
  -- SG_LS_DATA
  ⟨0xC80064, [(0x4000, 8)], .sg, 1, false, .none, [⟨31, 0, .RW, false, .dash⟩]⟩,
  -- SG_STR_CTL
  ⟨0xC80070, [(0x4000, 8)], .sg, 1, false, .sgIdle, [⟨31, 31, .EG, false, .num 0x0⟩, ⟨30, 22, .EG, false, .num 0x0⟩, ⟨21, 21, .EG, false, .num 0x0⟩, ⟨20, 16, .EG, false, .num 0x4⟩, ⟨15, 0, .EG, false, .num 0x0⟩]⟩,
  -- SG_STR_DB
  ⟨0xC80074, [(0x4000, 8)], .sg, 1, false, .none, [⟨31, 0, .WO, false, .num 0x0⟩]⟩,
  -- SG_STR_HEAD
  ⟨0xC80078, [(0x4000, 8)], .sg, 1, false, .none, [⟨31, 0, .RO, false, .num 0x0⟩]⟩,
  -- SG_STR_TAIL
  ⟨0xC8007C, [(0x4000, 8)], .sg, 1, false, .none, [⟨31, 0, .RO, false, .num 0x0⟩]⟩,
  -- SG_STR_BASE_LO
  ⟨0xC80080, [(0x4000, 8)], .sg, 1, false, .sgIdle, [⟨31, 0, .EG, false, .num 0x0⟩]⟩]

def rowsSG2 : List RegRow := [
  -- SG_STR_BASE_HI
  ⟨0xC80084, [(0x4000, 8)], .sg, 1, false, .sgIdle, [⟨31, 0, .EG, false, .num 0x0⟩]⟩,
  -- SG_STR_SHADOW_LO
  ⟨0xC80088, [(0x4000, 8)], .sg, 1, false, .sgIdle, [⟨31, 0, .EG, false, .num 0x0⟩]⟩,
  -- SG_STR_SHADOW_HI
  ⟨0xC8008C, [(0x4000, 8)], .sg, 1, false, .sgIdle, [⟨31, 0, .EG, false, .num 0x0⟩]⟩,
  -- SG_OUT
  ⟨0xC80090, [(0x4000, 8), (0x4, 4)], .sg, 4, false, .sgIdle, [⟨15, 12, .EG, false, .num 0x0⟩, ⟨11, 9, .EG, false, .num 0x0⟩, ⟨8, 4, .EG, false, .num 0xC⟩, ⟨1, 1, .EG, false, .num 0x0⟩, ⟨0, 0, .EG, false, .num 0x0⟩]⟩,
  -- SG_LANE_TRIM
  ⟨0xC800A0, [(0x4000, 8), (0x4, 4)], .sg, 4, false, .none, [⟨31, 16, .RO, false, .num 0x0⟩, ⟨8, 0, .RO, false, .fused⟩]⟩,
  -- SG_CAL
  ⟨0xC800B0, [(0x4000, 8)], .sg, 1, false, .none, [⟨4, 4, .WO, false, .num 0x0⟩, ⟨0, 0, .WO, false, .num 0x0⟩]⟩,
  -- SG_MT_CTL
  ⟨0xC80100, [(0x4000, 8)], .sg, 1, false, .sgIdle, [⟨31, 24, .EG, false, .num 0xFF⟩, ⟨21, 20, .EG, false, .num 0x0⟩, ⟨19, 18, .EG, false, .num 0x0⟩, ⟨15, 10, .EG, false, .num 0x0⟩, ⟨6, 4, .EG, false, .num 0x4⟩, ⟨2, 0, .EG, false, .num 0x0⟩]⟩,
  -- SG_MT_GEOM
  ⟨0xC80104, [(0x4000, 8)], .sg, 1, false, .sgIdle, [⟨18, 16, .EG, false, .num 0x0⟩, ⟨12, 8, .EG, false, .num 0x0⟩, ⟨3, 0, .EG, false, .num 0x0⟩]⟩,
  -- SG_MT_XOR
  ⟨0xC80108, [(0x4000, 8)], .sg, 1, false, .sgIdle, [⟨31, 0, .EG, false, .num 0x0⟩]⟩,
  -- SG_MT_ELEM
  ⟨0xC80110, [(0x4000, 8), (0x4, 4)], .sg, 4, false, .sgIdle, [⟨31, 0, .EG, false, .num 0x0⟩]⟩,
  -- SG_MT_SCR
  ⟨0xC80120, [(0x4000, 8), (0x4, 8)], .sg, 8, false, .sgIdle, [⟨31, 0, .EG, false, .computed⟩]⟩,
  -- SG_MT_LANE_A
  ⟨0xC80200, [(0x4000, 8), (0x8, 32)], .sg, 32, false, .sgIdle, [⟨31, 25, .EG, false, .num 0x0⟩, ⟨24, 19, .EG, false, .num 0x0⟩, ⟨18, 14, .EG, false, .num 0x0⟩, ⟨13, 13, .EG, false, .num 0x0⟩, ⟨12, 12, .EG, false, .num 0x0⟩, ⟨10, 8, .EG, false, .num 0x0⟩]⟩]

def rowsSG3 : List RegRow := [
  -- SG_MT_LANE_B
  ⟨0xC80204, [(0x4000, 8), (0x8, 32)], .sg, 32, false, .sgIdle, [⟨31, 25, .EG, false, .num 0x0⟩, ⟨24, 19, .EG, false, .num 0x0⟩, ⟨18, 14, .EG, false, .num 0x0⟩, ⟨13, 13, .EG, false, .num 0x0⟩, ⟨10, 8, .EG, false, .num 0x0⟩]⟩,
  -- SG_UNDER_CNT
  ⟨0xC80300, [(0x4000, 8)], .sg, 1, false, .none, [⟨31, 0, .RO, false, .num 0x0⟩]⟩,
  -- SG_JDROP_CNT
  ⟨0xC80304, [(0x4000, 8)], .sg, 1, false, .none, [⟨31, 0, .RO, false, .num 0x0⟩]⟩,
  -- SG_EVT_CNT
  ⟨0xC80340, [(0x4000, 8), (0x4, 11)], .sg, 11, false, .none, [⟨31, 0, .RO, false, .num 0x0⟩]⟩,
  -- SG_GO
  ⟨0xCA0000, [], .mixed, 1, false, .none, [⟨7, 0, .WO, false, .num 0x0⟩]⟩,
  -- SG_HALT
  ⟨0xCA0004, [], .mixed, 1, false, .none, [⟨7, 0, .WO, false, .num 0x0⟩]⟩,
  -- SG_COMMON_STATUS
  ⟨0xCA0008, [], .dev, 1, true, .none, [⟨0, 0, .LV, false, .num 0x0⟩]⟩,
  -- SG_CAL_OFS
  ⟨0xCA000C, [], .dev, 1, true, .none, [⟨31, 0, .RO, false, .fused⟩]⟩,
  -- SG_GRID_O_LO
  ⟨0xCA0010, [], .dev, 1, true, .none, [⟨31, 0, .RO, false, .num 0x0⟩]⟩,
  -- SG_GRID_O_HI
  ⟨0xCA0014, [], .dev, 1, true, .none, [⟨31, 0, .RO, false, .num 0x0⟩]⟩]

/-- The SG registers (R322). -/
def rowsSG : List RegRow := rowsSG0 ++ rowsSG1 ++ rowsSG2 ++ rowsSG3

def rowsSB0 : List RegRow := [
  -- SB_MAP
  ⟨0xE00000, [(0x4, 32)], .dev, 1, true, .none, [⟨6, 6, .LV, false, .num 0x0⟩, ⟨5, 5, .LV, false, .num 0x0⟩, ⟨4, 4, .LV, false, .num 0x0⟩, ⟨3, 2, .RO, false, .image⟩, ⟨1, 0, .RO, false, .image⟩]⟩,
  -- SB_CE_CNT
  ⟨0xE00080, [(0x4, 32)], .bank, 1, false, .none, [⟨31, 0, .RO, false, .num 0x0⟩]⟩,
  -- SB_UE_CNT
  ⟨0xE00100, [(0x4, 32)], .bank, 1, false, .none, [⟨31, 0, .RO, false, .num 0x0⟩]⟩,
  -- SB_COLL_CNT
  ⟨0xE00180, [(0x4, 32)], .bank, 1, false, .none, [⟨31, 0, .RO, false, .num 0x0⟩]⟩,
  -- SB_DIA_ENTER
  ⟨0xE00200, [], .mixed, 1, false, .none, [⟨31, 0, .WO, false, .num 0x0⟩]⟩,
  -- SB_DIA_WAKE
  ⟨0xE00204, [], .mixed, 1, false, .none, [⟨31, 0, .WO, false, .num 0x0⟩]⟩,
  -- SB_DIA_SP_ENTER
  ⟨0xE00220, [(0x4, 8)], .mixed, 1, false, .none, [⟨31, 0, .WO, false, .num 0x0⟩]⟩,
  -- SB_DIA_SP_WAKE
  ⟨0xE00240, [(0x4, 8)], .mixed, 1, false, .none, [⟨31, 0, .WO, false, .num 0x0⟩]⟩,
  -- SB_DIA_SP_STATE
  ⟨0xE00260, [(0x4, 8)], .mixed, 1, true, .none, [⟨31, 0, .LV, false, .num 0x0⟩]⟩,
  -- SB_STG_CE_CNT
  ⟨0xE00300, [(0x4, 16)], .grp, 1, false, .none, [⟨31, 0, .RO, false, .num 0x0⟩]⟩,
  -- SB_STG_UE_CNT
  ⟨0xE00340, [(0x4, 16)], .grp, 1, false, .none, [⟨31, 0, .RO, false, .num 0x0⟩]⟩,
  -- SB_HEALTH
  ⟨0xE00380, [], .dev, 1, true, .none, [⟨23, 16, .LV, false, .num 0x0⟩, ⟨15, 0, .LV, false, .num 0x0⟩]⟩]

def rowsSB1 : List RegRow := [
  -- SB_MT_CTL
  ⟨0xE04000, [(0x40, 4)], .part, 1, false, .mtBusy, [⟨31, 31, .WO, false, .num 0x0⟩, ⟨30, 30, .WO, false, .num 0x0⟩, ⟨19, 18, .EG, false, .num 0x0⟩, ⟨17, 17, .EG, false, .num 0x0⟩, ⟨16, 16, .EG, false, .num 0x0⟩, ⟨9, 8, .EG, false, .num 0x0⟩, ⟨7, 0, .EG, false, .num 0x0⟩]⟩,
  -- SB_MT_RANGE
  ⟨0xE04004, [(0x40, 4)], .part, 1, false, .mtBusy, [⟨24, 16, .EG, false, .num 0x0⟩, ⟨8, 0, .EG, false, .num 0x0⟩]⟩,
  -- SB_MT_STATUS
  ⟨0xE04008, [(0x40, 4)], .part, 1, false, .none, [⟨31, 31, .LV, false, .num 0x0⟩, ⟨30, 29, .RO, false, .num 0x0⟩, ⟨24, 16, .RO, false, .num 0x0⟩, ⟨9, 0, .RO, false, .num 0x0⟩]⟩,
  -- SB_MT_RESULT
  ⟨0xE0400C, [(0x40, 4)], .part, 1, false, .none, [⟨29, 20, .RO, false, .num 0x0⟩, ⟨19, 10, .RO, false, .num 0x0⟩, ⟨9, 0, .RO, false, .num 0x0⟩]⟩,
  -- SB_MT_FAIL_ADDR
  ⟨0xE04010, [(0x40, 4)], .part, 1, false, .none, [⟨20, 0, .RO, false, .num 0x0⟩]⟩,
  -- SB_EVT_CNT
  ⟨0xE04100, [(0x20, 4), (0x4, 8)], .part, 8, false, .none, [⟨31, 0, .RO, false, .num 0x0⟩]⟩,
  -- SB_REP_SEL
  ⟨0xE04200, [], .dev, 1, true, .none, [⟨21, 20, .RW, false, .num 0x0⟩, ⟨19, 12, .RW, false, .num 0x0⟩, ⟨5, 0, .RW, false, .num 0x0⟩]⟩,
  -- SB_REP_DATA
  ⟨0xE04204, [], .dev, 1, true, .none, [⟨31, 31, .RO, false, .num 0x0⟩, ⟨30, 30, .RO, false, .num 0x0⟩, ⟨29, 0, .RO, false, .num 0x0⟩]⟩,
  -- SB_COCOON_STATUS
  ⟨0xE04300, [], .dev, 1, true, .none, [⟨9, 8, .RO, false, .num 0x0⟩, ⟨1, 1, .LV, false, .num 0x0⟩, ⟨0, 0, .LV, false, .num 0x0⟩]⟩,
  -- SB_COCOON_WIPES
  ⟨0xE04304, [], .dev, 1, true, .none, [⟨31, 0, .RO, false, .num 0x0⟩]⟩]

/-- The SB registers (R356). -/
def rowsSB : List RegRow := rowsSB0 ++ rowsSB1

def rowsDC0 : List RegRow := [
  -- DC_CTL
  ⟨0x1000000, [(0x4000, 16)], .dev, 1, true, .none, [⟨1, 1, .RW, true, .num 0x0⟩, ⟨0, 0, .RW, true, .num 0x0⟩]⟩,
  -- DC_STATUS
  ⟨0x1000004, [(0x4000, 16)], .dev, 1, true, .none, [⟨29, 24, .LV, false, .num 0x0⟩, ⟨21, 16, .LV, false, .num 0x0⟩, ⟨9, 8, .LV, false, .num 0x0⟩, ⟨5, 5, .LV, false, .num 0x0⟩, ⟨4, 4, .LV, false, .num 0x0⟩, ⟨3, 3, .LV, false, .num 0x0⟩, ⟨2, 0, .LV, false, .num 0x0⟩]⟩,
  -- DC_TIM0
  ⟨0x1000010, [(0x4000, 16)], .dev, 1, true, .dcAll, [⟨31, 24, .EG, true, .prov⟩, ⟨23, 16, .EG, true, .prov⟩, ⟨15, 8, .EG, true, .prov⟩, ⟨7, 0, .EG, true, .prov⟩]⟩,
  -- DC_TIM1
  ⟨0x1000014, [(0x4000, 16)], .dev, 1, true, .dcAll, [⟨31, 24, .EG, true, .prov⟩, ⟨23, 16, .EG, true, .prov⟩, ⟨15, 8, .EG, true, .prov⟩, ⟨7, 0, .EG, true, .prov⟩]⟩,
  -- DC_TIM2
  ⟨0x1000018, [(0x4000, 16)], .dev, 1, true, .dcAll, [⟨31, 20, .EG, true, .num 0x1E8⟩, ⟨19, 10, .EG, true, .num 0x5A⟩, ⟨9, 0, .EG, true, .num 0xD2⟩]⟩,
  -- DC_SWZ
  ⟨0x1000020, [(0x4000, 16), (0x4, 2)], .dev, 1, true, .dcEn, [⟨23, 0, .EG, true, .num 0xFAC688⟩]⟩,
  -- DC_TRN_SEED
  ⟨0x1000034, [(0x4000, 16)], .dev, 1, true, .none, [⟨31, 0, .RW, true, .num 0x1⟩]⟩,
  -- DC_TRN_PAT_LO
  ⟨0x1000038, [(0x4000, 16)], .dev, 1, true, .none, [⟨31, 0, .RW, true, .num 0x0⟩]⟩,
  -- DC_TRN_PAT_HI
  ⟨0x100003C, [(0x4000, 16)], .dev, 1, true, .none, [⟨31, 0, .RW, true, .num 0x0⟩]⟩,
  -- DC_TRN_CMD
  ⟨0x1000040, [(0x4000, 16)], .dev, 1, true, .none, [⟨31, 16, .WO, true, .num 0x0⟩, ⟨9, 9, .WO, true, .num 0x0⟩, ⟨8, 5, .WO, true, .num 0x0⟩, ⟨4, 4, .WO, true, .num 0x0⟩, ⟨3, 0, .WO, true, .num 0x0⟩]⟩,
  -- DC_TRN_STATUS
  ⟨0x1000048, [(0x4000, 16)], .dev, 1, true, .none, [⟨15, 8, .RO, false, .num 0x0⟩, ⟨0, 0, .LV, false, .num 0x0⟩]⟩,
  -- DC_VREF
  ⟨0x100004C, [(0x4000, 16)], .dev, 1, true, .dcEn, [⟨31, 24, .EG, true, .num 0x40⟩, ⟨23, 16, .EG, true, .num 0x40⟩, ⟨15, 8, .EG, true, .num 0x40⟩, ⟨7, 0, .EG, true, .num 0x40⟩]⟩]

def rowsDC1 : List RegRow := [
  -- DC_CE_CNT
  ⟨0x1000050, [(0x4000, 16)], .dev, 1, true, .none, [⟨31, 0, .RO, false, .num 0x0⟩]⟩,
  -- DC_UE_CNT
  ⟨0x1000054, [(0x4000, 16)], .dev, 1, true, .none, [⟨31, 0, .RO, false, .num 0x0⟩]⟩,
  -- DC_TRN_ERR
  ⟨0x1000080, [(0x4000, 16), (0x4, 18)], .dev, 1, true, .none, [⟨31, 0, .RO, false, .num 0x0⟩]⟩,
  -- DC_DLY_WR
  ⟨0x1000100, [(0x4000, 16), (0x4, 18)], .dev, 1, true, .dcEn, [⟨8, 0, .EG, true, .num 0x100⟩]⟩,
  -- DC_DLY_RD
  ⟨0x1000180, [(0x4000, 16), (0x4, 18)], .dev, 1, true, .dcEn, [⟨8, 0, .EG, true, .num 0x100⟩]⟩,
  -- DC_DLY_CA
  ⟨0x1000200, [(0x4000, 16), (0x4, 8)], .dev, 1, true, .dcEn, [⟨8, 0, .EG, true, .num 0x100⟩]⟩,
  -- DC_CFG
  ⟨0x1040000, [], .dev, 1, true, .dcAll, [⟨5, 4, .EG, true, .prov⟩, ⟨2, 2, .EG, true, .prov⟩, ⟨1, 0, .EG, true, .prov⟩]⟩,
  -- DC_CAP_LO
  ⟨0x1040004, [], .dev, 1, true, .none, [⟨31, 0, .RO, false, .computed⟩]⟩,
  -- DC_CAP_HI
  ⟨0x1040008, [], .dev, 1, true, .none, [⟨31, 0, .RO, false, .computed⟩]⟩,
  -- DC_XOR_MASK
  ⟨0x1040010, [(0x4, 8)], .dev, 1, true, .dcAll, [⟨31, 0, .EG, true, .computed⟩]⟩,
  -- DC_AGE
  ⟨0x1040030, [], .dev, 1, true, .none, [⟨29, 20, .RW, true, .num 0x100⟩, ⟨19, 10, .RW, true, .num 0x20⟩, ⟨9, 0, .RW, true, .num 0x8⟩]⟩,
  -- DC_SCRUB
  ⟨0x1040034, [], .dev, 1, true, .none, [⟨7, 0, .RW, true, .num 0x18⟩]⟩]

def rowsDC2 : List RegRow := [
  -- DC_PART_BASE
  ⟨0x1040040, [(0x8, 4)], .part, 1, false, .none, [⟨19, 0, .RO, false, .image⟩]⟩,
  -- DC_PART_LIMIT
  ⟨0x1040044, [(0x8, 4)], .part, 1, false, .none, [⟨19, 0, .RO, false, .image⟩]⟩,
  -- DC_WIN
  ⟨0x1040060, [(0x4, 4)], .part, 1, false, .none, [⟨12, 0, .RW, false, .num 0x0⟩]⟩,
  -- DC_FILL_BASE
  ⟨0x1040080, [(0x8, 4)], .part, 1, false, .fillBusy, [⟨19, 0, .EG, false, .num 0x0⟩]⟩,
  -- DC_FILL_CTL
  ⟨0x1040084, [(0x8, 4)], .part, 1, false, .fillBusy, [⟨31, 31, .WO, false, .num 0x0⟩, ⟨30, 30, .EG, false, .num 0x0⟩, ⟨29, 28, .RO, false, .num 0x0⟩, ⟨27, 27, .LV, false, .num 0x0⟩, ⟨19, 0, .EG, false, .num 0x0⟩]⟩,
  -- DC_EVT_CNT
  ⟨0x1040100, [(0x4, 9)], .dev, 1, true, .none, [⟨31, 0, .RO, false, .num 0x0⟩]⟩]

/-- The DC registers (R388). -/
def rowsDC : List RegRow := rowsDC0 ++ rowsDC1 ++ rowsDC2

def rowsPG0 : List RegRow := [
  -- PG_STATUS
  ⟨0x1400000, [], .dev, 1, true, .none, [⟨5, 5, .LV, false, .num 0x0⟩, ⟨4, 4, .LV, false, .num 0x0⟩, ⟨3, 3, .LV, false, .num 0x0⟩, ⟨2, 2, .LV, false, .num 0x0⟩, ⟨1, 1, .LV, false, .num 0x0⟩]⟩,
  -- PG_GEN
  ⟨0x1400004, [], .dev, 1, true, .none, [⟨15, 0, .RO, false, .num 0x0⟩]⟩,
  -- PG_BUDGET
  ⟨0x1400008, [], .dev, 1, true, .none, [⟨13, 0, .RW, true, .prov⟩]⟩,
  -- PG_APPLY
  ⟨0x140000C, [], .dev, 1, true, .none, [⟨15, 0, .WO, true, .num 0x0⟩]⟩,
  -- PG_DRAW
  ⟨0x1400010, [], .dev, 1, true, .none, [⟨31, 16, .RO, false, .image⟩, ⟨15, 0, .LV, false, .num 0x0⟩]⟩,
  -- PG_VCTL
  ⟨0x1400014, [], .dev, 1, true, .none, [⟨31, 31, .RW, true, .num 0x0⟩, ⟨29, 20, .RW, true, .num 0x30C⟩, ⟨19, 10, .RW, true, .num 0x370⟩, ⟨9, 0, .RW, true, .num 0x2A8⟩]⟩,
  -- PG_VCORE
  ⟨0x1400018, [], .dev, 1, true, .none, [⟨31, 16, .LV, false, .num 0x0⟩, ⟨15, 0, .LV, false, .num 0x30C⟩]⟩,
  -- PG_PMB
  ⟨0x140001C, [], .dev, 1, true, .none, [⟨6, 0, .RW, true, .num 0x40⟩]⟩,
  -- PG_FAULT
  ⟨0x1400020, [], .dev, 1, true, .none, [⟨31, 16, .RO, false, .num 0x0⟩, ⟨15, 0, .RO, false, .num 0x0⟩]⟩,
  -- PG_TEMP
  ⟨0x1400040, [(0x4, 8)], .dev, 1, true, .none, [⟨31, 16, .RO, false, .num 0x8000⟩, ⟨15, 0, .LV, false, .num 0x0⟩]⟩,
  -- PG_CLASS
  ⟨0x1400100, [(0x8, 14)], .dev, 1, true, .none, [⟨26, 16, .LV, false, .num 0x400⟩, ⟨10, 0, .RO, false, .image⟩]⟩,
  -- PG_CLASS_DRAW
  ⟨0x1400104, [(0x8, 14)], .dev, 1, true, .none, [⟨31, 16, .RO, false, .image⟩, ⟨15, 0, .LV, false, .num 0x0⟩]⟩]

def rowsPG1 : List RegRow := [
  -- PG_EVT_CNT
  ⟨0x1400200, [(0x4, 7)], .dev, 1, true, .none, [⟨31, 0, .RO, false, .num 0x0⟩]⟩]

/-- The PG registers (R511). -/
def rowsPG : List RegRow := rowsPG0 ++ rowsPG1

def rowsMON0 : List RegRow := [
  -- MON_CTL
  ⟨0x1600000, [(0x4000, 4), (0x200, 8)], .mon, 1, false, .monEn, [⟨31, 24, .EG, false, .num 0xA⟩, ⟨23, 19, .EG, false, .num 0x0⟩, ⟨18, 16, .EG, false, .num 0x0⟩, ⟨4, 1, .EG, false, .num 0x0⟩, ⟨0, 0, .RW, false, .num 0x0⟩]⟩,
  -- MON_SRC
  ⟨0x1600004, [(0x4000, 4), (0x200, 8)], .mon, 1, false, .monEn, [⟨13, 0, .EG, false, .num 0x0⟩]⟩,
  -- MON_OFS
  ⟨0x1600008, [(0x4000, 4), (0x200, 8)], .mon, 1, false, .monEn, [⟨31, 0, .EG, false, .num 0x0⟩]⟩,
  -- MON_ALARM
  ⟨0x160000C, [(0x4000, 4), (0x200, 8)], .mon, 1, false, .monEn, [⟨31, 0, .EG, false, .num 0x7FFFFFFF⟩]⟩,
  -- MON_STATUS
  ⟨0x1600010, [(0x4000, 4), (0x200, 8)], .mon, 1, false, .none, [⟨1, 1, .LV, false, .num 0x0⟩, ⟨0, 0, .LV, false, .num 0x0⟩]⟩,
  -- MON_MIN
  ⟨0x1600014, [(0x4000, 4), (0x200, 8)], .mon, 1, false, .none, [⟨31, 0, .RO, false, .num 0x7FFFFFFF⟩]⟩,
  -- MON_MAX
  ⟨0x1600018, [(0x4000, 4), (0x200, 8)], .mon, 1, false, .none, [⟨31, 0, .RO, false, .num 0x80000000⟩]⟩,
  -- MON_COUNT_LO
  ⟨0x160001C, [(0x4000, 4), (0x200, 8)], .mon, 1, false, .none, [⟨31, 0, .RO, false, .num 0x0⟩]⟩,
  -- MON_COUNT_HI
  ⟨0x1600020, [(0x4000, 4), (0x200, 8)], .mon, 1, false, .none, [⟨31, 0, .RO, false, .num 0x0⟩]⟩,
  -- MON_UNDER
  ⟨0x1600024, [(0x4000, 4), (0x200, 8)], .mon, 1, false, .none, [⟨31, 0, .RO, false, .num 0x0⟩]⟩,
  -- MON_OVER
  ⟨0x1600028, [(0x4000, 4), (0x200, 8)], .mon, 1, false, .none, [⟨31, 0, .RO, false, .num 0x0⟩]⟩,
  -- MON_SNAP_TS_LO
  ⟨0x160002C, [(0x4000, 4), (0x200, 8)], .mon, 1, false, .none, [⟨31, 0, .RO, false, .num 0x0⟩]⟩]

def rowsMON1 : List RegRow := [
  -- MON_SNAP_TS_HI
  ⟨0x1600030, [(0x4000, 4), (0x200, 8)], .mon, 1, false, .none, [⟨31, 0, .RO, false, .num 0x0⟩]⟩,
  -- MON_EVT_CNT
  ⟨0x1600034, [(0x4000, 4), (0x200, 8), (0x4, 2)], .mon, 2, false, .none, [⟨31, 0, .RO, false, .num 0x0⟩]⟩,
  -- MON_BIN
  ⟨0x1600100, [(0x4000, 4), (0x200, 8), (0x4, 64)], .mon, 64, false, .none, [⟨31, 0, .RO, false, .num 0x0⟩]⟩,
  -- MON_SNAP
  ⟨0x1610000, [], .mixed, 1, false, .none, [⟨31, 0, .WO, false, .num 0x0⟩]⟩,
  -- MON_SNAP_CLR
  ⟨0x1610004, [], .mixed, 1, false, .none, [⟨31, 0, .WO, false, .num 0x0⟩]⟩]

/-- The MON registers (R512). -/
def rowsMON : List RegRow := rowsMON0 ++ rowsMON1

def rowsSC0 : List RegRow := [
  -- SC_MB_CMD
  ⟨0x1800000, [(0x40, 4)], .part, 1, false, .none, [⟨7, 0, .WO, false, .num 0x0⟩]⟩,
  -- SC_MB_STATUS
  ⟨0x1800004, [(0x40, 4)], .part, 1, false, .none, [⟨15, 8, .RO, false, .num 0x0⟩, ⟨0, 0, .LV, false, .num 0x0⟩]⟩,
  -- SC_MB_ARG
  ⟨0x1800008, [(0x40, 4), (0x4, 4)], .part, 4, false, .none, [⟨31, 0, .RW, false, .num 0x0⟩]⟩,
  -- SC_MB_RES_LO
  ⟨0x1800018, [(0x40, 4)], .part, 1, false, .none, [⟨31, 0, .RO, false, .num 0x0⟩]⟩,
  -- SC_MB_RES_HI
  ⟨0x180001C, [(0x40, 4)], .part, 1, false, .none, [⟨31, 0, .RO, false, .num 0x0⟩]⟩,
  -- SC_FW_VER_LO
  ⟨0x1804000, [], .dev, 1, true, .none, [⟨31, 0, .RO, false, .num 0x0⟩]⟩,
  -- SC_FW_VER_HI
  ⟨0x1804004, [], .dev, 1, true, .none, [⟨31, 0, .RO, false, .num 0x0⟩]⟩,
  -- SC_LC
  ⟨0x1804008, [], .dev, 1, true, .none, [⟨25, 25, .LV, false, .num 0x0⟩, ⟨24, 24, .LV, false, .num 0x0⟩, ⟨23, 20, .RO, false, .fused⟩, ⟨17, 16, .RO, false, .fused⟩, ⟨15, 0, .RO, false, .num 0x0⟩]⟩,
  -- SC_AUTH
  ⟨0x180400C, [], .dev, 1, true, .none, [⟨3, 0, .RO, false, .num 0x0⟩]⟩,
  -- SC_LOG_HEAD
  ⟨0x1804010, [], .dev, 1, false, .none, [⟨31, 0, .RO, false, .num 0x0⟩]⟩,
  -- SC_EVT_CNT
  ⟨0x1804100, [(0x20, 4), (0x4, 7)], .part, 7, false, .none, [⟨31, 0, .RO, false, .num 0x0⟩]⟩,
  -- SC_LOG
  ⟨0x1808000, [(0x4, 1024)], .dev, 1, false, .none, [⟨31, 0, .RO, true, .num 0x0⟩]⟩]

/-- The SC registers (R487). -/
def rowsSC : List RegRow := rowsSC0

end RegTable
end Sys2Proof
end

