-- ==== Sys2Proof/Machine/StDram.lean ====
section
/-! DEFINITION. State of the acquisition memory controller and of the monitors (files 11 and 15 of the spec). -/

namespace Sys2Proof.Machine

/-- The controller states of R378. -/
inductive DcState where
  | disabled | training | active | selfRefresh | retrain | failed
  deriving DecidableEq, Repr

/-- A place in the DRAM of a channel (R360 to R362): rank, bank, row, and the unit in the row. -/
structure DcPlace where
  rank : Nat := 0
  bank : Nat := 0
  row  : Nat := 0
  unit : Nat := 0
  deriving DecidableEq, Repr

/-- A request at a controller or waiting in its port (R370, R378): request port, class, address, whether it writes, the
count of its arrival, whether it has been promoted (R371), and the places of its unit and of the check symbols (R361, R362). -/
structure DcReq where
  port : Nat
  cls  : Nat
  addr : Nat
  wr   : Bool
  at_  : Count
  prom : Bool := false
  data : DcPlace := {}
  check : DcPlace := {}
  deriving DecidableEq, Repr

/-- One rank (R373 to R376): its debt and how much of it is mandatory, the per-bank refreshes done of the interval being
paid and the next bank pair in turn, the count at which an interval last accrued, the MR4 multiplier code, the hold of a
panicking port (the port and when it began), MR4 above the operating range, and self-refresh. -/
structure Rank where
  debt : Nat := 0
  must : Nat := 0
  paid : Nat := 0
  next : Nat := 0
  due  : Count := 0
  mult : Nat := 0
  hold : Option (Nat × Count) := none
  hot  : Bool := false
  selfRef : Bool := true
  deriving DecidableEq, Repr

/-- A DC_TRN_CMD that runs (R384). -/
structure TrnCmd where
  op   : Nat
  rank : Nat
  bank : Nat
  arg  : Nat
  deriving DecidableEq, Repr

/-- One controller. `ceAt` is when the last DC_CE record was produced (R366); `fullFor` says that a full training of R502
runs after a failed fast retrain. -/
structure DcSt where
  st      : DcState := .disabled
  trained : Bool := false
  fullFor : Bool := false
  r0      : Rank := {}
  r1      : Rank := {}
  reqs    : List DcReq := []
  ceAt    : Option Count := none
  trn     : Option TrnCmd := none
  stopping : Bool := false
  deriving DecidableEq, Repr

/-- The result of a host's window access that waits for its channel (R365): the port, its BAR0 offset, the data of a
write, and the count of its arrival. -/
structure WinWait where
  port  : Nat
  off   : Nat
  data  : Option Word
  at_   : Count
  deriving DecidableEq, Repr

/-- The fill engine of one partition (R369). -/
structure FillSt where
  busy : Bool := false
  base : Nat := 0
  size : Nat := 0
  deriving DecidableEq, Repr

/-- A bank of statistics of a monitor (R508). -/
structure MonBank where
  low   : Int := 2147483647
  high  : Int := -2147483648
  count : Nat := 0
  under : Nat := 0
  over_  : Nat := 0
  bins  : List (Nat × Nat) := []
  deriving DecidableEq, Repr

/-- One monitor: its live bank, the alarm's state, when it last sampled, and the pending snapshot with the values whose
stamps lie at or above it (R509). -/
structure MonSt where
  live    : MonBank := {}
  alarmed : Bool := false
  lastAt  : Count := 0
  snap    : Option (Stamp × Bool) := none
  held    : List (Stamp × Int) := []
  deriving DecidableEq, Repr

end Sys2Proof.Machine
end

