-- ==== Sys2Proof/Machine/StCapture.lean ====
section
/-! DEFINITION. State of the receivers, the TDCs, the channel groups and the packers (files 01, 03 and 05 of the spec). -/

namespace Sys2Proof.Machine

/-- An edge event (R26). `tdc` is the channel number of the TDC that stamped it; `coll` holds the final level of a
collapse entry. -/
structure EdgeRec where
  stamp : Stamp
  tdc   : Nat
  rise  : Bool
  coll  : Option Bool
  coast : Bool
  err   : Bool
  deriving DecidableEq, Repr

/-- An overflow episode of one TDC (R110): the stamp of its first dropped event, and every dropped event with the level after it,
newest first. The list is empty when a relock window has swallowed the only ones (R63). -/
structure Ovf where
  first : Stamp
  drops : List (Stamp × Bool)
  deriving DecidableEq, Repr

/-- A run of auto-threshold (R16 to R19): when it started and the CH_AT_CFG value it works with. -/
structure AtRun where
  start : Count
  cfg   : Word
  deriving DecidableEq, Repr

/-- One channel: the voltages at its pins in microvolts, the receiver's output before INV, the stamp of its last trip,
the tracked level by stamp (R539, newest first), EN by stamp (R95, newest first), the EN changes not yet in force, staging
(R109, oldest first), the TDC's recorded line length and the table words found uncorrectable (R38). `lastTrip` is the earliest instant of the last stamped trip, before deskew
and zero offset, in 1/64 tu; `ovf` is the overflow in
progress, `ovfDone` the ended ones whose GAP marker is not yet written, oldest first, and `ovfs` lists the first and last dropped stamps
of past ones, newest first. -/
structure ChSt where
  vp       : Int := 0
  vn       : Int := 0
  out      : Bool := false
  lastTrip : Option (BitVec 70) := none
  lvlLog   : List (Stamp × Bool) := []
  enLog    : List (Stamp × Bool) := []
  enPend   : List (Stamp × Bool) := []
  stg      : List EdgeRec := []
  ovf      : Option Ovf := none
  ovfDone  : List Ovf := []
  ovfs     : List (Stamp × Stamp) := []
  at_      : Option AtRun := none
  lcal     : Nat := 0
  badWords : List Nat := []
  deriving DecidableEq, Repr

/-- The run states of R87. -/
inductive GrpState where
  | idle | held | wait | run | drain
  deriving DecidableEq, Repr

/-- What a marker of R162 says. -/
inductive MarkKind where
  | gap (cause : Nat) (opener fall : Bool) (mask levels : Nat) (first : Stamp) (count : Nat)
  | epoch (cause : Nat) (j : Int)
  | coastBegin
  | coastEnd
  | trig (cause cond : Nat) (err : Bool) (seq stage : Nat)
  | ovf (field : Nat)
  | finish (cause : Nat)
  | margin (field setup hold nsamp : Nat)
  deriving DecidableEq, Repr

/-- A marker waiting in a group's stream: its stamp and its class in R157. -/
structure Mark where
  stamp : Stamp
  cls   : Nat
  kind  : MarkKind
  deriving DecidableEq, Repr

/-- A STATE sample (R102, R171): its clock stamp, its value, and whether an edge event with ERR shaped it. -/
structure Sample where
  stamp : Stamp
  value : Nat
  err   : List Nat
  deriving DecidableEq, Repr

/-- A margin window of R105, by data channel: smallest setup, smallest hold, and whether the hold of the last sample
(instant `lastT`, clock stamp `lastC`) is still open. -/
structure Win where
  n     : Nat := 0
  lastC : Stamp := 0
  lastT : Stamp := 0
  setup : List (Option Nat) := List.replicate 8 none
  hold  : List (Option Nat) := List.replicate 8 none
  wait  : List Bool := List.replicate 8 false
  deriving DecidableEq, Repr

/-- An expected item of a memory-test generator (R106). -/
structure Expected where
  launch : Stamp
  byte   : Nat
  mask   : Nat
  addr   : Nat
  deriving DecidableEq, Repr

/-- The block a packer has open (R153): the stream's values at its starting point, its items and its FLAGS so far. -/
structure OpenBlk where
  base    : Stamp
  levels  : Nat
  opened  : Nat
  flags   : Nat
  first   : Stamp
  count   : Nat
  bytes   : List Byte
  prevD   : Option Nat
  deriving DecidableEq, Repr

/-- A closed block on its way to acquisition memory. `body` is the entry area; `isSeal` marks a seal block (R183). -/
structure OutBlk where
  base   : Stamp
  levels : Nat
  opened : Nat
  flags  : Nat
  count  : Nat
  body   : List Byte
  isSeal : Bool
  last   : Bool
  deriving DecidableEq, Repr

/-- A run entry being built in TIMING (R170): the value, the samples so far and the instant of the last. -/
structure TRun where
  value : Nat
  len   : Nat
  last  : Stamp
  deriving DecidableEq, Repr

/-- One channel group: its run state (R87), its earlier runs (start and stop stamps, newest first), calibration (R29),
pending stops (R139), its stream and its packer. `opened`, `openedRel` and `openedOvf` are the open DISABLED,
RELOCK and OVERFLOW gaps, the last by TDC; `vals` holds the present TIMING values, or the levels before the gaps of a STATE group;
`nextB` is the BASE that a seal block has given for the next data block (R183); `collEnds` lists the
stretches of R99 by signal, end and level. -/
structure GrpSt where
  st        : GrpState := .idle
  cw        : Count := 0
  start     : Option Stamp := none
  stop      : Option Stamp := none
  runs      : List (Stamp × Stamp) := []
  pendStops : List (Nat × Stamp) := []
  calAt     : Option Count := none
  calValid  : Bool := false
  calDue    : Bool := true
  sealed    : Bool := false
  stallSeen : Bool := false
  cmpFailed : Bool := false
  marks     : List Mark := []
  blk       : Option OpenBlk := none
  out       : Option OutBlk := none
  running   : Stamp := 0
  levels    : Nat := 0
  opened    : Nat := 0
  openedRel : Nat := 0
  openedOvf : Nat := 0
  nextB     : Option Stamp := none
  coast     : Bool := false
  nextM     : Nat := 0
  vals      : Nat := 0
  multi     : List Nat := []
  glitch    : Nat := 0
  collEnds  : List (Nat × Stamp × Bool) := []
  trun      : Option TRun := none
  qualFrom  : Option Stamp := none
  qualPos   : Stamp := 0
  samples   : List Sample := []
  win       : Win := {}
  winDone   : List Win := []
  lastEdge  : List (Option Stamp) := List.replicate 8 none
  edgeErr   : List (Nat × Stamp) := []
  expect    : List Expected := []
  ended     : Bool := false
  writes    : Nat := 0
  dataBlks  : Nat := 0
  chain     : BitVec 384 := 0
  firstSeq  : Nat := 0
  sealJob   : Bool := false
  sealWait  : Bool := false
  deriving DecidableEq, Repr

/-- A job of the sealer (R185): a data block of a sealed run with its write count and whether it holds END, or a message of
a sealed queue, by its order number. -/
inductive SealJob where
  | block (g : Fin 16) (bytes : List Byte) (seq : Nat) (last : Bool)
  | message (q : Nat) (ord : Nat) (bytes : List Byte) (seq : Nat) (stamp : Stamp)
  deriving DecidableEq, Repr

end Sys2Proof.Machine
end

