-- ==== Sys2Proof/Machine/StEngine.lean ====
section
/-! DEFINITION. State of the symbol extractors and the Moth engines (file 07 of the spec). -/

namespace Sys2Proof.Machine

/-- A symbol (R216), with whether a BIT_STUFFED extractor made it (R234). -/
structure Sym where
  stamp   : Stamp
  data    : Word
  info    : Word
  stuffed : Bool := false
  deriving DecidableEq, Repr

/-- A symbol being filled (R218): its first stamp, its bits in line order with their stuff marks, its kind flags, and
whether an edge with ERR or a collapse entry fell within it. -/
structure OpenSym where
  stamp  : Stamp
  bits   : List Bool := []
  stuff  : List Bool := []
  kflags : Nat := 0
  err    : Bool := false
  coll   : Bool := false
  deriving DecidableEq, Repr

/-- One extractor. Positions are in 1/64 tu from `ref`. `b`, `p`: the tracking loop of R220; `k`: the next bit, counted in
boundaries from `b`; `good`, `miss`: the runs of used edges of R221; `window`: the last bits of LINE_8B10B with their ERR and COLL;
`comma`: the alignment seen once (R223); `bindErr`: its channels broke the rules of R225 when its group entered RUN; `mErr`,
`mColl`: an edge with ERR, or a collapse entry, has come since the last bit. -/
structure XtSt where
  run      : Bool := false
  active   : Bool := false
  bindErr  : Bool := false
  sym      : Option OpenSym := none
  out      : List Sym := []
  prev     : Option Stamp := none
  floor    : Option Stamp := none
  lastEdge : Option Stamp := none
  idled    : Bool := false
  idlePend : Option Stamp := none
  lastStop : Option Int := none
  ref      : Stamp := 0
  synced   : Bool := false
  b        : Int := 0
  p        : Int := 0
  k        : Int := 0
  locked   : Bool := false
  good     : Nat := 0
  miss     : Nat := 0
  frame    : Bool := false
  lastRaw  : Bool := false
  runLen   : Nat := 0
  runBit   : Bool := false
  half     : Option Bool := none
  window   : List (Bool × Bool × Bool) := []
  nbits    : Nat := 0
  align    : Option Nat := none
  comma    : Option Nat := none
  rd       : Option Bool := none
  started  : Bool := false
  highBit  : Bool := false
  selOn    : Bool := false
  mErr     : Bool := false
  mColl    : Bool := false
  deriving DecidableEq, Repr

/-- A message handed to the output port (R239), with the slice its gang member worked on (R250). -/
structure OutMsg where
  slice : Nat := 0
  queue : Nat
  stamp : Stamp
  type  : Nat
  bytes : List Byte
  src   : Nat
  deriving DecidableEq, Repr

/-- A timer (R236): its deadline, and whether its event is pending. -/
structure TimerSt where
  at_  : Option Stamp := none
  pend : Bool := false
  deriving DecidableEq, Repr

/-- A stamp slot (R229). -/
structure SlotSt where
  stamp : Stamp := 0
  coast : Bool := false
  err   : Bool := false
  deriving DecidableEq, Repr

/-- Symbols lost at a full FIFO and not yet reported (R235): the stamp of the first, how many, and the first's INFO. -/
structure SymLoss where
  stamp : Stamp
  count : Nat
  info  : Word
  deriving DecidableEq, Repr

/-- One Moth engine (R229, R230, R237). `merge` holds delivered symbols not yet released into `fifo` (R233), which is the
slice buffer in a gang member; `work` is the slice a gang member works on; `hold` the messages that wait for their slice;
`goWait` is the count of a start that waits for a sleeping scratchpad (R336), `prot` a protected program (R354). -/
structure EngSt where
  st     : Nat := 0
  pc     : Nat := 0
  regs   : Vector Word 16 := Vector.replicate 16 0
  slot   : Vector SlotSt 4 := Vector.replicate 4 {}
  latch  : Option Sym := none
  sflags : Nat := 0
  buf    : Vector Word 60 := Vector.replicate 60 0
  timer  : Vector TimerSt 2 := Vector.replicate 2 {}
  link   : List Word := []
  emask  : Nat := 0
  vbase  : Word := 0
  ecause : Nat := 0
  kick   : Word := 0
  kicked : Bool := false
  crcp   : Vector Word 4 := Vector.replicate 4 0
  crcc   : Vector Nat 4 := Vector.replicate 4 0
  merge  : List Sym := []
  fifo   : List Sym := []
  loss   : Option SymLoss := none
  lossSeen : Bool := false
  dropSeen : Bool := false
  work   : Nat := 0
  hold   : List OutMsg := []
  goWait : Option Count := none
  prot   : Bool := false
  port   : List OutMsg := []
  deriving DecidableEq, Repr

/-- The gang distributor of R249, kept at its first member: the slice being cut and its own symbols so far, the last
symbols for look-back, the slices that still take look-ahead, and what waits until an earlier slice of its member is complete. -/
structure GangSt where
  slice : Nat := 0
  own   : Nat := 0
  hist  : List Sym := []
  ahead : List (Nat × Nat) := []
  held  : List (Nat × Sym) := []
  deriving DecidableEq, Repr

end Sys2Proof.Machine
end

