-- ==== Sys2Proof/Machine/StHost.lean ====
section
/-! DEFINITION. State of the host ports (file 12 of the spec): link, configuration space, MSI-X, the writes issued and not
yet acknowledged, and the reads outstanding. -/

namespace Sys2Proof.Machine

/-- What a posted write is for (R412): slots of a ring in a given life of it; a shadow of a ring with the index it
carries and, for each queue that fed it, how many messages it covers; the head shadow of a host stream; a part of a
READOUT or a digest of a CMD ring; an MSI-X message. -/
inductive TxKind where
  | slots (q life : Nat)
  | shadow (q life : Nat) (tail : Word) (src : List (Nat × Nat))
  | stream (g life : Nat) (head : Word)
  | readout (q : Nat)
  | digest (q : Nat)
  | msix (v : Nat)
  deriving DecidableEq, Repr

/-- A posted write: its address and bytes. -/
structure Tx where
  kind  : TxKind
  addr  : Nat
  bytes : List Byte
  poison : Bool := false
  deriving DecidableEq, Repr

/-- Who asked for host memory (R404): a descriptor of a CMD ring at an index, a chunk of a host stream, a part of a LOAD
source, a value block of SHARED. -/
inductive Want where
  | cmd (q : Nat) (index : Word)
  | chunk (g : Nat) (index : Word)
  | load
  | value (q : Nat)
  deriving DecidableEq, Repr

/-- A read of host memory: the bytes from `off` of what is wanted. -/
structure Read where
  want  : Want
  addr  : Nat
  off   : Nat
  len   : Nat
  life  : Nat := 0
  again : Bool := false
  deriving DecidableEq, Repr

/-- A read that is outstanding under a tag, since a count. -/
structure Tag where
  tag  : Nat
  at_  : Count
  read : Read
  got  : List Byte := []
  deriving DecidableEq, Repr

/-- One host port. -/
structure PortSt where
  perst    : Bool := true
  link     : Bool := false
  speed    : Nat := 0
  width    : Nat := 0
  cfg      : List (Nat × Word) := []
  d3       : Bool := false
  fenced   : Bool := false
  grace    : Option Count := none
  tx       : List Tx := []
  wants    : List Read := []
  tags     : List Tag := []
  retired  : List (Nat × Count) := []
  nextTag  : Nat := 0
  msix     : List (Nat × Word) := []
  pba      : List Nat := []
  attached : Bool := false
  version  : Nat := 0
  driver   : BitVec 64 := 0
  dseq     : Nat := 0
  win      : List (Nat × Word) := []
  winSeq   : Nat := 0
  snapping : Bool := false
  aer      : Word := 0#32
  deriving DecidableEq, Repr

end Sys2Proof.Machine
end

