-- ==== Sys2Proof/Machine/StInterval.lean ====
section
/-! DEFINITION. State of the interval units (file 06 of the spec). -/

namespace Sys2Proof.Machine

/-- A bank of statistics (R203, R204), its bins by number. -/
structure IuBank where
  count : Nat := 0
  sum   : Int := 0
  sq    : Nat := 0
  low   : Int := 9223372036854775807
  high  : Int := -9223372036854775808
  under : Nat := 0
  over_  : Nat := 0
  bins  : List (Nat × Nat) := []
  deriving DecidableEq, Repr

/-- A stop held (R198): its edge, whether it lay in the window of a decided start, whether it has been judged under R194. -/
structure IuStop where
  e      : EdgeRec
  inWin  : Bool := false
  judged : Bool := false
  deriving DecidableEq, Repr

/-- An open gate (R200, R201): its opening edge, the edges counted, the last of them, and whether a collapse entry was. -/
structure IuGate where
  o    : EdgeRec
  n    : Nat := 0
  prev : Stamp
  coll : Bool
  deriving DecidableEq, Repr

/-- The settings that a unit works with from an enable stamp on (R189, R190): its registers as they stood when EN was written. -/
structure IuCfg where
  ctl   : Word := 0
  wlo   : Word := 0
  whi   : Word := 0
  gateN : Word := 0
  hist  : Word := 0
  queue : Word := 0
  ofs   : BitVec 64 := 0
  deriving DecidableEq, Repr

/-- One interval unit. `pend` holds the enable stamps ahead with their settings, and the disable stamps; `cfgs` the settings by enable
stamp, newest first, the older ones while starts below it wait; starts and stops are in order of stamp. `failNext` says that the next update of the statistics fails twice. -/
structure IuSt where
  pend     : List (Stamp × Option IuCfg) := []
  cfgs     : List (Stamp × IuCfg) := []
  active   : Bool := false
  enS      : Stamp := 0
  disS     : Option Stamp := none
  starts   : List EdgeRec := []
  stops    : List IuStop := []
  evicted  : Bool := false
  gate     : Option IuGate := none
  live     : IuBank := {}
  snap     : Option (Stamp × Bool) := none
  fault    : Bool := false
  failNext : Bool := false
  dropSeen : Bool := false
  recSeen  : Bool := false
  deriving DecidableEq, Repr

end Sys2Proof.Machine
end

