-- ==== Sys2Proof/Machine/StQueue.lean ====
section
/-! DEFINITION. State of the queue manager (file 08 of the spec): the OBS queues and the rings. Descriptor words that
software reads live in the register file. -/

namespace Sys2Proof.Machine

/-- The states of R255; `pend t` is an enabled queue whose enable stamp is `t` (R256): it is ON from then on. -/
inductive QState where
  | off
  | pend (t : Stamp)
  | drain
  deriving DecidableEq, Repr

/-- What a stored message is: one of a producer, or a LOSS, EPOCH or SEAL record of the queue manager. -/
inductive QKind where
  | msg | loss | epoch | seal
  deriving DecidableEq, Repr

/-- A message held by an OBS queue: its records of 32 bytes (an empty list for a record that is spilled, R262), its place
in the order of acceptance of the whole manager (R263), its stamp, the number of its first slot since the enable, whether it
has been sent to its ring, whether it waits to be hashed (R278), whether its stored words are damaged and that has been told (R268), and the count
at which it was accepted (R507). -/
structure QMsg where
  recs : List (List Byte)
  ord  : Nat
  ts   : Stamp := 0
  pos  : Nat := 0
  kind : QKind := .msg
  seq  : Nat := 0
  sent : Bool := false
  hash : Bool := false
  bad  : Bool := false
  told : Bool := false
  at_  : Count := 0
  deriving DecidableEq, Repr

/-- The LOSS record that still grows (R267): the order number of its message, and its first and last stamps and count. -/
structure LossRun where
  ord   : Nat
  first : Stamp
  last  : Stamp
  count : Nat
  cause : Nat
  deriving DecidableEq, Repr

/-- What a SEAL record covers (R279): the SEQ of its first and last message, the stamp of the last, INDEX and HASH, and the
generation of the key. -/
structure SealNote where
  sFirst : Nat
  sLast  : Nat
  stamp  : Stamp
  index  : Nat
  hash   : BitVec 384
  gen    : Nat
  deriving DecidableEq, Repr

/-- One OBS queue. `next` is the number of slots stored since the enable; `res` the resident pages and `place` the banks that hold them, with how many; `spilled` lists the pages
in the spill region, each with its place there; `run` is the LOSS record that may still grow, `owed` a run of lost messages
whose LOSS record has found no room yet; `sealAsk` holds while SEAL = 1 waits for the enable stamp (R277), `sealed` the generation of the seal key of a sealed queue; `sealDue` lists the
SEAL records that wait for room. -/
structure QSt where
  st      : QState := .off
  next    : Nat := 0
  msgs    : List QMsg := []
  last8   : List (List Byte) := []
  run     : Option LossRun := none
  owed    : Option LossRun := none
  lossSeen : Bool := false
  res     : Nat := 0
  place   : List (Nat × Nat) := []
  spilled : List (Nat × Nat) := []
  sealAsk : Bool := false
  sealed  : Option Nat := none
  chain   : BitVec 384 := 0
  hashN   : Nat := 0
  since   : Nat := 0
  sFirst  : Nat := 0
  sLast   : Nat := 0
  sStamp  : Stamp := 0
  sealDue : List SealNote := []
  deriving DecidableEq, Repr

/-- A completion of a CMD ring kept by its duplicate cache (R421). -/
structure CacheEnt where
  seq    : Nat
  status : Nat
  result : BitVec 64
  deriving DecidableEq, Repr

/-- One ring. `life` counts its enables; `ackT` is the highest acknowledged TAIL of R412; `modN` and `modAt` serve R273;
`cpl` holds the completions kept for a CPL ring and whether they are sent; `shown` is the HEAD that a CMD ring's shadow told last (R272); `fetchAt` is the index of the next descriptor
to ask for, `asked` those asked for and not yet here, `early` those that came before an older one, by index, `fetched` the descriptors that wait to execute; `res` are the
completion slots reserved (R276); `value` holds the bytes of a SHARED value block that have come, `asks` counts such blocks;
`got` is how many bytes the READOUT in front has written (R365, R425). -/
structure RingSt where
  st      : QState := .off
  life    : Nat := 0
  ackT    : Word := 0#32
  modN    : Nat := 0
  modAt   : Option Count := none
  cpl     : List (List Byte × Bool) := []
  shown   : Word := 0#32
  fetchAt : Word := 0#32
  fetched : List (List Byte) := []
  early   : List (Nat × List Byte) := []
  cache   : List CacheEnt := []
  lastSeq : Nat := 0
  value   : List (Nat × List Byte) := []
  asks    : Nat := 0
  busy    : Bool := false
  got     : Nat := 0
  deriving DecidableEq, Repr

/-- A message that waits at the matchers (R129): partition, queue, type, stamp, COAST, ERR and payload bytes 0 to 7. -/
structure MmMsg where
  part    : Fin 4
  queue   : Nat
  type    : Nat
  stamp   : Stamp
  coast   : Bool
  err     : Bool
  payload : BitVec 64
  deriving DecidableEq, Repr

/-- The queue manager. -/
structure QmSt where
  q    : List (Nat × QSt) := []
  ring : List (Nat × RingSt) := []
  ord  : Nat := 0
  mm   : List MmMsg := []
  deriving DecidableEq, Repr

end Sys2Proof.Machine
end

