-- ==== Sys2Proof/Machine/StSram.lean ====
section
/-! DEFINITION. State of the on-chip memories and their march tests (file 10 of the spec). -/

namespace Sys2Proof.Machine

/-- What the model keeps of one array besides its words: Diapause (R335 to R337), the count at which a wake began, out of
service (R351), when it last reported a corrected error (R326), and the spares taken, rows first (R350): spare number,
column, and what it replaces. -/
structure ArrSt where
  dia     : Bool := false
  wakeAt  : Option Count := none
  offline : Bool := false
  ceAt    : Option Count := none
  spares  : List (Nat × Bool × Nat) := []
  deriving DecidableEq, Repr

/-- One partition's march test (R341 to R348): memory and index, the slices still to do with their deferrals, whether the
slice in front is under way, and the counts. -/
structure MtSt where
  busy    : Bool := false
  mem     : Nat := 0
  index   : Nat := 0
  destr   : Bool := false
  repair  : Bool := false
  slices  : List (Nat × Nat) := []
  tested  : Nat := 0
  failed  : Nat := 0
  skipped : Nat := 0
  defers  : Nat := 0
  failAt  : Option Nat := none
  deriving DecidableEq, Repr

/-- The Cocoon (R352 to R354): whether a wipe is under way and its cause. Its contents are the key generation the sealer
holds (`State.sealKey`) and the image-decryption context. -/
structure CocoonSt where
  wiping : Bool := false
  cause  : Nat := 0
  verifyFail : Bool := false
  deriving DecidableEq, Repr

end Sys2Proof.Machine
end

