-- ==== Sys2Proof/Machine/StStim.lean ====
section
/-! DEFINITION. State of the stimulus generators (file 09 of the spec). -/

namespace Sys2Proof.Machine

/-- The states of R304. -/
inductive SgState where
  | idle | wait | run | bound | cal
  deriving DecidableEq, Repr

/-- Who asked for a jump (R301): a write of SG_JUMP, the front command of a CMD ring, a sequencer. -/
inductive JSrc where
  | write
  | cmd (q : Nat)
  | seq
  deriving DecidableEq, Repr

/-- A jump request and its arrival stamp (R301). -/
structure JReq where
  at_ : Stamp
  src : JSrc
  deriving DecidableEq, Repr

/-- Prefetched bytes of one visit of an entry, from byte offset `from_` of the segment (R294). -/
structure FifoSeg where
  vis   : Nat
  from_ : Nat
  bytes : List Byte
  deriving DecidableEq, Repr

/-- Where the prefetcher stands in play order (R294): visit, entry, byte offset, loop counters there, and the sample periods
from the start of the run to the start of the visit. -/
structure Fetch where
  vis   : Nat := 0
  entry : Nat := 0
  off   : Nat := 0
  inner : Nat := 0
  outer : Nat := 0
  at_   : Nat := 0
  deriving DecidableEq, Repr

/-- The host stream of a generator (R308 to R310): chunks asked for, the parts of chunks that came (chunk, offset, bytes),
the stream buffer with the stream position of its first sample, the position at which the next HOST segment starts, the life
of the stream, whether it stopped, and the chunks since the last interrupt; `ackHead` the HEAD of the last acknowledged
shadow, `again` the chunks from HEAD on that a fence makes the stream read again though it has taken them (R412, R413). -/
structure StrSt where
  asked : Nat := 0
  parts : List (Nat × Nat × List Byte) := []
  buf   : List Byte := []
  base  : Nat := 0
  pos   : Nat := 0
  life  : Nat := 0
  err   : Bool := false
  intN  : Nat := 0
  ackHead : Word := 0#32
  again : Nat := 0
  deriving DecidableEq, Repr

/-- One generator. `cw` is the count of its accepted start and `syncAt` the grid instant a SYNC gave it (R306); `stopAt` the
stamp from which a HALT stops it (R307); `segAt` the grid instant of the present segment's first sample, `played` the
sequence index of that sample, `okFrom` the offset from which it plays without a break; `closed` and `taken` the jump latch
(R300); `jq` requests whose arrival lies ahead, `jump` the pending one; `jFrom` the count from which and `jLast` the stamp above
which actions of the source sequencer are requests (R301); `starve` the grid instant at which starvation began,
the offset of its sample, and the sequence index (R311); `lastVal` the last sample before the present segment; `bad` the
offsets from the start at which bad data will launch; `opNext` the next operation of an MTG segment whose item is not yet
delivered (R319). -/
structure SgSt where
  st      : SgState := .idle
  cw      : Count := 0
  syncAt  : Option Nat := none
  stopAt  : Option Stamp := none
  master  : Nat := 0
  entry   : Nat := 0
  vis     : Nat := 0
  runAt   : Nat := 0
  segAt   : Nat := 0
  played  : Nat := 0
  okFrom  : Nat := 0
  closed  : Bool := false
  taken   : Bool := false
  jq      : List JReq := []
  jump    : Option JReq := none
  jFrom   : Count := 0
  jLast   : Option Stamp := none
  starve  : Option (Nat × Nat) := none
  lastVal : Nat := 0
  fifo    : List FifoSeg := []
  fetch   : Fetch := {}
  bad     : List Nat := []
  opNext  : Nat := 0
  str     : StrSt := {}
  cal     : Option Nat := none
  deriving DecidableEq, Repr

/-- A stretch of the grid with one sample period (R290): its first instant, the sum of the periods before it and its period,
both in 2^-32 tu. -/
structure GBase where
  m   : Nat
  acc : Int
  per : Nat
  deriving DecidableEq, Repr

/-- The sample grid (R289): whether it is set, O, and its stretches, newest first. -/
structure Grid where
  on    : Bool := false
  o     : Stamp := 0
  bases : List GBase := []
  deriving DecidableEq, Repr

end Sys2Proof.Machine
end

