-- ==== Sys2Proof/Machine/StSys.lean ====
section
/-! DEFINITION. State of the power governor, the faults, the configuration checker and the system controller (files 13, 14
and 15 of the spec). -/

namespace Sys2Proof.Machine

/-- The power governor (R489 to R499). `x` is the common fraction in 1/65,536, `xFrom` the count since which it has been
above 0, `zeroFrom` that since which it has been 0; `coolFrom` the count since which every sensor reads 103 °C or less during
thermal throttling, `thS` the sensor that began it, and `hot` the sensors whose last sample reached 115 °C; `run` the
direction of a run of VCORE steps; `dark` says that the fault THERMAL has taken everything down,
with pins in high impedance (R504). -/
structure PwrSt where
  budget   : Nat := 4000
  x        : Nat := 0
  xFrom    : Option Count := none
  zeroFrom : Option Count := some 0
  over_     : Bool := false
  thermal  : Bool := false
  coolFrom : Option Count := none
  thS      : Nat := 0
  hot      : List Nat := []
  run      : Int := 0
  pmbFail  : Bool := false
  dark     : Bool := false
  deriving DecidableEq, Repr

/-- The configuration checker of one partition (R449 to R453). `st` is the code of CFGI_STATUS.STATE; `value` says which
commit runs, and `fresh` that the pass under way started after it; `known` says that a reference has been committed;
`damage` lists the particle strikes since it was taken, as differences by address (R450 moves the reference with every other
change); `shift` is the difference that VALUE gave the reference; `blkKnown` says that block references exist. -/
structure CfgiSt where
  st       : Nat := 0
  value    : Bool := false
  fresh    : Bool := false
  known    : Bool := false
  damage   : List (Nat × Word) := []
  shift    : Word := 0#32
  blkKnown : Bool := false
  mismatch : Bool := false
  blk      : Nat := 0
  deriving DecidableEq, Repr

/-- What is fused at manufacture (R442, R466, R467, R482, R484): the life-cycle state and the reprovisions left, the device
identifier, Vendor ID, Subsystem Vendor ID and Subsystem ID, the image-key and return-key hashes, and the lowest firmware
version. -/
structure Fuses where
  lc      : Nat := 0
  reprov  : Nat := 15
  device  : List Byte := List.replicate 16 0#8
  ids     : Nat × Nat × Nat := (0, 0, 0)
  imgHash : BitVec 384 := 0
  retHash : BitVec 384 := 0
  fwMin   : Nat := 0
  deriving DecidableEq, Repr

/-- A record of a CONFIG plaintext (R464). -/
structure CfgRec where
  kind  : Nat
  index : Nat
  body  : List Byte
  deriving DecidableEq, Repr

/-- A section of an image: its type, its partition, its plaintext and whether it was encrypted (R460, R461). -/
structure Section_ where
  type  : Nat
  part  : Nat
  plain : List Byte
  enc   : Bool
  deriving DecidableEq, Repr

/-- An image as staged and checked (R459). -/
structure Image where
  full    : Bool
  part    : Fin 4
  version : Nat
  minor   : Nat
  major   : Nat
  mapHash : List Byte
  secs    : List Section_
  deriving DecidableEq, Repr

/-- Who asked for a load (R470): the front command of a CMD ring, a mailbox, or start-up with an image slot. -/
inductive LoadBy where
  | cmd (q : Nat)
  | mail (p : Nat)
  | start (slot : Nat)
  deriving DecidableEq, Repr

/-- Where an image comes from: flash, host memory, host scratch. -/
inductive LoadSrc where
  | flash | host | scratch
  deriving DecidableEq, Repr

/-- A load under way (R470): the image status before it, the bytes that came from
host memory by offset, and the image once it is validated; `life` numbers the loads. -/
structure Load where
  by_   : LoadBy
  src   : LoadSrc
  full  : Bool
  part  : Fin 4
  addr  : Nat
  len   : Nat
  life  : Nat := 0
  prev  : Vector Nat 4 := Vector.replicate 4 0
  parts : List (Nat × List Byte) := []
  image : Option Image := none
  deriving DecidableEq, Repr

/-- A mailbox service that runs (R479), with the status its acceptance gave: 0 while it is legal. -/
structure MailJob where
  svc  : Nat
  args : List Word
  bad  : Nat := 0
  deriving DecidableEq, Repr

/-- The system controller: its fuses, the boot flash, the provisioning record in force, the firmware version, the load under
way, image status by partition (0 none, 1 loading, 2 loaded), whether a full image is loaded and its PMAP, the retained
CONFIG records by partition (R471), running services, the partitions whose
PERST# waits for the end of a load with whether it has been released since, whether a tamper source has acted since PORST_N, the life-cycle
state at PORST_N, progress of start-up (march, zeroing, no image slot left) and the level of TAMPER_N.
`imgVer` and `ifVer` are the image version and the interface version of the image that covers a partition. Restored keys are
`State.sealKey`. -/
structure ScSt where
  fuse     : Fuses := {}
  flash    : List (Nat × Byte) := []
  flashLen : Nat := 16777216
  prov     : Option (List Byte) := none
  fwVer    : Nat := 0
  load     : Option Load := none
  loads    : Nat := 0
  img      : Vector Nat 4 := Vector.replicate 4 0
  loaded   : Bool := false
  pmap     : List Byte := []
  imgVer   : Vector Nat 4 := Vector.replicate 4 0
  ifVer    : Vector Nat 4 := Vector.replicate 4 0
  kept     : Vector (List CfgRec) 4 := Vector.replicate 4 []
  mail     : Vector (Option MailJob) 4 := Vector.replicate 4 none
  perst    : List (Fin 4 × Bool) := []
  tampered : Bool := false
  lcAt     : Nat := 0
  marched  : Bool := false
  zeroed   : Bool := false
  noImage  : Bool := false
  tamperIn : Bool := false
  deriving DecidableEq, Repr

end Sys2Proof.Machine
end

