-- ==== Sys2Proof/Machine/StTime.lean ====
section
/-! DEFINITION. State of the timebase, its PLLs, the ramp, SYNC and PTM (file 02 of the spec). Registers that software
reads live in the register file; what is here is the state behind them. -/

namespace Sys2Proof.Machine

/-- The settings of TBPLL in force: the values the last accepted TB_APPLY staged (R48, R53, R78). -/
structure PllSet where
  lockCtl : Word := 0x00040032#32
  refCtl  : Word := 0x4#32
  seed    : Word := 0x13579BDF#32
  deriving DecidableEq, Repr

/-- The ramp generator (R69). `seg` is the segment in progress, `upd` the updates done in it, `from_` the offset at its
start, `num` / `den` the present FCW offset, `at_` the count of its last update. -/
structure Ramp where
  run      : Bool := false
  waitSync : Bool := false
  held     : Bool := false
  seg      : Nat := 0
  upd      : Nat := 0
  from_    : Int := 0
  num      : Int := 0
  den      : Nat := 1
  at_      : Count := 0
  deriving DecidableEq, Repr

/-- A PLL that acquires lock (R48, R66): the count from which its consecutive good cycles can run, and LOCK_N as it was taken. -/
structure Acq where
  from_ : Count
  n     : Nat
  deriving DecidableEq, Repr

/-- One DRAM quadrant's PLL and its recovery (R76): the declaration from which the interruption runs and the last declaration,
whether WCK and CK are gated by an acknowledgement or since power-up, which controllers have acknowledged self-refresh. -/
structure Dpll where
  lock  : Bool := false
  lolAt : Option Count := none
  lossAt : Option Count := none
  gated : Bool := true
  acks  : List Nat := []
  deriving DecidableEq, Repr

/-- The timebase. `spare` says that the spare oscillator is locked (R61), `sgEver` that SGPLL has locked before,
`acq` the acquisitions of DPLL0 to DPLL3 and SGPLL and
`spareAcq` that of the spare (R48), `divFrom` the first rising edge of the restarted dividers (R73), `syncOutAt` when SYNC_OUT
last rose, `ownPulse` that a fired pulse waits for its REF_IN edge, `ownOut` that one has left and is not yet sampled (R74),
`ptmAt` the count of each port's last PTM dialogue (R79). `ever` is EVER_LOCKED (R54); `jlog` lists the epoch stamps and jumps of relock boundaries, newest
first (R65); `gaps` lists the relock windows V0, V1 (R63); `coastLog` lists the stamps at which COAST changed, newest first (R59). -/
structure TimeSt where
  count     : Count := 0
  ever      : Bool := false
  lock      : Bool := false
  coast     : Bool := false
  relocking : Bool := false
  refOk     : Bool := false
  vcoB      : Bool := false
  freq      : Nat := 0
  monFreq   : Nat := 0
  inForce   : PllSet := {}
  lfsr      : Word := 0#32
  coastFrom : Count := 0
  applyAt   : Option Count := none
  jlog      : List (Stamp × Int) := []
  window    : Option (Stamp × Stamp) := none
  gaps      : List (Stamp × Stamp) := []
  coastLog  : List (Stamp × Bool) := []
  lolSusp   : Option Count := none
  dpll      : Vector Dpll 4 := Vector.replicate 4 {}
  sgLock    : Bool := false
  sgFcw     : Word := 0x40000000#32
  sgCtl     : Word := 0#32
  ramp      : Ramp := {}
  spare     : Bool := false
  sgEver    : Bool := false
  acq       : Vector (Option Acq) 5 := Vector.replicate 5 none
  spareAcq  : Option Acq := none
  divFrom   : Option Stamp := none
  syncOutAt : Option Stamp := none
  ownPulse  : Bool := false
  ownOut    : Bool := false
  syncAt    : List Stamp := []
  ptmT1     : Vector (Option Stamp) 4 := Vector.replicate 4 none
  ptmAt     : Vector (Option Count) 4 := Vector.replicate 4 none
  deriving DecidableEq, Repr

end Sys2Proof.Machine
end

