-- ==== Sys2Proof/Machine/StTrigger.lean ====
section
/-! DEFINITION. State of the trigger sequencers, their resources and TRIG_IO (file 04 of the spec). -/

namespace Sys2Proof.Machine

/-- The sequencer states of R135. -/
inductive SeqState where
  | idle | armed | holdoff | run | post | done
  deriving DecidableEq, Repr

/-- What a storage qualifier level follows from a stamp on (R145): a fixed level, or a comparator. -/
inductive SqSrc where
  | const (b : Bool)
  | follow (pc : Nat)
  deriving DecidableEq, Repr

/-- A hit (R115): its source code, its stamp, its flags, and the sequencers for which it came late (R130). -/
structure Hit where
  src   : Nat
  stamp : Stamp
  coast : Bool
  err   : Bool
  late  : List Nat
  deriving DecidableEq, Repr

/-- One sequencer. `pos` is the stamp up to which its decisions are taken; `ended` says that the counter has passed T + POST,
so that the sequencer shows DONE while it still decides for the stamps below (R130, R135, R138); the logs are newest first, each entry with
its stamp and its launch count (R149): the storage qualifier (R145), trigger and PULSE events (`true` for a trigger), and the armed level
of R149. -/
structure SeqSt where
  st     : SeqState := .idle
  stage  : Nat := 0
  entry  : Stamp := 0
  pos    : Stamp := 0
  arm    : Option Stamp := none
  trig   : Stamp := 0
  ended  : Bool := false
  err    : Bool := false
  lateSeen : Bool := false
  sqLog  : List (Stamp × Count × SqSrc) := []
  evLog  : List (Stamp × Count × Bool) := []
  armLog : List (Stamp × Count × Bool) := []
  deriving DecidableEq, Repr

/-- One pattern comparator: EN in force, its level, the pending ENTER of R121 (stamp, COAST, ERR) and its level by
stamp, newest first. -/
structure PcSt where
  en    : Bool := false
  level : Bool := false
  enter : Option (Stamp × Bool × Bool) := none
  log   : List (Stamp × Bool) := []
  deriving DecidableEq, Repr

/-- One interval qualifier: the last qualifying edges (stamp, COAST, ERR) and the open timeouts of R123. -/
structure IqSt where
  en    : Bool := false
  lastA : Option (Stamp × Bool × Bool) := none
  lastB : Option (Stamp × Bool × Bool) := none
  tmo   : List (Stamp × Bool × Bool) := []
  deriving DecidableEq, Repr

/-- One counter (R125 to R128): its 48-bit value, the start of the present running interval of a TIME counter, whether
it holds at LIMIT, its fault, and the EN changes by stamp, newest first. -/
structure CtSt where
  value : Nat := 0
  from_ : Option Stamp := none
  full  : Bool := false
  fault : Bool := false
  enLog : List (Stamp × Bool) := []
  deriving DecidableEq, Repr

/-- The resources whose EN acts at a stamp (R117). -/
inductive ResKind where
  | pc | iq | ct | mm
  deriving DecidableEq, Repr

/-- What waits to be taken in stamp order by the comparators, the qualifiers, the STATE samplers and the extractors. -/
inductive Flow where
  | enable (k : ResKind) (n : Nat) (en : Bool)
  | open_ (g : Nat)
  | level (c : Nat) (b : Bool)
  | edge (e : EdgeRec)
  | close (g : Nat)
  | winEnd (g : Nat)
  | chEn (c : Nat) (en : Bool)
  | relock (v1 : Stamp)
  | clk (g : Nat) (e : EdgeRec)
  | sample (g : Nat) (c : Stamp) (e : EdgeRec)
  | xsel (x : Nat) (e : EdgeRec)
  | xsample (x : Nat) (c : Stamp) (e : EdgeRec)
  deriving DecidableEq, Repr

/-- The trigger block. `lvl` holds the levels of R119; `flow` waits in stamp order; `hits` holds the produced hits,
newest first; `enPend` holds EN changes whose stamp the counter has not reached, and `mmLog` the EN of each matcher by stamp, newest
first. -/
structure TrgSt where
  lvl     : BitVec 128 := 0
  flow    : List (Stamp × Flow) := []
  hits    : List Hit := []
  enPend  : List (Stamp × ResKind × Nat × Bool) := []
  mmLog   : Vector (List (Stamp × Bool)) 64 := Vector.replicate 64 []
  seq     : Vector SeqSt 8 := Vector.replicate 8 {}
  pc      : Vector PcSt 64 := Vector.replicate 64 {}
  iq      : Vector IqSt 32 := Vector.replicate 32 {}
  ct      : Vector CtSt 32 := Vector.replicate 32 {}
  route   : Vector Word 16 := Vector.replicate 16 0
  ball    : BitVec 16 := 0
  out     : BitVec 16 := 0
  deriving DecidableEq, Repr

end Sys2Proof.Machine
end

