-- ==== Sys2Proof/Machine/State.lean ====
section
/-! DEFINITION. The state of the XF7128 and its value after reset. Plain data: every field is a number, a list, a record
or one of the closed types above. -/

namespace Sys2Proof.Machine

/-- The partition map in force (R465), resource by resource. -/
structure PMap where
  grp : Vector (Fin 4) 16 := Vector.replicate 16 0
  seq : Vector (Fin 4) 8 := Vector.replicate 8 0
  pc  : Vector (Fin 4) 64 := Vector.replicate 64 0
  iq  : Vector (Fin 4) 32 := Vector.replicate 32 0
  ct  : Vector (Fin 4) 32 := Vector.replicate 32 0
  mm  : Vector (Fin 4) 64 := Vector.replicate 64 0
  iu  : Vector (Fin 4) 16 := Vector.replicate 16 0
  sg  : Vector (Fin 4) 8 := Vector.replicate 8 0
  me  : Vector (Fin 4) 256 := Vector.replicate 256 0
  bank : Vector (Fin 4) 32 := Vector.replicate 32 0
  deriving DecidableEq, Repr

/-- A partition's event store (R275): the records it holds, oldest first, the number of them sent to a ring and not yet
acknowledged (R412), and the number lost since it was last full. -/
structure EvStore where
  recs : List (List Byte) := []
  sent : Nat := 0
  lost : Nat := 0
  deriving DecidableEq, Repr

/-- What an access answers its master (R432, R430): data, data in a poisoned TLP, or an error. -/
inductive Answer where
  | data (w : Word)
  | poisoned (w : Word)
  | abort
  | unsupported
  deriving DecidableEq, Repr

structure State where
  regs    : List (Nat × Word) := []
  fixed   : List (Nat × Word) := []
  latch   : List (Nat × Word) := []
  owner   : Fin 4 := 0
  pmap    : PMap := {}
  free    : Nat := 0
  tb      : TimeSt := {}
  ch      : Vector ChSt 128 := Vector.replicate 128 {}
  grp     : Vector GrpSt 16 := Vector.replicate 16 {}
  trg     : TrgSt := {}
  iu      : Vector IuSt 16 := Vector.replicate 16 {}
  xt      : Vector XtSt 128 := Vector.replicate 128 {}
  eng     : Vector EngSt 256 := Vector.replicate 256 {}
  gang    : List (Nat × GangSt) := []
  sg      : Vector SgSt 8 := Vector.replicate 8 {}
  grid    : Grid := {}
  sram    : List (Nat × Word) := []
  sramBad : List Nat := []
  arr     : List (Nat × ArrSt) := []
  mt      : Vector MtSt 4 := Vector.replicate 4 {}
  resident : List (Nat × Nat × Nat) := []
  cocoon  : CocoonSt := {}
  asleep  : List Part := []
  evt     : Vector EvStore 4 := Vector.replicate 4 {}
  mem     : List (Nat × Byte) := []
  bad     : List Nat := []
  dcMap   : List Nat := []
  dc      : Vector DcSt 16 := Vector.replicate 16 {}
  fill    : Vector FillSt 4 := Vector.replicate 4 {}
  winWait : List WinWait := []
  resp    : List (Master × Answer) := []
  locked  : List Nat := []
  mon     : Vector MonSt 32 := Vector.replicate 32 {}
  failed  : List Nat := []
  phase   : Nat := 0
  loading : Bool := false
  qm      : QmSt := {}
  port    : Vector PortSt 4 := Vector.replicate 4 {}
  sealQ   : List SealJob := []
  sealKey : Option Nat := none
  pwr     : PwrSt := {}
  cfgi    : Vector CfgiSt 4 := Vector.replicate 4 {}
  sc      : ScSt := {}
  faults  : List (Nat × Nat × Stamp) := []
  pending : List Instr := []
  deriving DecidableEq, Repr

/-- Why a step can stop. -/
inductive Fault where
  /-- Raised by a command whose operands are not well-formed (WellFormed.lean). Safe: no such command exists. -/
  | illFormed
  deriving DecidableEq, Repr

/-- Why a command has no meaning in the model. -/
inductive Refusal where
  /-- Raised by an arm of `exec` that has no meaning yet. Safe. -/
  | notModelled (mnemonic : String)
  deriving DecidableEq, Repr

/-- The block right after the assertion of PORST_N. -/
def State.reset : State := {}

end Sys2Proof.Machine
end

