-- ==== Sys2Proof/Machine/Tab.lean ====
section
/-! DEFINITION. Sparse tables: lists of (key, value) pairs with strictly rising keys, in which no entry equals what an
unlisted key reads as. They hold the register file, the memories and the queues, so that equal contents are equal data. -/

namespace Sys2Proof.Tab

variable {α : Type}

/-- The value at key `k`; an unlisted key reads as `d k`. -/
def get (d : Nat → α) (t : List (Nat × α)) (k : Nat) : α :=
  match t with
  | [] => d k
  | (k', v) :: r => if k' = k then v else get d r k

/-- Put a pair before the first entry with a larger key. -/
def insert (t : List (Nat × α)) (k : Nat) (v : α) : List (Nat × α) :=
  match t with
  | [] => [(k, v)]
  | (k', v') :: r => if k < k' then (k, v) :: (k', v') :: r else (k', v') :: insert r k v

/-- The table without key `k`. -/
def erase (t : List (Nat × α)) (k : Nat) : List (Nat × α) :=
  match t with
  | [] => []
  | (k', v) :: r => if k' = k then erase r k else (k', v) :: erase r k

/-- Write `v` at key `k`; writing what an unlisted key reads as removes the entry. -/
def set [DecidableEq α] (d : Nat → α) (t : List (Nat × α)) (k : Nat) (v : α) : List (Nat × α) :=
  if v = d k then erase t k else insert (erase t k) k v

/-- Strictly rising keys, none of them below `lo`. -/
def sortedFrom (lo : Nat) (t : List (Nat × α)) : Bool :=
  match t with
  | [] => true
  | (k, _) :: r => decide (lo ≤ k) && sortedFrom (k + 1) r

/-- The canonical form: keys strictly rising, no entry equal to what an unlisted key reads as. -/
def wf [DecidableEq α] (d : Nat → α) (t : List (Nat × α)) : Bool :=
  sortedFrom 0 t && t.all (fun e => decide (e.2 ≠ d e.1))

end Sys2Proof.Tab
end

