-- ==== Sys2Proof/Machine/Ops.lean ====
section
/-! DEFINITION. The shared operations: finding a register in the tables, reading and writing the register file, whose
resource it is (R434), the clock and the stamps, updates of one unit, and event records (R443 to R446). -/

namespace Sys2Proof

/-- The indexes of the element of an array of registers that lies at offset `off`. -/
def RegTable.indexes : List (Nat × Nat) → Nat → Option (List Nat)
  | [], off => if off = 0 then some [] else none
  | (st, n) :: r, off => if off / st < n then (RegTable.indexes r (off % st)).map (off / st :: ·) else none

/-- The row's element at address `a`: its indexes, outermost first. -/
def RegRow.indexAt (r : RegRow) (a : Nat) : Option (List Nat) :=
  if a < r.base then none else RegTable.indexes r.dims (a - r.base)

/-- The flattened index of an element. -/
def RegRow.flat (r : RegRow) (ix : List Nat) : Nat :=
  (r.dims.zip ix).foldl (fun acc e => acc * e.1.2 + e.2) 0

/-- The number of the unit that owns an element. -/
def RegRow.unit (r : RegRow) (ix : List Nat) : Nat := r.flat ix / r.div

/-- The registers of the block whose extent holds an address (R454). -/
def RegTable.blockRows (a : Nat) : List RegRow :=
  if a < 0x10000 then rowsGLB
  else if a < 0x20000 then rowsHP
  else if a < 0x40000 then rowsCFGI
  else if a < 0x80000 then rowsTB
  else if a < 0x88000 then rowsCH
  else if a < 0x8C000 then rowsGRP
  else if a < 0x90000 then rowsCAP
  else if a < 0x100000 then rowsIU
  else if a < 0x200000 then rowsTDC
  else if a < 0x400000 then rowsTRG
  else if a < 0x800000 then rowsME
  else if a < 0xC00000 then rowsQM
  else if a < 0xE00000 then rowsSG
  else if a < 0x1000000 then rowsSB
  else if a < 0x1400000 then rowsDC
  else if a < 0x1600000 then rowsPG
  else if a < 0x1800000 then rowsMON
  else if a < 0x2000000 then rowsSC
  else []

/-- The first row of a list that has an element at an address. -/
def RegTable.findIn (l : List RegRow) (a : Nat) : Option (RegRow × List Nat) :=
  match l with
  | [] => none
  | r :: t => match r.indexAt a with
    | some ix => some (r, ix)
    | none => findIn t a

/-- The word of a queue descriptor that a row holds (R285). -/
def RegRow.descWord (r : RegRow) : Option Nat :=
  if 0x800000 ≤ r.base ∧ r.base < 0x800020 then some ((r.base - 0x800000) / 4) else none

/-- The fields of word `w` of a ring descriptor (R285). -/
def ringFields (w : Nat) : List FieldSpec :=
  match w with
  | 0 => [⟨24, 16, .EG, false, .image⟩, ⟨13, 13, .EG, false, .image⟩, ⟨12, 8, .EG, false, .image⟩, ⟨7, 6, .LV, false, .num 0⟩,
      ⟨5, 4, .RO, false, .image⟩, ⟨3, 3, .RW, false, .num 0⟩, ⟨2, 0, .EG, false, .image⟩]
  | 1 | 2 => [⟨31, 0, .RO, false, .num 0⟩]
  | 3 => [⟨31, 16, .EG, false, .num 0⟩, ⟨15, 0, .EG, false, .num 0⟩]
  | _ => [⟨31, 0, .EG, false, .num 0⟩]

/-- The fields of word `w` of a descriptor whose TYPE is FREE: a bit that either layout lets a write change (log entry 125). -/
def freeFields (w : Nat) : List FieldSpec :=
  if w = 0 then [⟨29, 16, .EG, false, .image⟩, ⟨13, 8, .EG, false, .image⟩, ⟨7, 6, .LV, false, .image⟩, ⟨5, 4, .RO, false, .image⟩,
    ⟨3, 3, .RW, false, .image⟩, ⟨2, 0, .EG, false, .image⟩]
  else ringFields w

/-- A row with the fields that a queue's TYPE gives it (R254, R285): the tables hold the OBS layout of a descriptor. -/
def RegRow.layout (r : RegRow) (ty : Nat) : RegRow :=
  match r.descWord with
  | none => r
  | some w => if ty = 1 then r else { r with fields := if 2 ≤ ty ∧ ty ≤ 5 then ringFields w else freeFields w }

/-- The bits of a row that a write may change (R6). -/
def RegRow.writable (r : RegRow) : Word :=
  r.fields.foldl (fun w f => match f.acc with | .RW | .EG => w ||| Bits.mask f.hi f.lo | _ => w) 0#32

/-- The register at a BAR0 offset whose view bits are zero. -/
def RegTable.find (a : Nat) : Option (RegRow × List Nat) := findIn (blockRows a) a

/-- The reset value of a field that a table gives as a number; other entries contribute zero here. -/
def FieldSpec.resetBits (f : FieldSpec) : Word :=
  match f.rst with
  | .num v => Bits.setFld 0#32 f.hi f.lo v
  | _ => 0#32

/-- The reset values that rules give by formula: the default table word (R32), the identity of SG_MT_SCR, the
single-bit masks of DC_XOR_MASK for one channel of one rank, which R361 gives for a geometry of all zeros, and the budget that
R490 gives without a provisioning record. -/
def RegTable.computedReset (a : Nat) : Word :=
  if R.TDC_TABLE 0 0 0 ≤ a ∧ a < R.TDC_CAL_CTL 0 then
    let w := a % 0x200 / 4
    Bits.word ((256 * (2 * w + 1) + 128) * 65536 + 256 * (2 * w) + 128)
  else if R.SG_MT_SCR 0 0 ≤ a ∧ a < R.SG_LS_DATA 8 ∧ 0x120 ≤ a % 0x4000 ∧ a % 0x4000 < 0x140 then
    let k := (a % 0x4000 - 0x120) / 4
    Bits.word ((4 * k) + (4 * k + 1) * 256 + (4 * k + 2) * 65536 + (4 * k + 3) * 16777216)
  else if R.DC_XOR_MASK 0 ≤ a ∧ a < R.DC_XOR_MASK 8 then Bits.word (2 ^ ((a - R.DC_XOR_MASK 0) / 4))
  else if a = R.PG_BUDGET then Bits.word 4000
  else 0#32

/-- The reset value of the word at an address (R442): the numbers of its table, and the values given by formula. -/
def RegTable.resetWord (a : Nat) : Word :=
  match find a with
  | none => 0#32
  | some (r, _) => r.fields.foldl (fun w f => w ||| f.resetBits) (computedReset a)

namespace Machine

namespace State

/-- The register file at an address. -/
def rd (s : State) (a : Nat) : Word := Tab.get RegTable.resetWord s.regs a

/-- Store a word in the register file. -/
def wr (s : State) (a : Nat) (w : Word) : State := { s with regs := Tab.set RegTable.resetWord s.regs a w }

/-- The field [hi:lo] of the register at an address. -/
def f (s : State) (a hi lo : Nat) : Nat := Bits.fld (s.rd a) hi lo

/-- Bit `i` of the register at an address. -/
def fb (s : State) (a i : Nat) : Bool := Bits.bit (s.rd a) i

/-- The field [hi:lo] of a register read as a signed number. -/
def fs (s : State) (a hi lo : Nat) : Int := Bits.signed (hi + 1 - lo) (s.f a hi lo)

/-- Store into the field [hi:lo] of a register. -/
def wrF (s : State) (a hi lo v : Nat) : State := s.wr a (Bits.setFld (s.rd a) hi lo v)

/-- The 64-bit value of a LO, HI pair of registers. -/
def rd64 (s : State) (lo hi : Nat) : BitVec 64 := Bits.cat64 (s.rd hi) (s.rd lo)

/-- Store a 64-bit value in a LO, HI pair. -/
def wr64 (s : State) (lo hi : Nat) (v : BitVec 64) : State := (s.wr lo (Bits.lo32 v)).wr hi (Bits.hi32 v)

/-- Count `n` more in a 32-bit counter that saturates at 0xFFFF_FFFF. -/
def bump (s : State) (a : Nat) (n : Nat := 1) : State := s.wr a (Bits.sat32 (s.rd a) n)

/-- The stamp of the present TBCLK edge, C × 1,024. -/
def now (s : State) : Stamp := s.tb.count.stamp

/-- The count of the present TBCLK edge, which every Cw takes (R535). -/
def cw (s : State) : Count := s.tb.count

/-- The counter has passed a stamp (R534): the present edge lies strictly after it. -/
def passed (s : State) (t : Stamp) : Bool := Bits.before t s.now

/-- The counter has reached a stamp: the present edge lies at or after it. -/
def reached (s : State) (t : Stamp) : Bool := Bits.upto t s.now

/-- At least `n` TBCLK periods have gone by since a count. -/
def since (s : State) (c : Count) (n : Nat) : Bool := decide (n ≤ (s.tb.count - c).toNat)

/-- The stamp (Cw + 32) × 1,024 at which enables and stops act (R92, R95, R117). -/
def stamp32 (s : State) : Stamp := (s.tb.count + 32#54).stamp

/-- Change one channel. -/
def setCh (s : State) (c : Fin 128) (g : ChSt → ChSt) : State := { s with ch := s.ch.set c (g s.ch[c]) }

/-- Change one group. -/
def setGrp (s : State) (g : Fin 16) (h : GrpSt → GrpSt) : State := { s with grp := s.grp.set g (h s.grp[g]) }

/-- Change the timebase. -/
def setTb (s : State) (h : TimeSt → TimeSt) : State := { s with tb := h s.tb }

/-- Change the trigger block. -/
def setTrg (s : State) (h : TrgSt → TrgSt) : State := { s with trg := h s.trg }

/-- Change one sequencer. -/
def setSeq (s : State) (q : Fin 8) (h : SeqSt → SeqSt) : State :=
  s.setTrg (fun t => { t with seq := t.seq.set q (h t.seq[q]) })

/-- Change one counter. -/
def setCt (s : State) (n : Fin 32) (h : CtSt → CtSt) : State :=
  s.setTrg (fun t => { t with ct := t.ct.set n (h t.ct[n]) })

/-- Change one comparator. -/
def setPc (s : State) (n : Fin 64) (h : PcSt → PcSt) : State :=
  s.setTrg (fun t => { t with pc := t.pc.set n (h t.pc[n]) })

/-- Change one qualifier. -/
def setIq (s : State) (n : Fin 32) (h : IqSt → IqSt) : State :=
  s.setTrg (fun t => { t with iq := t.iq.set n (h t.iq[n]) })

/-- Change one engine. -/
def setEng (s : State) (e : Fin 256) (h : EngSt → EngSt) : State := { s with eng := s.eng.set e (h s.eng[e]) }

/-- A free bit, which nothing constrains. -/
def takeBit (s : State) : Bool × State := (Config.freeBit s.free, { s with free := s.free + 1 })

/-- A free word, which nothing constrains. -/
def takeWord (s : State) : Word × State := (Config.freeWord s.free, { s with free := s.free + 1 })

/-- A condition of R505 has just begun: its code and index with the stamp of detection. -/
def faultNote (s : State) (code index : Nat) : State :=
  { s with faults := s.faults.filter (fun e => !(e.1 == code && e.2.1 == index)) ++ [(code, index, s.now)] }

/-- The partition that owns a unit (R434, R465, R506). -/
def partOf (s : State) (o : Own) (i : Nat) : Fin 4 :=
  match o with
  | .dev | .mixed => s.owner
  | .part => Fin.ofNat 4 i
  | .chan => s.pmap.grp[Fin.ofNat 16 (i / 8)]
  | .grp => s.pmap.grp[Fin.ofNat 16 i]
  | .splitz => s.pmap.grp[Fin.ofNat 16 (i / 4)]
  | .seq => s.pmap.seq[Fin.ofNat 8 i]
  | .pc => s.pmap.pc[Fin.ofNat 64 i]
  | .iq => s.pmap.iq[Fin.ofNat 32 i]
  | .ct => s.pmap.ct[Fin.ofNat 32 i]
  | .mm => s.pmap.mm[Fin.ofNat 64 i]
  | .iu => s.pmap.iu[Fin.ofNat 16 i]
  | .eng => s.pmap.me[Fin.ofNat 256 i]
  | .queue => Fin.ofNat 4 (s.f (R.QM_DESC0 (i / 128) (i % 128)) 5 4)
  | .bank => s.pmap.bank[Fin.ofNat 32 i]
  | .sg => s.pmap.sg[Fin.ofNat 8 i]
  | .mon => if s.fb (R.HP_STATUS (i / 8 % 4)) 16 then Fin.ofNat 4 (i / 8) else s.owner

/-- A group's partition. -/
def grpPart (s : State) (g : Fin 16) : Fin 4 := s.pmap.grp[g]

/-- The group of a channel (R10). -/
def grpOf (c : Fin 128) : Fin 16 := Fin.ofNat 16 (c.val / 8)

end State

/-- Put one item into detail bytes at the next offset that is a multiple of its size (R445). -/
def detailPut (l : List Byte) (size v : Nat) : List Byte :=
  let o := Bits.ceilDiv l.length size * size
  Bits.padTo o l ++ Bits.leBytes size v

/-- The detail bytes of a list of items (size, value), in order (R445). -/
def detailBytes (items : List (Nat × Nat)) : List Byte := items.foldl (fun l e => detailPut l e.1 e.2) []

/-- An event record (R443): 16 bytes, and an extension record of 16 when an item reaches detail byte 4 or beyond. -/
def evRecord (stamp : Stamp) (block k index : Nat) (items : List (Nat × Nat)) : List Byte :=
  let d := detailBytes items
  let ext := 4 < d.length
  let r := Bits.leBytes 8 stamp.toNat ++ [BitVec.ofNat 8 block, BitVec.ofNat 8 (if ext then k + 128 else k)]
    ++ Bits.leBytes 2 index ++ Bits.padTo 4 d
  if ext then r ++ Bits.padTo 16 (d.drop 4) else r

/-- The number of 16-byte slots an event record takes in a ring (R446). -/
def evUnits (r : List Byte) : Nat := r.length / 16

namespace State

/-- Records an event store holds: an extended record counts as one (R446). -/
def evtUsed (s : State) (p : Fin 4) : Nat := s.evt[p].recs.length

/-- Change one event store. -/
def setEvt (s : State) (p : Fin 4) (h : EvStore → EvStore) : State := { s with evt := s.evt.set p (h s.evt[p]) }

/-- An event record enters the store of its partition, or is lost when the store is full, and then adds one to
QM_EVT_LOST_CNT (R275). While losses wait for room to be reported, later records do not overtake the report. -/
def pushEv (s : State) (p : Fin 4) (r : List Byte) : State :=
  if s.evt[p].lost = 0 ∧ s.evtUsed p + 1 ≤ 4096 then s.setEvt p (fun e => { e with recs := e.recs ++ [r] })
  else (s.setEvt p (fun e => { e with lost := e.lost + 1 })).bump (R.QM_EVT_LOST_CNT p)

/-- Produce event `k` of a block for one partition: the source counter at `cnt` counts it, and its record is stored. The
stamp is the one given, or the present TBCLK edge when the contents list no stamp (R443). -/
def event (s : State) (p : Fin 4) (cnt : Nat) (block k index : Nat) (stamp : Option Stamp) (items : List (Nat × Nat)) :
    State :=
  (s.bump cnt).pushEv p (evRecord (stamp.getD s.now) block k index items)

/-- A port exists, and with it its partition (R389, R390). -/
def present (s : State) (p : Fin 4) : Bool := s.fb (R.HP_STATUS p) 16

/-- A record that goes to every partition reaches this one where it exists (R390). -/
def pushTo (s : State) (p : Fin 4) (r : List Byte) : State := if s.present p then s.pushEv p r else s

/-- Produce an event for every partition that exists; its one source counter counts once. -/
def eventAll (s : State) (cnt : Nat) (block k index : Nat) (stamp : Option Stamp) (items : List (Nat × Nat)) : State :=
  let r := evRecord (stamp.getD s.now) block k index items
  ((((s.bump cnt).pushTo 0 r).pushTo 1 r).pushTo 2 r).pushTo 3 r

end State
end Machine
end Sys2Proof
end

