-- ==== Sys2Proof/Machine/Views.lean ====
section
/-! DEFINITION. What the channels, groups, comparators and sequencers are at a stamp: levels (R539), enables (R95), which
consumers a group feeds (R84), COAST (R59), storage qualifiers (R145) and which decisions are known (R130, R140). -/

namespace Sys2Proof.Machine.State

open Bits

/-- Channel `j` of group `g` (R10). -/
def chOf (g : Fin 16) (j : Nat) : Fin 128 := Fin.ofNat 128 (8 * g.val + j)

/-- SPLIT of a group (R85). -/
def splitG (s : State) (g : Fin 16) : Bool := s.fb (R.CH_GRP_CTL g) 5

/-- The channel that names the signal of a TDC: the even channel in a split group (R86). -/
def signal (s : State) (tdc : Fin 128) : Fin 128 :=
  if s.splitG (grpOf tdc) then Fin.ofNat 128 (tdc.val / 2 * 2) else tdc

/-- MODE of a group, with 6 and 7 used as OFF (R83). -/
def modeG (s : State) (g : Fin 16) : Nat :=
  let m := s.f (R.CH_GRP_CTL g) 2 0
  if 5 < m then 0 else m

/-- A group's edges go to staging and the packer (R84). -/
def packs (s : State) (g : Fin 16) : Bool :=
  let m := s.modeG g
  decide (1 ≤ m ∧ m ≤ 3) || (decide (4 ≤ m) && s.fb (R.CH_GRP_CTL g) 7)

/-- The data channels of a group, by their bit in masks: all eight, or the four signals of a split group. -/
def dataBits (s : State) (g : Fin 16) : List Nat := if s.splitG g then [0, 2, 4, 6] else [0, 1, 2, 3, 4, 5, 6, 7]

/-- The newest entry of a log at or below a stamp. -/
def logUpto {α : Type} (l : List (Stamp × α)) (t : Stamp) : Option (Stamp × α) :=
  match l with
  | [] => none
  | e :: r => if upto e.1 t then some e else logUpto r t

/-- The newest entry of a log strictly below a stamp. -/
def logBelow {α : Type} (l : List (Stamp × α)) (t : Stamp) : Option (Stamp × α) :=
  match l with
  | [] => none
  | e :: r => if before e.1 t then some e else logBelow r t

/-- The level of a channel at a stamp: after the last edge event strictly below it, or the level its receiver reported
when it settled (R539). -/
def lvlBelow (s : State) (c : Fin 128) (t : Stamp) : Bool :=
  match logBelow s.ch[c].lvlLog t with
  | some e => e.2
  | none => (s.ch[c].lvlLog.getLast?.map (·.2)).getD false

/-- The level of a channel after the last edge event at or below a stamp (R98, R119). -/
def lvlUpto (s : State) (c : Fin 128) (t : Stamp) : Bool :=
  match logUpto s.ch[c].lvlLog t with
  | some e => e.2
  | none => (s.ch[c].lvlLog.getLast?.map (·.2)).getD false

/-- EN of a channel at a stamp (R95). -/
def enAt (s : State) (c : Fin 128) (t : Stamp) : Bool := ((logUpto s.ch[c].enLog t).map (·.2)).getD false

/-- COAST at a stamp (R59). -/
def coastAt (s : State) (t : Stamp) : Bool := ((logUpto s.tb.coastLog t).map (·.2)).getD false

/-- The sum of the jumps of the relock boundaries between two stamps (R65). -/
def jumps (s : State) (a b : Stamp) : Int :=
  s.tb.jlog.foldl (fun acc e => if before a e.1 && upto e.1 b then acc + e.2 else acc) 0

/-- A stamp lies in the run of a group: at or after its start stamp, below its stop stamp (R91, R92). -/
def inRun (s : State) (g : Fin 16) (t : Stamp) : Bool :=
  let G := s.grp[g]
  (match G.st with | .idle => false | .held => false | _ => true)
    && (match G.start with | none => false | some a => upto a t)
    && (match G.stop with | none => true | some e => before t e)

/-- The runs of a group that have a stop stamp, the last one included, newest first. -/
def pastRun (G : GrpSt) : List (Stamp × Stamp) :=
  match G.start, G.stop with
  | some a, some e => (a, e) :: G.runs
  | _, _ => G.runs

/-- A stamp lies in the present run of a group or in an earlier one. -/
def ran (s : State) (g : Fin 16) (t : Stamp) : Bool :=
  s.inRun g t || (pastRun s.grp[g]).any (fun e => upto e.1 t && before t e.2)

/-- A channel delivers edge events at a stamp (R191): its group runs, it is enabled, no relock window holds the stamp. -/
def delivers (s : State) (c : Fin 128) (t : Stamp) : Bool :=
  s.ran (grpOf c) t && s.enAt c t && !s.tb.gaps.any (fun e => before e.1 t && before t e.2)

/-- A channel has a blind stretch inside [lo, hi] (R191): some stamp there at which it does not deliver. Delivery changes
only at the stamps listed. -/
def blind (s : State) (c : Fin 128) (lo hi : Stamp) : Bool :=
  let g := grpOf c
  let cuts := s.ch[c].enLog.map (·.1) ++ s.tb.gaps.map (fun e => e.1 + 1) ++ (pastRun s.grp[g]).map (·.2)
  (lo :: cuts.filter (fun t => upto lo t && upto t hi)).any (fun t => !s.delivers c t)

/-- A group's capture stream is active (R56, R59, R63): it packs, and it is in RUN or still draining. -/
def streamActive (s : State) (g : Fin 16) : Bool :=
  s.packs g && !s.grp[g].ended && (match s.grp[g].st with | .run => true | .drain => true | _ => false)

/-- A STATE group takes clock edges (R101): in RUN, and in DRAIN until no edge with a stamp below E can come. -/
def takesClock (s : State) (h : Fin 16) : Bool :=
  s.modeG h == 3 &&
    (match s.grp[h].st with
     | .run => true
     | .drain => !(s.grp[h].stop.map (fun e => s.passed (e + 65536))).getD true
     | _ => false)

/-- The receiver of a channel is powered: its group is past IDLE (R90), auto-threshold runs on it (R16), or it is the clock
of a STATE group that waits to run or takes clock edges (R101). The odd channels of a split group stay unpowered (R85). -/
def powered (s : State) (c : Fin 128) : Bool :=
  let g := grpOf c
  let odd := s.splitG g && decide (c.val % 2 = 1)
  (s.ch[c].at_.isSome) ||
  (!odd && ((match s.grp[g].st with | .wait => true | .run => true | .drain => true | _ => false) ||
    (List.finRange 16).any (fun h => s.f (R.CH_GRP_STATE h) 22 16 == c.val &&
      (s.takesClock h || (s.modeG h == 3 && s.grp[h].st == .wait)))))

/-- The level that an INV setting makes of the receiver's output (R15). -/
def recvLevel (s : State) (c : Fin 128) : Bool := s.ch[c].out != s.fb (R.CH_CTL c) 3

/-! ## Sequencers -/

/-- HOLD of a sequencer. -/
def hold (s : State) (q : Fin 8) : Nat := s.f (R.TRG_SEQ_CTL q) 31 20

/-- The horizon of a sequencer: the present edge less 96 ns less HOLD × 64 ns (R130). -/
def horizon (s : State) (q : Fin 8) : Stamp := s.now - stamp (196608 + s.hold q * 131072)

/-- PRE of a sequencer, a 48-bit span (R137). -/
def preQ (s : State) (q : Fin 8) : Stamp := stamp (s.f (R.TRG_SEQ_PRE_HI q) 15 0 * 4294967296 + s.f (R.TRG_SEQ_PRE_LO q) 31 0)

/-- POST of a sequencer, a 48-bit span (R137). -/
def postQ (s : State) (q : Fin 8) : Stamp := stamp (s.f (R.TRG_SEQ_POST_HI q) 15 0 * 4294967296 + s.f (R.TRG_SEQ_POST_LO q) 31 0)

/-- The level of a comparator at a stamp (R120). -/
def pcAt (s : State) (p : Nat) (t : Stamp) : Bool := ((logUpto s.trg.pc[Fin.ofNat 64 p].log t).map (·.2)).getD false

/-- The storage qualifier level of a sequencer at a stamp (R145, R146). Its log starts from SQ_OUT's reset value, 1. -/
def sqAt (s : State) (q : Fin 8) (t : Stamp) : Bool :=
  match logUpto s.trg.seq[q].sqLog t with
  | none => true
  | some (_, _, .const b) => b
  | some (_, _, .follow p) => s.pcAt p t

/-- The smallest of some stamps above a stamp. -/
def nextAbove (l : List Stamp) (t : Stamp) : Option Stamp := earliest (l.filter (fun x => before t x))

/-- The next stamp above `t` at which the storage qualifier of a sequencer may change. -/
def sqNext (s : State) (q : Fin 8) (t : Stamp) : Option Stamp :=
  let L := s.trg.seq[q].sqLog
  let pcs := L.flatMap (fun e => match e.2.2 with
    | .follow p => s.trg.pc[Fin.ofNat 64 p].log.map (·.1)
    | .const _ => [])
  nextAbove (L.map (·.1) ++ pcs) t

/-- The counters a sequencer owns (R125). -/
def owned (s : State) (q : Fin 8) : List (Fin 32) :=
  (List.finRange 32).filter (fun n => s.f (R.TRG_CT_CTL n) 10 8 == q.val)

/-- LIMIT of a counter. -/
def ctLimit (s : State) (n : Fin 32) : Nat := s.f (R.TRG_CT_LIMIT_HI n) 15 0 * 4294967296 + s.f (R.TRG_CT_LIMIT_LO n) 31 0

/-- A counter is in TIME mode (R125). -/
def ctTime (s : State) (n : Fin 32) : Bool := s.f (R.TRG_CT_CTL n) 2 1 == 1

/-- EN of a counter at a stamp (R117). -/
def ctEn (s : State) (n : Fin 32) (t : Stamp) : Bool := ((logUpto s.trg.ct[n].enLog t).map (·.2)).getD false

/-- The stamp at which a running TIME counter reaches LIMIT: the running time plus the jumps crossed equals what is left
(R127, R65). -/
def ctTerminal (s : State) (n : Fin 32) : Option Stamp :=
  let C := s.trg.ct[n]
  match C.from_ with
  | none => none
  | some a =>
    if s.ctLimit n = 0 ∨ C.full ∨ C.fault then none
    else
      let d0 := a + stamp (s.ctLimit n - C.value)
      let d1 := shift d0 (-(s.jumps a d0))
      some d1

/-- A condition word of a stage. -/
def cond (s : State) (q : Fin 8) (k c : Nat) : Word := s.rd (R.TRG_COND q k c)

/-- The sequencer evaluates stages: RUN or POST (R133). -/
def evaluating (s : State) (q : Fin 8) : Bool := match s.trg.seq[q].st with | .run => true | .post => true | _ => false

/-- The source codes that matter to a sequencer in its present stage: its conditions' sources and the increments of its
counters. -/
def sources (s : State) (q : Fin 8) : List Nat :=
  let k := s.trg.seq[q].stage
  ([0, 1, 2, 3].map (fun c => fld (s.cond q k c) 31 24) ++ (s.owned q).map (fun (n : Fin 32) => s.f (R.TRG_CT_CTL n.val) 23 16)).filter (· < 0xD0)

/-- The next stamp at which a sequencer has something to decide: above what it has decided, before its end of POST, and
passed by its horizon (R130, R133, R138). -/
def nextRelevant (s : State) (q : Fin 8) : Option Stamp :=
  let Q := s.trg.seq[q]
  if s.evaluating q then
    let src := s.sources q
    let hs := (s.trg.hits.filter (fun h => src.contains h.src && !h.late.contains q.val)).map (·.stamp)
    let ts := (s.owned q).filterMap (fun n => s.ctTerminal n)
    let es := (s.owned q).flatMap (fun n => s.trg.ct[n].enLog.map (·.1))
    let fin : List Stamp → List Stamp := fun l =>
      match Q.st with
      | .post => l.filter (fun t => before t (Q.trig + s.postQ q))
      | _ => l
    nextAbove (fin ((hs ++ ts ++ es).filter (fun t => before t (s.horizon q)))) Q.pos
  else none

/-- Some stage of a sequencer names a source (R130). -/
def namesSource (s : State) (q : Fin 8) (src : Nat) : Bool :=
  (List.range 16).any (fun k => (List.range 4).any (fun c => fld (s.cond q k c) 31 24 == src))

/-- A sequencer with at least the HOLD of another takes hits of that one's counters, in its conditions or its own counters (R130). -/
def takesFrom (s : State) (q o : Fin 8) : Bool :=
  decide (q ≠ o) && decide (s.hold o ≤ s.hold q) && (s.owned o).any (fun (n : Fin 32) =>
    s.namesSource q (0x60 + n.val) || (s.owned q).any (fun (m : Fin 32) => s.f (R.TRG_CT_CTL m.val) 23 16 == 0x60 + n.val))

/-- The sequencers whose counters a sequencer takes hits from, directly or through others; at most `k` steps. -/
def feeders (s : State) (q : Fin 8) : Nat → List (Fin 8)
  | 0 => []
  | k + 1 =>
    let l := feeders s q k
    (List.finRange 8).filter (fun o => s.takesFrom q o || l.any (fun m => s.takesFrom m o))

/-- The sequencers that decide for a stamp before this one does (R130): those whose counters it takes hits from. Where two take hits
from each other, the lower-numbered one is first (log entry 145). -/
def waitsOn (s : State) (q : Fin 8) : List (Fin 8) :=
  (s.feeders q 8).filter (fun o => decide (o ≠ q) && (!(s.feeders o 8).contains q || decide (o.val < q.val)))

/-- Every sequencer whose decisions this one needs has taken those up to a stamp. -/
def fedTo (s : State) (q : Fin 8) (t : Stamp) : Bool :=
  (s.waitsOn q).all (fun o => match s.nextRelevant o with | none => true | some u => before t u)

/-- The decision of a sequencer for a stamp is known (R97, R140). -/
def decided (s : State) (q : Fin 8) (t : Stamp) : Bool :=
  before t (s.horizon q) && (match s.nextRelevant q with | none => true | some u => before t u) && s.fedTo q t

/-- A sequencer shows IDLE or DONE (R135). -/
def restingQ (s : State) (q : Fin 8) : Bool :=
  match s.trg.seq[q].st with | .idle => true | .done => true | .post => s.trg.seq[q].ended | _ => false

/-- A sequencer has decisions to take: it shows neither IDLE nor DONE, or stamps below T + POST are still undecided. -/
def busyQ (s : State) (q : Fin 8) : Bool := match s.trg.seq[q].st with | .idle => false | .done => false | _ => true

/-- The packer of a group may take an item with stamp `t` (R97, R140, R158): the counter has passed t + 100 ns, and the
decisions of every sequencer it waits for are known. -/
def mayPack (s : State) (g : Fin 16) (t : Stamp) : Bool :=
  s.passed (t + 204800#64) &&
  (List.finRange 8).all (fun q =>
    if s.busyQ q && s.fb (R.TRG_SEQ_GRP q) g then s.decided q t else true) &&
  (let sel := s.f (R.CH_GRP_CTL g) 15 12
   if 1 ≤ sel ∧ sel ≤ 8 then s.decided (Fin.ofNat 8 (sel - 1)) t else true)

/-! ## What uses a group (R87) -/

/-- A skew calibration (R320) uses a group. -/
def skewUses (s : State) (g : Fin 16) : Bool := (List.finRange 8).any (fun (k : Fin 8) => s.sg[k].cal == some g.val)

/-- A march test of its staging buffers (R343) uses a group. -/
def marchUses (s : State) (g : Fin 16) : Bool :=
  (List.finRange 4).any (fun (p : Fin 4) => s.mt[p].busy && s.mt[p].mem == 2 && s.mt[p].index == g.val)

/-- TDC_STATUS.CAL_BUSY of a group (R29, R320, R343). -/
def calBusy (s : State) (g : Fin 16) : Bool := s.grp[g].calAt.isSome || s.skewUses g || s.marchUses g

/-- A channel of the group is the clock of a STATE group that takes its edges (R101). -/
def clocksOther (s : State) (g : Fin 16) : Bool :=
  (List.finRange 16).any (fun (h : Fin 16) => s.takesClock h && grpOf (Fin.ofNat 128 (s.f (R.CH_GRP_STATE h) 22 16)) == g)

/-- A group is idle (R87). -/
def groupIdle (s : State) (g : Fin 16) : Bool := s.grp[g].st == .idle && !s.clocksOther g && !s.calBusy g

end Sys2Proof.Machine.State
end

