-- ==== Sys2Proof/Machine/Grid.lean ====
section
/-! DEFINITION. The sample grid (R289 to R291), the sequence table (R296 to R300), and what has been played and fetched at a
stamp. -/

namespace Sys2Proof.Machine

open Bits

/-- The sample period in 2^-32 tu (R290): 2^(ODIV + 39) / (FCW + offset), the offset being num / den. -/
def samplePeriod (fcw odiv : Nat) (num : Int) (den : Nat) : Nat :=
  let a := 2 ^ (odiv + 71) * den
  let b := ((fcw : Int) * den + num).toNat
  if b = 0 then a
  else if a % b = 0 then a / b
  else if Config.periodUp a b then a / b + 1 else a / b

/-- A sum of periods in 2^-32 tu rounded to 1 tu (R290). -/
def roundTu (x : Int) : Int :=
  let q := x / 4294967296
  let r := x % 4294967296
  if 2147483648 < r ∨ (r = 2147483648 ∧ Config.halfUp x) then q + 1 else q

namespace State

/-- Change one generator. -/
def setSg (s : State) (g : Fin 8) (h : SgSt → SgSt) : State := { s with sg := s.sg.set g (h s.sg[g]) }

/-- ODIV in force (R67). -/
def odiv (s : State) : Nat := fld s.tb.sgCtl 17 16

/-- The present sample period (R290). -/
def periodNow (s : State) : Nat := samplePeriod s.tb.sgFcw.toNat s.odiv s.tb.ramp.num s.tb.ramp.den

/-- The dead-time samples D of R299. -/
def deadSamples (s : State) : Nat := ceilDiv (32768 * s.tb.sgFcw.toNat) (2 ^ (s.odiv + 39))

/-- The sum of the periods before instant `m`, in 2^-32 tu. -/
def gridAcc (s : State) (m : Nat) : Int :=
  match s.grid.bases.find? (fun b => decide (b.m ≤ m)) with
  | some b => b.acc + (m - b.m : Nat) * (b.per : Int)
  | none => 0

/-- The launch stamp of grid instant `m` (R290). -/
def launch (s : State) (m : Nat) : Stamp := shift (s.grid.o + stamp (s.f R.SG_CAL_OFS 31 0)) (roundTu (s.gridAcc m))

/-- The first instant of one stretch whose rounded sum is at least `T`. -/
def baseFrom (b : GBase) (T : Int) : Nat :=
  let need : Int := T * 4294967296 - 2147483648 - b.acc
  let k : Nat := if b.per = 0 ∨ need ≤ 0 then 0 else ((need + b.per - 1) / b.per).toNat
  if roundTu (b.acc + k * (b.per : Int)) < T then b.m + k + 1 else b.m + k

/-- The first grid instant among some stretches (newest first) whose sum is at least `T`. -/
def gridFrom (T : Int) : List GBase → Option Nat → Nat
  | [], up => up.getD 0
  | b :: r, up =>
    if r.isEmpty || decide (roundTu b.acc < T) then
      match up with
      | some u => min u (baseFrom b T)
      | none => baseFrom b T
    else gridFrom T r (some b.m)

/-- The first grid instant whose sum, counted from the stamp `o`, is at or above `t`: the difference is taken from the newest stretch
(R534). -/
def idxFrom (s : State) (o t : Stamp) : Nat :=
  match s.grid.bases with
  | [] => 0
  | b :: r => gridFrom (roundTu b.acc + diff (shift o (roundTu b.acc)) t) (b :: r) none

/-- The first grid instant at or above `t`, as an edge of the sample clock (R289). -/
def instantIdx (s : State) (t : Stamp) : Nat := s.idxFrom s.grid.o t

/-- Grid instant `m` as an edge of the sample clock (R289). -/
def instant (s : State) (m : Nat) : Stamp := shift s.grid.o (roundTu (s.gridAcc m))

/-- The first grid instant whose launch stamp is at or above `t`. -/
def firstIdx (s : State) (t : Stamp) : Nat := s.idxFrom (s.grid.o + stamp (s.f R.SG_CAL_OFS 31 0)) t

/-- The number of grid instants launched at or before `t`. -/
def idxCount (s : State) (t : Stamp) : Nat := s.firstIdx (t + 1)

/-- The first instant with an index that is a multiple of 64 and a launch stamp at or above `t` (R306, R307). -/
def first64 (s : State) (t : Stamp) : Nat := ceilDiv (s.firstIdx t) 64 * 64

/-- The period changes from the first instant of the sample clock at or after the present edge (R290). -/
def gridRebase (s : State) : State :=
  if s.grid.on then
    let m := s.instantIdx s.now
    let b : GBase := ⟨m, s.gridAcc m, s.periodNow⟩
    { s with grid := { s.grid with bases := b :: s.grid.bases.filter (fun x => decide (x.m < m)) } }
  else s

/-- A relock boundary `d` tu after edge `c0` subtracts J from every later launch stamp (R290). -/
def gridJump (s : State) (c0 : Stamp) (d : Nat) (j : Int) : State :=
  if s.grid.on then
    let m := s.firstIdx (c0 + stamp d)
    let b : GBase := ⟨m, s.gridAcc m - j * 4294967296, s.periodNow⟩
    { s with grid := { s.grid with bases := b :: s.grid.bases.filter (fun x => decide (x.m < m)) } }
  else s

/-- A SYNC at `t` falls on the grid: within 2 tu of a grid instant (R291). The instant is given. -/
def onGrid (s : State) (t : Stamp) : Option Nat :=
  if s.grid.on then
    let m := s.instantIdx (t - 2)
    if upto (s.instant m) (t + 2) then some m else none
  else none

/-! ## The sequence table (R296) -/

/-- Word `w` of entry `k` of a generator. -/
def entW (s : State) (g : Fin 8) (k w : Nat) : Word := s.rd (R.SG_ENTRY g (k / 256 % 4) (k % 256) w)

def entFlow (s : State) (g : Fin 8) (k : Nat) : Nat := fld (s.entW g k 1) 14 12
def entSrc (s : State) (g : Fin 8) (k : Nat) : Nat := fld (s.entW g k 1) 10 8
def entJen (s : State) (g : Fin 8) (k : Nat) : Bool := bit (s.entW g k 1) 15
def entTarget (s : State) (g : Fin 8) (k : Nat) : Nat := fld (s.entW g k 1) 25 16
def entJtgt (s : State) (g : Fin 8) (k : Nat) : Nat := fld (s.entW g k 3) 25 16
def entCount (s : State) (g : Fin 8) (k : Nat) : Nat := fld (s.entW g k 3) 15 0

/-- The byte address of a LOCAL or DRAM segment (R287, R296). -/
def entAddr (s : State) (g : Fin 8) (k : Nat) : Nat :=
  (if s.entSrc g k = 1 then fld (s.entW g k 1) 7 0 * 4294967296 else 0) + (s.entW g k 0).toNat

/-- NENT (R297), RULE (R299) and STARVE (R312). -/
def nent (s : State) (g : Fin 8) : Nat := s.f (R.SG_SEQ g) 10 0
def deadRule (s : State) (g : Fin 8) : Bool := s.fb (R.SG_CTL g) 5
def keepTime (s : State) (g : Fin 8) : Bool := s.fb (R.SG_CTL g) 4

/-! ## The memory-test generator's march (R314, R317) -/

def mtBW (s : State) (g : Fin 8) : Nat := s.f (R.SG_MT_GEOM g) 18 16
def mtRW (s : State) (g : Fin 8) : Nat := s.f (R.SG_MT_GEOM g) 12 8
def mtCW (s : State) (g : Fin 8) : Nat := s.f (R.SG_MT_GEOM g) 3 0
def mtAW (s : State) (g : Fin 8) : Nat := s.mtBW g + s.mtRW g + s.mtCW g
def opLen (s : State) (g : Fin 8) : Nat := 2 ^ s.f (R.SG_MT_CTL g) 6 4
def spanG (s : State) (g : Fin 8) : Nat := s.f (R.SG_MT_CTL g) 2 0

/-- Element `e` of the march, 16 bits (R317). -/
def mtElem (s : State) (g : Fin 8) (e : Nat) : Nat := s.f (R.SG_MT_ELEM g (e / 2)) (16 * (e % 2) + 15) (16 * (e % 2))

/-- NOPS of an element. -/
def mtNops (s : State) (g : Fin 8) (e : Nat) : Nat := s.mtElem g e % 4 + 1

/-- The elements an MTG segment plays (R296). -/
def mtElems (s : State) (g : Fin 8) (k : Nat) : List Nat :=
  let first := fld (s.entW g k 0) 2 0
  let last := fld (s.entW g k 0) 5 3
  (List.range (last + 1 - first)).map (fun i => first + i)

/-- The operations of an MTG segment. -/
def mtOps (s : State) (g : Fin 8) (k : Nat) : Nat := 2 ^ s.mtAW g * ((s.mtElems g k).map (fun e => s.mtNops g e)).sum

/-- The samples of a segment (R296, R317). -/
def segLen (s : State) (g : Fin 8) (k : Nat) : Nat :=
  if s.entSrc g k = 3 then s.opLen g * s.mtOps g k else (s.entW g k 2).toNat

/-- The entry after a segment, with its loop counters (R298); none for STOP. -/
def nextEntry (s : State) (g : Fin 8) (k inner outer : Nat) : Option (Nat × Nat × Nat) :=
  let next := if k + 1 < 1024 then k + 1 else (Config.entryPastEnd g).toNat
  let more (n : Nat) : Bool := s.entCount g k == 0 || decide (n < s.entCount g k)
  match s.entFlow g k with
  | 1 => let n := (inner + 1) % 65536; if more n then some (s.entTarget g k, n, outer) else some (next, 0, outer)
  | 2 => let n := (outer + 1) % 65536; if more n then some (s.entTarget g k, inner, n) else some (next, inner, 0)
  | 3 => some (s.entTarget g k, inner, outer)
  | 4 => none
  | _ => some (next, inner, outer)

/-! ## Where a generator stands -/

/-- The loop counters (SG_LOOP). -/
def sgInner (s : State) (g : Fin 8) : Nat := s.f (R.SG_LOOP g) 15 0
def sgOuter (s : State) (g : Fin 8) : Nat := s.f (R.SG_LOOP g) 31 16

/-- The samples of the present segment scheduled up to a stamp. -/
def segDone (s : State) (g : Fin 8) (t : Stamp) : Nat := s.idxCount t - s.sg[g].segAt

/-- The offset of the first sample, at or after `o`, of the present segment whose data has not come (R311). -/
def availTo (s : State) (g : Fin 8) (o : Nat) : Nat :=
  let G := s.sg[g]
  let n := s.segLen g G.entry
  match s.entSrc g G.entry with
  | 1 => G.fifo.foldl (fun o f =>
      if f.vis = G.vis ∧ f.from_ ≤ o / 2 ∧ o / 2 < f.from_ + f.bytes.length then min n (2 * (f.from_ + f.bytes.length)) else o) o
  | 2 => max o (min n (G.str.base + 2 * G.str.buf.length - G.str.pos))
  | _ => n

/-- The sequence index shown in SG_PLAY at a stamp: that of the sample due last. -/
def playAt (s : State) (g : Fin 8) (t : Stamp) : Nat :=
  let G := s.sg[g]
  let n := s.segLen g G.entry
  match G.starve, s.keepTime g with
  | some (_, o), false => G.played + o
  | _, _ => G.played + min n (s.segDone g t - 1)

/-- The sizes of the DRAM FIFO and of the stream buffer in bytes (R292). -/
def fifoSize (s : State) (g : Fin 8) : Nat := (16 - s.f (R.SG_CFG g) 3 0 - s.f (R.SG_CFG g) 11 8) * 16384
def strSize (s : State) (g : Fin 8) : Nat := s.f (R.SG_CFG g) 11 8 * 16384

/-- The bytes in the DRAM FIFO that are not yet played. -/
def fifoLevel (s : State) (g : Fin 8) : Nat :=
  let G := s.sg[g]
  let gone := match G.st, G.starve, s.keepTime g with
    | .run, some (_, o), false => o / 2
    | .run, _, _ => s.segDone g s.now / 2
    | _, _, _ => 0
  (G.fifo.map (fun f => if f.vis = G.vis then f.bytes.length - min f.bytes.length (gone - f.from_) else f.bytes.length)).sum

/-- The panic of the DRAM FIFO of a generator that prefetches (R294). -/
def sgPanic (s : State) (g : Fin 8) : Bool :=
  (match s.sg[g].st with | .wait => true | .run => true | _ => false) &&
    decide (s.fifoLevel g * 256 < s.f (R.SG_CFG g) 31 24 * s.fifoSize g)

end State
end Sys2Proof.Machine
end

