-- ==== Sys2Proof/Machine/Log.lean ====
section
/-! DEFINITION. The records of accesses: GLB event records for host ports (R432, R453), and the firmware log of the system
controller (R478). -/

namespace Sys2Proof.Machine

/-- The code of a space in the flags of a GLB record (R453). -/
def barCode : Bar → Nat
  | .bar0 => 0 | .bar2 => 1 | .bar4 => 2 | .cfg => 3

/-- The flags byte of a GLB record (R453). -/
def partFlags (c : Part) : Nat := barCode c.bar + (if c.read then 4 else 0) + (if c.later then 8 else 0)

namespace State

/-- Write the `n`-th and later words of a list to consecutive registers. -/
def wrWords (s : State) (a : Nat) : List Word → State
  | [] => s
  | w :: r => wrWords (s.wr a w) (a + 4) r

/-- An entry of the system controller's firmware log (R478): the first 16 bytes of a GLB record with INDEX 0xFFFF, at the
place its count gives it in the ring of 256. -/
def scLog (s : State) (k off : Nat) : State :=
  let r := evRecord s.now 0 k 0xFFFF [(4, off)]
  let n := (s.rd R.SC_LOG_HEAD).toNat
  let ws := (List.range 4).map (fun i => Bits.word (Bits.leAt r (4 * i) 4))
  (s.wrWords (R.SC_LOG (4 * (n % 256))) ws).wr R.SC_LOG_HEAD (Bits.word (n + 1))

/-- Entries of the firmware log for `n` start-up steps or failed checks (R478), at the present edge. The spec does not say which event
number and contents they carry: free values (log entry 4). -/
def scNote (s : State) : Nat → State
  | 0 => s
  | n + 1 =>
    let (k, s) := s.takeWord
    let (d, s) := s.takeWord
    scNote (s.scLog (k.toNat % 5) d.toNat) n

/-- The record of an access that ended in a bus error or was ignored: GLB event `k` in the partition of the host port, or
an entry of the firmware log. -/
def glb (s : State) (c : Part) (k cause : Nat) : State :=
  match c.m with
  | .hp p => s.event p (R.GLB_EVT_CNT p k) 0x00 k p none
      [(4, c.off), (4, if c.read then 0 else c.data.toNat), (1, cause), (1, partFlags c)]
  | .sc => s.scLog k c.off

/-- A write ignored and logged under a rule without an event of its own: GLB_IGNORED (R453). -/
def ignored (s : State) (c : Part) : State := s.glb c 4 0

/-- A write to another partition's field that would have had an effect: GLB_DENIED (R434). -/
def denied (s : State) (c : Part) : State := s.glb c 1 0

/-- The partition of a master (R435): its port's, or the owner partition for the system controller. -/
def partM (s : State) (m : Master) : Fin 4 := match m with | .hp p => p | .sc => s.owner

/-- A master is privileged (R6): the system controller and the owner port. -/
def privileged (s : State) (m : Master) : Bool := match m with | .hp p => p == s.owner | .sc => true

/-- A master reaches a unit of partition `p` (R434, R435). -/
def reaches (_s : State) (m : Master) (p : Fin 4) : Bool := match m with | .hp q => q == p | .sc => true

end State
end Sys2Proof.Machine
end

