-- ==== Sys2Proof/Machine/Mon.lean ====
section
/-! DEFINITION. The monitors (R506 to R509): taking a value, the live bank, and the snapshot. -/

namespace Sys2Proof.Machine

open Bits

/-- The bank after the signed value `x` (R508). -/
def MonBank.take (b : MonBank) (ofs : Int) (bw : Nat) (x : Int) : MonBank :=
  let k := (x - ofs).fdiv (2 ^ bw : Nat)
  let b := { b with low := min b.low x, high := max b.high x, count := min (b.count + 1) (2 ^ 64 - 1) }
  if k < 0 then { b with under := min (b.under + 1) 0xFFFFFFFF }
  else if 63 < k then { b with over_ := min (b.over_ + 1) 0xFFFFFFFF }
  else { b with bins := Tab.set (fun _ => 0) b.bins k.toNat (min (Tab.get (fun _ => 0) b.bins k.toNat + 1) 0xFFFFFFFF) }

namespace State

/-- Change one monitor. -/
def setMon (s : State) (m : Fin 32) (h : MonSt → MonSt) : State := { s with mon := s.mon.set m (h s.mon[m]) }

/-- The address of a register of monitor `m`, whose MON_CTL is at `0x0160_0000 + 0x4000 p + 0x200 k`. -/
def monReg (base : Nat) (m : Fin 32) : Nat := base + 0x4000 * (m.val / 8) + 0x200 * (m.val % 8)

/-- MON_CTL of a monitor. -/
def monCtl (m : Fin 32) : Nat := monReg (R.MON_CTL 0 0) m

/-- EN of a monitor. -/
def monEn (s : State) (m : Fin 32) : Bool := s.fb (monCtl m) 0

/-- The partition of a monitor: that of its number, or the owner's where that partition has no port (R506). -/
def monPart (s : State) (m : Fin 32) : Fin 4 :=
  let p := Fin.ofNat 4 (m.val / 8)
  if s.fb (R.HP_STATUS p) 16 then p else s.owner

/-- Take a value into the live bank, with the alarm of R508. -/
def monTake (s : State) (m : Fin 32) (t : Stamp) (x : Int) : State :=
  let ofs := Bits.signed 32 (s.f (monReg (R.MON_OFS 0 0) m) 31 0)
  let alarm := Bits.signed 32 (s.f (monReg (R.MON_ALARM 0 0) m) 31 0)
  let s := s.setMon m (fun M => { M with live := M.live.take ofs (s.f (monCtl m) 23 19) x })
  if alarm < x ∧ !s.mon[m].alarmed then
    (s.setMon m (fun M => { M with alarmed := true })).event (s.monPart m) (monReg (R.MON_EVT_CNT 0 0 0) m) 0xF6 0 m
      (some t) [(4, (iword x).toNat)]
  else s

/-- A value with stamp `t` reaches an enabled monitor: it waits when it lies at or above a pending snapshot stamp (R509). -/
def monValue (s : State) (m : Fin 32) (t : Stamp) (x : Int) : State :=
  if s.monEn m then
    match s.mon[m].snap with
    | some (ts, _) => if before t ts then s.monTake m t x else s.setMon m (fun M => { M with held := M.held ++ [(t, x)] })
    | none => s.monTake m t x
  else s

/-- An event value of quantity `qty` (R507): every monitor that watches it takes it. `src` is the source number, `sub` the
class of quantity 1. -/
def monEvent (s : State) (qty src sub : Nat) (x : Int) : State :=
  Bits.forAll (List.finRange 32) s (fun m s =>
    if s.f (monCtl m) 4 1 = qty
      ∧ (s.f (monReg (R.MON_SRC 0 0) m) 13 0 = src ∨ (qty = 1 ∧ s.f (monReg (R.MON_SRC 0 0) m) 13 0 = 16))
      ∧ (qty = 1 → s.f (monCtl m) 18 16 = sub) then s.monValue m s.now x else s)

/-- Store a live bank in the frozen registers of a monitor (R509). -/
def monFreeze (s : State) (m : Fin 32) (ts : Stamp) : State :=
  let b := s.mon[m].live
  let s := s.wr (monReg (R.MON_MIN 0 0) m) (iword b.low)
  let s := s.wr (monReg (R.MON_MAX 0 0) m) (iword b.high)
  let s := s.wr64 (monReg (R.MON_COUNT_LO 0 0) m) (monReg (R.MON_COUNT_HI 0 0) m) (BitVec.ofNat 64 b.count)
  let s := s.wr (monReg (R.MON_UNDER 0 0) m) (word b.under)
  let s := s.wr (monReg (R.MON_OVER 0 0) m) (word b.over_)
  let s := s.wr64 (monReg (R.MON_SNAP_TS_LO 0 0) m) (monReg (R.MON_SNAP_TS_HI 0 0) m) ts
  Bits.forAll (List.range 64) s (fun k s =>
    s.wr (monReg (R.MON_BIN 0 0 k) m) (word (Tab.get (fun _ => 0) b.bins k)))

/-- A snapshot of a monitor completes once the counter has passed its stamp (R509): the live bank becomes the frozen bank,
the new live bank is its copy or cleared, and the values above the stamp follow. -/
def monSnapDone (s : State) (m : Fin 32) : State :=
  match s.mon[m].snap with
  | none => s
  | some (ts, clr) =>
    if s.passed ts then
      let cnt := s.mon[m].live.count
      let hs := s.mon[m].held
      let s := s.monFreeze m ts
      let s := s.setMon m (fun M => { M with live := if clr then {} else M.live, snap := none, held := [], alarmed := false })
      let s := s.event (s.monPart m) (monReg (R.MON_EVT_CNT 0 0 1) m) 0xF6 1 m (some ts) [(8, cnt)]
      Bits.forAll hs s (fun e s => s.monTake m e.1 e.2)
    else s

/-- A snapshot request of a monitor sets its stamp Ts = (Cw + 32) × 1,024 (R206, R509); a request while one is pending is
ignored and logged. -/
def monSnap (s : State) (c : Part) (m : Fin 32) (clr : Bool) : State :=
  match s.mon[m].snap with
  | none => s.setMon m (fun M => { M with snap := some (s.stamp32, clr) })
  | some _ => s.ignored c

end State
end Sys2Proof.Machine
end

