-- ==== Sys2Proof/Machine/Dram.lean ====
section
/-! DEFINITION. The acquisition memory controller (file 11): address map, shares, accesses and their errors, refresh,
training and self-refresh, the fill engines and the acquisition-memory window. -/

namespace Sys2Proof.Machine

open Bits

/-- The parity of a number of at most 64 bits. -/
def parity (n : Nat) : Bool := (List.range 64).foldl (fun b i => b != n.testBit i) false

namespace State

/-- Change one controller. -/
def setDc (s : State) (c : Fin 16) (h : DcSt → DcSt) : State := { s with dc := s.dc.set c (h s.dc[c]) }

/-- NCH of DC_CFG (R357). -/
def nch (s : State) : Nat := match s.f R.DC_CFG 1 0 with | 0 => 4 | 1 => 8 | _ => 16

/-- The fitted channels. -/
def fitted (s : State) : List (Fin 16) := (List.finRange 16).filter (fun c => c.val < s.nch)

/-- Ranks per channel (R357). -/
def ranks (s : State) : Nat := s.f R.DC_CFG 2 2 + 1

/-- The data rows per bank, Dr (R358). -/
def dataRows (s : State) : Nat := match s.f R.DC_CFG 5 4 with | 0 => 29127 | 1 => 58254 | _ => 116508

/-- The usable capacity DC_CAP in bytes (R358). -/
def dcCap (s : State) : Nat := s.nch * s.ranks * 16 * s.dataRows * 2048

/-- The channel of a usable address: each channel bit is the parity of A AND its mask (R360, R361). -/
def dcChan (s : State) (a : Nat) : Fin 16 :=
  let bit (i : Nat) : Nat := if parity ((a >>> 9) &&& s.f (R.DC_XOR_MASK i) 31 0) then 2 ^ i else 0
  Fin.ofNat 16 (((List.range (log2 s.nch)).map bit).sum)

/-- The bank of a usable address (R360, R361): 4 × bank group + bank in group. -/
def dcBank (s : State) (a : Nat) : Nat :=
  let bit (i : Nat) : Nat := if parity ((a >>> 9) &&& s.f (R.DC_XOR_MASK i) 31 0) then 1 else 0
  bit 4 + 2 * bit 5 + 4 * bit 6 + 8 * bit 7

/-- The rank, the row and the group within the row of a usable address (R360). -/
def dcRank (s : State) (a : Nat) : Nat := a / 2 ^ (15 + log2 s.nch) / s.dataRows
def dcRow (s : State) (a : Nat) : Nat := a / 2 ^ (15 + log2 s.nch) % s.dataRows
def dcGroup (s : State) (a : Nat) : Nat := a / 2 ^ (9 + log2 s.nch) % 4

/-- Where the unit of a usable address lies in its channel (R360, R361): its column is 8g plus the unit within the group. -/
def dcPlace (s : State) (a : Nat) : DcPlace := ⟨s.dcRank a, s.dcBank a, s.dcRow a, 8 * s.dcGroup a + a / 64 % 8⟩

/-- Where the check symbols of the unit at a place lie (R362): bytes 8k to 8k + 7 of the check unit belong to data unit k of the group. -/
def checkPlace (s : State) (x : DcPlace) : DcPlace :=
  ⟨x.rank, x.bank ^^^ 8, s.dataRows + x.row / 8, 4 * (x.row % 8) + x.unit / 8⟩
def checkByte (x : DcPlace) : Nat := 8 * (x.unit % 8)

/-- The masks and DC_CFG keep R360 and R361: every used mask holds its own base bit and no other base bit. -/
def masksLegal (s : State) : Bool :=
  let c := log2 s.nch
  let base (i : Nat) : Nat := if i < 4 then i else if i < 6 then 2 + c + (i - 4) else 4 + c + (i - 6)
  let used := List.range c ++ [4, 5, 6, 7]
  let bases := used.map base
  used.all (fun i => bases.all (fun b => (s.rd (R.DC_XOR_MASK i)).getLsbD b == (b == base i)))

/-- The share of a partition in bytes (R364). -/
def share (s : State) (p : Fin 4) : Nat × Nat :=
  (s.f (R.DC_PART_BASE p) 19 0 * 1048576, s.f (R.DC_PART_LIMIT p) 19 0 * 1048576)

/-- A range of addresses lies in the share of a partition. -/
def inShare (s : State) (p : Fin 4) (a n : Nat) : Bool := decide ((s.share p).1 ≤ a ∧ a + n ≤ (s.share p).2)

/-- The partition whose share holds an address, or the owner partition (R387). -/
def sharePart (s : State) (a : Nat) : Fin 4 :=
  ((List.finRange 4).find? (fun p => s.inShare p a 1)).getD s.owner

/-- A byte of acquisition memory as stored (R538: zero until something is written). -/
def memGet (s : State) (a : Nat) : Byte := Tab.get (fun _ => 0#8) s.mem a

/-- Store a byte of acquisition memory. -/
def memSet (s : State) (a : Nat) (b : Byte) : State := { s with mem := Tab.set (fun _ => 0#8) s.mem a b }

/-- Store bytes at consecutive addresses. -/
def memPut (s : State) (a : Nat) : List Byte → State
  | [] => s
  | b :: r => memPut (s.memSet a b) (a + 1) r

/-- `n` consecutive bytes as stored. -/
def memBytes (s : State) (a n : Nat) : List Byte := (List.range n).map (fun i => s.memGet (a + i))

/-- A write covers whole units from `a` to `a + n`: those units get good check symbols again (R363, R367). -/
def healUnits (s : State) (a n : Nat) : State :=
  { s with bad := s.bad.filter (fun u => !decide (a ≤ 64 * u ∧ 64 * u + 64 ≤ a + n)) }

/-- A unit becomes uncorrectable. -/
def spoil (s : State) (u : Nat) : State := { s with bad := if s.bad.contains u then s.bad else insertBy (fun x y => x ≤ y) u s.bad }

/-- An access outside the share of its partition: dropped or marked, with a DC_RANGE record (R364, R387). -/
def dcRange (s : State) (p : Fin 4) (port a : Nat) : State :=
  s.event p (R.DC_EVT_CNT 2) 0xF0 2 (s.dcChan a) none [(1, port), (8, a)]

/-- The capture region of a group that holds an address: its block's start address (R174, R180). -/
def regionBlock (s : State) (a : Nat) (g : Fin 16) : Option Nat :=
  let base := s.f (R.CH_GRP_RGN_BASE_HI g) 31 0 * 4294967296 + s.f (R.CH_GRP_RGN_BASE_LO g) 31 12 * 4096
  let size := s.f (R.CH_GRP_RGN_CTL g) 30 0
  if base ≤ a ∧ a < base + 512 * size then some (base + (a - base) / 512 * 512) else none

/-- FLAGS.BAD_MEM is set in the header of the block at `b`, whose header unit gets fresh check symbols (R180). -/
def setBadMem (s : State) (b : Nat) : State :=
  ((s.memSet (b + 4) (s.memGet (b + 4) ||| 0x80#8))).healUnits b 64

/-- An uncorrectable unit is found by an access of class `cls` and request port `port` (R367): DC_UE counts and reports it,
and every capture block that holds it gets BAD_MEM. -/
def dcUe (s : State) (a cls port : Nat) : State :=
  let c := s.dcChan a
  let s := s.bump (R.DC_UE_CNT c)
  let s := s.event (s.sharePart a) (R.DC_EVT_CNT 1) 0xF0 1 c none [(8, a), (1, cls), (1, port)]
  Bits.forAll (List.finRange 16) s (fun g s => match s.regionBlock a g with
    | some b => s.setBadMem b
    | none => s)

/-- The uncorrectable units that a range touches. -/
def badIn (s : State) (a n : Nat) : List Nat := s.bad.filter (fun u => decide (64 * u < a + n ∧ a < 64 * u + 64))

/-- The class of a request port (R370). -/
def portClass (port : Nat) : Nat := if port < 16 then 0 else if port < 24 then 1 else if port = 24 then 2 else if port < 29 then 3 else 4

/-- A write of a port of partition `p` (R363, R364, R367): outside the share it is dropped. A write of part of an ECC group
first reads the units it does not replace whole; an uncorrectable one stays so. -/
def acqWrite (s : State) (p : Fin 4) (port a : Nat) (bs : List Byte) : State :=
  let n := bs.length
  if s.inShare p a n then
    let old := (s.badIn (a / 512 * 512) (ceilDiv (a + n) 512 * 512 - a / 512 * 512)).filter (fun u =>
      !decide (a ≤ 64 * u ∧ 64 * u + 64 ≤ a + n))
    ((Bits.forAll old s (fun u s => s.dcUe (64 * u) (portClass port) port)).memPut a bs).healUnits a n
  else s.dcRange p port a

/-- `n` bytes whose values the spec leaves open. -/
def freeBytes (s : State) (n : Nat) : List Byte × State :=
  ((List.range n).map (fun i => BitVec.ofNat 8 (Config.freeWord (s.free + i)).toNat), { s with free := s.free + n })

/-- A unit is found uncorrectable (R367): what it holds from then on is open. -/
def damage (s : State) (u : Nat) : State :=
  if s.bad.contains u then s
  else
    let (bs, s) := s.freeBytes 64
    (s.memPut (64 * u) bs).spoil u

/-- A read of a port of partition `p` (R364, R367): the bytes, whether any unit is uncorrectable, and the state after the
reports. What a read outside the share returns is open. -/
def acqRead (s : State) (p : Fin 4) (port cls a n : Nat) : List Byte × Bool × State :=
  if s.inShare p a n then
    let us := s.badIn a n
    (s.memBytes a n, !us.isEmpty, Bits.forAll us s (fun u s => s.dcUe (64 * u) cls port))
  else
    let (bs, s) := s.freeBytes n
    (bs, true, s.dcRange p port a)

/-- A controller serves requests: its channel is ACTIVE (R378). -/
def dcActive (s : State) (a : Nat) : Bool := s.dc[s.dcChan a].st == .active

/-- The ranks of a controller. -/
def rankOf (d : DcSt) (r : Nat) : Rank := if r = 0 then d.r0 else d.r1

/-- Change one rank of a controller. -/
def setRank (s : State) (c : Fin 16) (r : Nat) (h : Rank → Rank) : State :=
  s.setDc c (fun d => if r = 0 then { d with r0 := h d.r0 } else { d with r1 := h d.r1 })

/-- A port of class C0 or C1 is in panic (R109, R294): the staging of its group, or its generator's FIFO. -/
def portPanic (s : State) (port : Nat) : Bool :=
  if port < 16 then
    let g := Fin.ofNat 16 port
    let lim := let p := s.f (R.CH_GRP_STG g) 7 0; (if p = 0 then 0x80 else p) * 256
    (List.range 8).any (fun j => decide (lim ≤ s.ch[chOf g j].stg.length))
  else if port < 24 then s.sgPanic (Fin.ofNat 8 (port - 16))
  else false

/-- The fill engines, the windows and the other ports queue a request at a channel (R370, R378): an access to the data unit and one to its check
unit (R362, R363). -/
def dcRequest (s : State) (port cls a : Nat) (wr : Bool) : State :=
  s.setDc (s.dcChan a) (fun d => { d with reqs := d.reqs ++ [⟨port, cls, a, wr, s.tb.count, false, s.dcPlace a, s.checkPlace (s.dcPlace a)⟩] })

/-- The first corrected symbol of a channel in each second produces DC_CE (R366). -/
def dcCe (s : State) (c : Fin 16) (a : Nat) : State :=
  let s := s.bump (R.DC_CE_CNT c)
  if (s.dc[c].ceAt.map (fun t => s.since t 2000000000)).getD true then
    (s.setDc c (fun d => { d with ceAt := some s.tb.count })).event (s.sharePart a) (R.DC_EVT_CNT 0) 0xF0 0 c none [(8, a)]
  else s

/-- What an access met in the DRAM. -/
def accessDone (s : State) (c : Fin 16) (port cls a : Nat) (outcome : Nat) (ns : Nat) : State :=
  let s := s.setDc c (fun d => { d with reqs := d.reqs.eraseP (fun r => r.port = port ∧ r.cls = cls ∧ r.addr = a) })
  let s := match outcome with
    | 0 => s
    | 1 => (s.dcCe c a).dcRequest 30 4 (a / 64 * 64) true
    | _ => (s.damage (a / 64)).dcUe (a / 64 * 64) cls port
  s.monEvent 1 c cls ns

/-! ## Refresh -/

/-- tREFI of a rank in TBCLK counts: TREFI × 8 ns / MULT (R373). -/
def trefiCounts (s : State) (c : Fin 16) (r : Nat) : Nat :=
  s.f (R.DC_TIM2 c) 31 20 * 16 / 2 ^ (rankOf s.dc[c] r).mult

/-- A rank that refreshes: it is fitted, and not in self-refresh (R357, R373). -/
def refreshing (s : State) (c : Fin 16) (r : Nat) : Bool :=
  decide (c.val < s.nch) && decide (r < s.ranks) && !(rankOf s.dc[c] r).selfRef

/-- A refresh interval accrues to a rank's debt every tREFI / MULT; at 8 refresh becomes mandatory until the debt is 7 (R373,
R375). -/
def refreshDue (s : State) (c : Fin 16) (r : Nat) : State :=
  if s.refreshing c r && s.since (rankOf s.dc[c] r).due (s.trefiCounts c r) then
    s.setRank c r (fun k => { k with debt := k.debt + 1, must := max k.must (k.debt + 1 - 7), due := s.tb.count })
  else s

/-- A new multiplier converts the debt (R376): debt × MULT_new / MULT_old rounded up, all mandatory when it rose. -/
def newMult (s : State) (c : Fin 16) (r m : Nat) : State :=
  let k := rankOf s.dc[c] r
  if k.mult = m then s
  else
    let d := ceilDiv (k.debt * 2 ^ m) (2 ^ k.mult)
    let s := s.setRank c r (fun k => { k with debt := d, must := if k.debt < d then d else k.must, mult := m })
    s.eventAll (R.DC_EVT_CNT 4) 0xF0 4 c none [(1, r), (1, m)]

/-- MR4 is read (R376): a code above the die's range sets MULT to 4 and produces DC_DRAM_HOT. -/
def mr4 (s : State) (c : Fin 16) (r m : Nat) (hot : Bool) : State :=
  if !s.refreshing c r then s
  else
    let s := s.newMult c r (if hot then 2 else m)
    let s := s.setRank c r (fun k => { k with hot := hot })
    let s := if hot then s.faultNote 0x51 c else s
    if hot then s.eventAll (R.DC_EVT_CNT 8) 0xF0 8 c none [(1, r)] else s

/-- A hold ends (R376): DC_REFRESH_HOLD carries the rank and the hold time. -/
def holdEnd (s : State) (c : Fin 16) (r : Nat) : State :=
  match (rankOf s.dc[c] r).hold with
  | some (_, t) => (s.setRank c r (fun k => { k with hold := none })).eventAll (R.DC_EVT_CNT 3) 0xF0 3 c none
      [(1, r), (8, (s.tb.count - t).toNat / 2)]
  | none => s

/-- A per-bank refresh ends (R373 to R376): eight pay one interval; when the mandatory part is paid, a hold ends. -/
def perBankDone (s : State) (c : Fin 16) (r : Nat) : State :=
  if !s.refreshing c r || (rankOf s.dc[c] r).debt == 0 then s
  else
    let s := s.setRank c r (fun k => { k with
      next := (k.next + 1) % 8, paid := (k.paid + 1) % 8,
      debt := if k.paid = 7 then k.debt - 1 else k.debt,
      must := if k.paid = 7 then k.must - 1 else k.must })
    if (rankOf s.dc[c] r).must = 0 then s.holdEnd c r else s

/-- Before self-refresh entry the mandatory refreshes of a rank are paid (R380). -/
def payMust (s : State) (c : Fin 16) (r : Nat) : State :=
  if (rankOf s.dc[c] r).must = 0 then s
  else (s.setRank c r (fun k => { k with debt := k.debt - k.must, must := 0, paid := 0 })).holdEnd c r

/-- A hold begins when a panicking port waits for a mandatory refresh, and ends when it no longer waits (R376). `waits` is that
port. -/
def holdCheck (s : State) (c : Fin 16) (r : Nat) (waits : Option Nat) : State :=
  let k := rankOf s.dc[c] r
  match k.hold, waits with
  | none, some p => if k.must ≠ 0 then s.setRank c r (fun k => { k with hold := some (p, s.tb.count) }) else s
  | some _, none => s.holdEnd c r
  | _, _ => s

/-! ## Enable, training and self-refresh -/

/-- The quadrant of a channel. -/
def quadOf (c : Fin 16) : Fin 4 := Fin.ofNat 4 (c.val / 4)

/-- All ranks of a controller enter or leave self-refresh. -/
def setSelfRef (s : State) (c : Fin 16) (b : Bool) : State :=
  let h (k : Rank) : Rank := { k with selfRef := b, due := s.tb.count }
  (s.setRank c 0 h).setRank c 1 h

/-- A controller leaves self-refresh and starts the fast retrain of R383, or the full training of R381. Custom values count as
saved (R384). -/
def startTrain (s : State) (c : Fin 16) : State :=
  (s.setSelfRef c false).setDc c (fun d => { d with
    st := if d.trained || s.fb (R.DC_CTL c) 1 then .retrain else .training, stopping := false })

/-- The masks of the used hashed bits, by number, and the base bits they hold (R360, R361). -/
def usedMasks (s : State) : List (Nat × Nat) :=
  let c := log2 s.nch
  (List.range c).map (fun i => (i, i)) ++ [(4, 2 + c), (5, 3 + c), (6, 4 + c), (7, 5 + c)]

/-- The usable address under the present masks of what lay at a usable address under the masks `old`: the place in the DRAM
stays (R360, R361). -/
def remapAddr (s : State) (old : List Nat) (a : Nat) : Nat :=
  s.usedMasks.foldl (fun x e =>
    if parity ((a >>> 9) &&& old.getD e.1 0) = parity ((a >>> 9) &&& s.f (R.DC_XOR_MASK e.1) 31 0) then x
    else x ^^^ 2 ^ (9 + e.2)) a

/-- The masks now in force name the places of the DRAM's contents: after a change of masks the contents stand at other usable
addresses. -/
def remap (s : State) : State :=
  let now := (List.range 8).map (fun i => s.f (R.DC_XOR_MASK i) 31 0)
  let old := s.dcMap
  if old = now then s
  else if old = [] then { s with dcMap := now }
  else { s with
    dcMap := now,
    mem := s.mem.foldl (fun m e => Tab.set (fun _ => 0#8) m (s.remapAddr old e.1) e.2) [],
    bad := s.bad.foldl (fun m u => insertBy (fun x y => x ≤ y) (s.remapAddr old (64 * u) / 64) m) [] }

/-- DC_TRAINED with kind FULL (0) or FAST (1). -/
def dcTrained (s : State) (c : Fin 16) (kind : Nat) : State := s.eventAll (R.DC_EVT_CNT 5) 0xF0 5 c none [(1, kind)]

/-- Setting EN of a controller (R379). The write is ignored and logged for an unfitted channel, for a DC_CFG or masks that
break R360 and R361, with DPLLq unlocked, or in a state other than DISABLED and FAILED. -/
def dcEnable (s : State) (p : Part) (c : Fin 16) : State :=
  let ok := decide (c.val < s.nch) && s.masksLegal && s.tb.dpll[quadOf c].lock &&
    (match s.dc[c].st with | .disabled => true | .failed => true | _ => false)
  if ok then (s.wrF (R.DC_CTL c) 0 0 1).remap.startTrain c
  else (if s.dc[c].st == .disabled then s.wrF (R.DC_CTL c) 0 0 0 else s).ignored p

/-- Clearing EN drains the channel, enters self-refresh and reaches DISABLED (R379). -/
def dcDisable (s : State) (c : Fin 16) : State :=
  match s.dc[c].st with
  | .active => s.setDc c (fun d => { d with stopping := true })
  | .disabled => s
  | _ => ((((s.payMust c 0).payMust c 1)).setDc c (fun d => { d with st := .disabled })).setSelfRef c true

/-- A controller acknowledges self-refresh (R379, R380): after EN was cleared it reaches DISABLED, and on a DPLL loss of
lock it is in SELF_REFRESH and its quadrant's clocks are gated once every controller has acknowledged (R76). -/
def srAck (s : State) (c : Fin 16) : State :=
  let s := (s.payMust c 0).payMust c 1
  if s.dc[c].stopping then (s.setDc c (fun d => { d with st := .disabled, stopping := false, reqs := [] })).setSelfRef c true
  else
    let q := quadOf c
    match s.dc[c].st, s.tb.dpll[q].lolAt with
    | .active, some _ | .retrain, some _ | .training, some _ =>
      let s := (s.setDc c (fun d => { d with st := .selfRefresh })).setSelfRef c true
      let acks := c.val :: (s.tb.dpll[q].acks)
      let need := s.fitted.filter (fun x => quadOf x == q &&
        (match s.dc[x].st with | .disabled => false | .failed => false | _ => true))
      s.setTb (fun t => { t with dpll := t.dpll.set q { t.dpll[q] with
        acks := acks, gated := t.dpll[q].gated || need.all (fun x => acks.contains x.val) } })
    | _, _ => s

/-- The 32-bit delays and Vref of a training, stored as EG fields by the hardware (R381, R450). -/
def saveTraining (s : State) (c : Fin 16) (wr rd ca : List Nat) (vref : Word) : State :=
  let s := Bits.forAll (List.range 18) s (fun k s => (s.wr (R.DC_DLY_WR c k) (word (wr.getD k 0x100 % 512))).wr
    (R.DC_DLY_RD c k) (word (rd.getD k 0x100 % 512)))
  let s := Bits.forAll (List.range 8) s (fun k s => s.wr (R.DC_DLY_CA c k) (word (ca.getD k 0x100 % 512)))
  s.wr (R.DC_VREF c) vref

/-- A full training ends (R381): `fail` names the failing step. -/
def fullDone (s : State) (c : Fin 16) (fail : Option Nat) (wr rd ca : List Nat) (vref : Word) : State :=
  match fail with
  | none =>
    let s := s.saveTraining c wr rd ca vref
    let s := s.setDc c (fun d => { d with st := .active, trained := true, fullFor := false })
    (s.setSelfRef c false).dcTrained c 0
  | some step =>
    ((s.setDc c (fun d => { d with st := .failed, fullFor := false })).setSelfRef c true).eventAll
      (R.DC_EVT_CNT 6) 0xF0 6 c none [(1, step)]

/-- A fast retrain ends (R383): with every error count zero the channel is ACTIVE, otherwise a full training follows. -/
def fastDone (s : State) (c : Fin 16) (ok : Bool) : State :=
  if ok then ((s.setDc c (fun d => { d with st := .active })).setSelfRef c false).dcTrained c 1
  else (s.setDc c (fun d => { d with st := .training, fullFor := true })).faultNote 0x50 c

/-! ## Custom training -/

/-- A custom training command (R384): with EN = 0 and TRN_OWN = 1 and no command running it starts and its compare counts
restart; otherwise it is ignored and logged. -/
def trnStart (s : State) (p : Part) (c : Fin 16) : State :=
  let op := fld p.data 3 0
  if s.fb (R.DC_CTL c) 0 || !s.fb (R.DC_CTL c) 1 || s.dc[c].trn.isSome || decide (8 < op) then s.ignored p
  else
    let s := Bits.forAll (List.range 18) s (fun k s => s.wr (R.DC_TRN_ERR c k) 0#32)
    s.setDc c (fun d => { d with trn := some ⟨op, fld p.data 4 4, fld p.data 8 5, fld p.data 31 16⟩ })

/-- The usable address of unit `n` in row 0 of a rank and bank of a channel. The units a WRITE burst overwrites are the units from
column 0 on; each burst is one unit. -/
def rowUnit (s : State) (c : Fin 16) (rank bank n : Nat) : Option Nat :=
  let cl := log2 s.nch
  let m := rank * s.dataRows
  let top := m * 2 ^ (15 + cl)
  let cand := (List.range (16 * s.nch)).map (fun i =>
    top + (i / s.nch) * 2 ^ (11 + cl) + (i % s.nch) * 512 + n / 8 % 4 * 2 ^ (9 + cl) + n % 8 * 64)
  cand.find? (fun a => s.dcChan a == c && s.dcPlace a == ⟨rank, bank, 0, n % 32⟩)

/-- A custom training command completes (R384). `mrr` is the byte an MR read returned, `errs` the compare errors by bit,
`beats` the 64-byte units that WRITE bursts left in the row. -/
def trnDone (s : State) (c : Fin 16) (mrr : Byte) (errs : List Nat) (beats : List (List Byte)) : State :=
  match s.dc[c].trn with
  | none => s
  | some t =>
    let s := s.setDc c (fun d => { d with trn := none })
    let s := if s.masksLegal then s.remap else s
    let s := match t.op with
      | 1 => s.wrF (R.DC_TRN_STATUS c) 15 8 mrr.toNat
      | 2 => Bits.forAll ((List.range (t.arg + 1)).zip beats) s (fun e s => match s.rowUnit c t.rank t.bank (e.1 % 32) with
          | some a => (s.memPut a (padTo 64 e.2)).spoil (a / 64)
          | none => s)
      | 6 => s.setRank c t.rank (fun k => { k with selfRef := true })
      | 7 => s.setRank c t.rank (fun k => { k with selfRef := false })
      | _ => s
    if t.op = 3 ∨ t.op = 5 then
      Bits.forAll (List.range 18) s (fun k s => s.bump (R.DC_TRN_ERR c k) (errs.getD k 0))
    else s

/-! ## Fill engines and start-up zeroing -/

/-- Change one fill engine. -/
def setFill (s : State) (p : Fin 4) (h : FillSt → FillSt) : State := { s with fill := s.fill.set p (h s.fill[p]) }

/-- GO of a fill engine (R369): ignored and logged while BUSY, or with a range outside the share. -/
def fillGo (s : State) (c : Part) (p : Fin 4) : State :=
  let base := s.f (R.DC_FILL_BASE p) 19 0 * 1048576
  let size := s.f (R.DC_FILL_CTL p) 19 0 * 1048576
  if s.fill[p].busy || !s.inShare p base size then s.ignored c
  else
    ((s.setFill p (fun _ => { busy := true, base := base, size := size })).wrF
      (R.DC_FILL_CTL p) 29 28 0).dcRequest (31 + p.val) 4 base true

/-- The fill engine completes (R369): the region holds zeros, RESULT shows PASS or FAIL, DC_FILL_DONE carries the first
failing address. -/
def fillDone (s : State) (p : Fin 4) (fail : Option Nat) : State :=
  let F := s.fill[p]
  if F.busy then
    let s := { s with
      mem := s.mem.filter (fun e => !decide (F.base ≤ e.1 ∧ e.1 < F.base + F.size)) }
    let s := s.healUnits F.base F.size
    let s := (s.setFill p (fun F => { F with busy := false })).wrF (R.DC_FILL_CTL p) 29 28 (if fail.isSome then 2 else 1)
    s.event p (R.DC_EVT_CNT 7) 0xF0 7 p none [(1, if fail.isSome then 2 else 1), (8, fail.getD 0)]
  else s

end State
end Sys2Proof.Machine
end

