-- ==== Sys2Proof/Machine/Packer.lean ====
section
/-! DEFINITION. Staging and the packer: overflow (R109 to R111), the stream of items and its order (R156 to R172), the
block and its encodings (R152 to R171), regions (R173 to R177). -/

namespace Sys2Proof.Machine

open Bits

/-- An item ready to be written: its stamp, its bytes as a function of the delta from the running stamp, the flags it
sets in the block, whether it is a STATE sample, and the change it makes to the stream's values. -/
structure Item where
  stamp : Stamp
  bytes : List Byte
  flags : Nat
  delta : Option Nat := none

/-- The FLAGS bits of R154. -/
def flagGap : Nat := 1
def flagCoast : Nat := 2
def flagEpoch : Nat := 4
def flagTrig : Nat := 8
def flagSealed : Nat := 16
def flagOvf : Nat := 32
def flagBad : Nat := 64
def flagFirst : Nat := 256
def flagLast : Nat := 512
def flagCstart : Nat := 1024

/-- The bytes of a marker (R162): type, DELTA, body. -/
def markerBytes (type delta : Nat) (body : List Byte) : List Byte :=
  BitVec.ofNat 8 (7 + 16 * type) :: (leBytes 4 delta ++ body)

/-- The bytes of a marker kind after a given delta (R162). -/
def MarkKind.bytes (k : MarkKind) (delta : Nat) : List Byte :=
  match k with
  | .gap cause opener fall mask levels first count =>
    markerBytes 0 delta (leBytes 1 (cause + 8 * b2n opener + 16 * b2n fall) ++ leBytes 1 mask ++ leBytes 1 levels
      ++ leBytes 8 first.toNat ++ leBytes 4 count)
  | .epoch cause j => markerBytes 1 (if cause = 0 then 0 else delta)
      (leBytes 1 cause ++ leBytes 2 (BitVec.ofInt 16 j).toNat)
  | .coastBegin => markerBytes 2 delta []
  | .coastEnd => markerBytes 3 delta []
  | .trig cause cond err seq stage =>
    markerBytes 4 delta (leBytes 1 (cause + 4 * cond + 16 * b2n err) ++ leBytes 1 (seq + 16 * stage))
  | .ovf field => markerBytes 6 delta (leBytes 1 field)
  | .finish cause => markerBytes 7 delta (leBytes 1 cause)
  | .margin field setup hold nsamp =>
    markerBytes 9 delta (leBytes 1 field ++ leBytes 2 setup ++ leBytes 2 hold ++ leBytes 3 (nsamp - 1))

/-- The FLAGS bits a marker sets (R154). -/
def MarkKind.flags : MarkKind → Nat
  | .gap cause _ _ _ _ _ _ => flagGap ||| (if cause = 0 then flagOvf else 0)
  | .epoch _ _ => flagEpoch
  | .coastBegin | .coastEnd => flagCoast
  | .trig _ _ _ _ _ => flagTrig
  | .ovf _ => flagOvf
  | .finish _ => flagLast
  | .margin _ _ _ _ => 0

/-- The class of a marker in the order of R157. -/
def MarkKind.cls : MarkKind → Nat
  | .gap _ opener _ _ _ _ _ => if opener then 6 else 1
  | .coastEnd => 2
  | .epoch _ _ => 3
  | .coastBegin => 4
  | .margin _ _ _ _ => 5
  | .ovf _ => 6
  | .trig _ _ _ _ _ => 7
  | .finish _ => 8

/-- A transition entry in the shortest form that holds its delta (R159, R161). -/
def edgeEntry (field delta : Nat) : List Byte :=
  if delta < 4096 then leBytes 2 (2 * field + 16 * delta)
  else if delta < 524288 then leBytes 3 (1 + 4 * field + 32 * delta)
  else leBytes 5 (3 + 8 * field + 64 * delta)

/-- A re-base (R159). -/
def rebaseEntry (t : Stamp) : List Byte := 0x0F#8 :: leBytes 8 t.toNat

/-- A run entry of TIMING in its shortest form (R170); `w` is the width of VALUE. -/
def timingEntry (w value run : Nat) : List Byte :=
  let n := run - 1
  if n < 128 then leBytes ((1 + w + 7) / 8) (2 * value + n * 2 ^ (1 + w))
  else if n < 4194304 then leBytes ((2 + w + 22) / 8) (1 + 4 * value + n * 2 ^ (2 + w))
  else leBytes ((3 + w + 53) / 8) (3 + 8 * value + n * 2 ^ (3 + w))

/-- A STATE entry in its shortest form (R171). `prev` is the delta of the sample entry directly before it. -/
def stateEntry (value delta : Nat) (prev : Option Nat) : List Byte :=
  let short : Option Int := prev.bind (fun p =>
    let d := (delta : Int) - p
    if -64 ≤ d ∧ d ≤ 63 then some d else none)
  match short with
  | some d => leBytes 2 (2 * value + 512 * (BitVec.ofInt 7 d).toNat)
  | none =>
    if delta < 16384 then leBytes 3 (1 + 4 * value + 1024 * delta)
    else leBytes 5 (3 + 8 * value + 2048 * delta)

namespace State

/-- The delta of a stamp from the running stamp of a group. -/
def deltaOf (s : State) (g : Fin 16) (t : Stamp) : Nat := (t - s.grp[g].running).toNat

/-- The order of items (R157): stamp, then class. -/
def itemLe (a b : Mark) : Bool := if a.stamp = b.stamp then a.cls ≤ b.cls else before a.stamp b.stamp

/-- Put a marker into the stream of a group, in order. A marker outside the run is not written. -/
def addMark (s : State) (g : Fin 16) (t : Stamp) (k : MarkKind) : State :=
  s.setGrp g (fun G => { G with marks := insertBy itemLe ⟨t, k.cls, k⟩ G.marks })

/-- Put a marker into every active capture stream. -/
def addMarkAll (s : State) (t : Stamp) (k : MarkKind) : State :=
  forAll (List.finRange 16) s (fun g s => if s.streamActive g then s.addMark g t k else s)

/-- The bit of a TDC's signal in the masks of its group (R153, R163). -/
def sigBit (s : State) (tdc : Fin 128) : Nat := (s.signal tdc).val % 8

/-- An edge event reaches staging (R109, R110): it is staged, or dropped while the channel is in overflow. -/
def stageEdge (s : State) (e : EdgeRec) : State :=
  let c := Fin.ofNat 128 e.tdc
  let g := grpOf c
  let lvl := e.coll.getD e.rise
  match s.ch[c].ovf with
  | some o =>
    let s := if o.drops.isEmpty then s.addMark g e.stamp (.ovf (c.val % 8)) else s
    (s.setCh c (fun C => { C with
      ovf := some ⟨if o.drops.isEmpty then e.stamp else o.first, (e.stamp, lvl) :: o.drops⟩ })).bump (R.CH_GRP_OVF_CNT g)
  | none =>
    if 65536 ≤ s.ch[c].stg.length then
      let s := (s.setCh c (fun C => { C with ovf := some ⟨e.stamp, [(e.stamp, lvl)]⟩ })).addMark g e.stamp (.ovf (c.val % 8))
      (s.bump (R.CH_GRP_OVF_CNT g)).event (s.grpPart g) (R.CH_GRP_EVT_CNT g 4) 0x09 4 g (some e.stamp) [(1, s.signal c)]
    else s.setCh c (fun C => { C with stg := C.stg ++ [e] })

/-- RESUME of a group in events (R110). -/
def resumeLevel (s : State) (g : Fin 16) : Nat :=
  let r := s.f (R.CH_GRP_STG g) 23 16
  (if r = 0 then 0xC0 else r) * 256

/-- The overflow of a TDC ends (R110): GRP_RESUME carries the dropped events, and the episode waits for its GAP marker (R111). -/
def endOvf (s : State) (c : Fin 128) : State :=
  match s.ch[c].ovf with
  | none => s
  | some o =>
    let s := s.setCh c (fun C => match o.drops with
      | [] => { C with ovf := none }
      | d :: _ => { C with ovf := none, ovfDone := C.ovfDone ++ [o], ovfs := (o.first, d.1) :: C.ovfs })
    s.event (s.grpPart (grpOf c)) (R.CH_GRP_EVT_CNT (grpOf c) 5) 0x09 5 (grpOf c) none [(1, s.signal c), (4, o.drops.length)]

/-- The packer takes the oldest staged event of a TDC; overflow ends when the level has fallen to RESUME (R110). -/
def popStg (s : State) (c : Fin 128) : State :=
  let s := s.setCh c (fun C => { C with stg := C.stg.drop 1 })
  if s.ch[c].stg.length ≤ s.resumeLevel (grpOf c) then s.endOvf c else s

/-- What a run leaves in staging goes, and open overflows end (R110, R168, R175). -/
def clearStg (s : State) (g : Fin 16) : State :=
  forAll (List.range 8) s (fun j s => (s.endOvf (chOf g j)).setCh (chOf g j) (fun C => { C with stg := [], ovfDone := [] }))

/-! ## Blocks -/

/-- The size of a group's region in blocks, whether it is linear, and whether the run is sealed (R174, R175). -/
def rgnSize (s : State) (g : Fin 16) : Nat := s.f (R.CH_GRP_RGN_CTL g) 30 0
def linear (s : State) (g : Fin 16) : Bool := s.fb (R.CH_GRP_RGN_CTL g) 31

/-- The block the packer has open, or will open next, is the one with the reserved space of R175. -/
def lastBlock (s : State) (g : Fin 16) : Bool :=
  s.linear g && s.grp[g].writes + (if s.grp[g].sealed then 2 else 1) == s.rgnSize g

/-- The sample period P of TIMING (R98). -/
def timPeriod (s : State) (g : Fin 16) : Nat := 64 * max 1 (s.f (R.CH_GRP_TIMING g) 23 0)

/-- The instant of the next TIMING sample (R98). -/
def nextInstant (s : State) (g : Fin 16) : Stamp := s.grp[g].start.getD 0 + stamp (s.timPeriod g * s.grp[g].nextM)

/-- The BASE that the next data block will carry: what a seal block has given for it (R183); S for the first block of a run,
then the running stamp (R156); in TIMING the instant of the block's first sample (R170). -/
def nextBase (s : State) (g : Fin 16) : Stamp :=
  match s.grp[g].nextB with
  | some b => b
  | none =>
    if s.grp[g].writes = 0 then s.grp[g].start.getD 0
    else if s.modeG g = 2 then
      match s.grp[g].trun with
      | some r => r.last - stamp (s.timPeriod g * (r.len - 1))
      | none => s.nextInstant g
    else s.grp[g].running

/-- The channels inside an opened gap, by the bits of OPEN (R153): overflow is kept by TDC, and named by signal. -/
def openBits (s : State) (g : Fin 16) : Nat :=
  let G := s.grp[g]
  G.opened ||| G.openedRel ||| (if s.splitG g then (G.openedOvf ||| G.openedOvf / 2) &&& 85 else G.openedOvf)

/-- Open a block at the stream's present point (R153, R156). -/
def openBlk (s : State) (g : Fin 16) (first : Stamp) : State :=
  s.setGrp g (fun G =>
    let base := s.nextBase g
    { G with
      running := if s.modeG g = 2 then base - stamp (s.timPeriod g) else base,
      nextB := none,
      blk := some
        { base := base, levels := G.levels, opened := s.openBits g, first := first, count := 0, bytes := [],
          prevD := none,
          flags := (if G.coast then flagCoast ||| flagCstart else 0) ||| (if G.writes = 0 then flagFirst else 0) } })

/-- Close the open block; it then waits to be written (R176). -/
def closeBlk (s : State) (g : Fin 16) : State :=
  s.setGrp g (fun G => match G.blk with
    | none => G
    | some b => { G with
        blk := none,
        out := some
          { base := b.base, levels := b.levels, opened := b.opened, flags := b.flags, count := b.count, body := b.bytes,
            isSeal := false, last := decide (b.flags &&& flagLast ≠ 0) } })

/-- The packer may open a block: no closed block of the group waits, and the sealer owes it nothing (R185). -/
def blkFree (s : State) (g : Fin 16) : Bool := s.grp[g].out.isNone && !s.grp[g].sealJob

/-- A sealed packer waits for the sealer; the first wait after a start is reported (R185). -/
def sealStall (s : State) (g : Fin 16) : State :=
  if s.grp[g].sealJob then
    let seen := s.grp[g].stallSeen
    let s := s.setGrp g (fun G => { G with stallSeen := true, sealWait := true })
    if seen then s else s.event (s.grpPart g) (R.CH_CAP_EVT_CNT g 1) 0x0A 1 g (some s.now) []
  else s

/-- Append an item to the open block and move the running stamp to it. -/
def append (s : State) (g : Fin 16) (it : Item) : State :=
  s.setGrp g (fun G => match G.blk with
    | none => G
    | some b => { G with
        running := it.stamp,
        blk := some { b with count := b.count + 1, bytes := b.bytes ++ it.bytes, flags := b.flags ||| it.flags, prevD := it.delta } })

/-- The run ends in a full linear region (R175): END with cause FULL at the stamp of the item that does not fit. -/
def endFull (s : State) (g : Fin 16) (t : Stamp) : State :=
  let s := if 4294967296 ≤ s.deltaOf g t then s.append g ⟨t, rebaseEntry t, 0, none⟩ else s
  let s := s.append g ⟨t, (MarkKind.finish 1).bytes (s.deltaOf g t), flagLast, none⟩
  let s := (s.closeBlk g).setGrp g (fun G => { G with ended := true, stop := some t, st := .drain, marks := [], samples := [], pendStops := [], trun := none })
  let s := s.wr64 (R.CH_GRP_STOP_LO g) (R.CH_GRP_STOP_HI g) t
  let s := s.clearStg g
  let s := s.setTrg (fun T => { T with flow := insertBy (fun a b => upto a.1 b.1) (t, .close g) T.flow })
  s.event (s.grpPart g) (R.CH_GRP_EVT_CNT g 1) 0x09 1 g (some t) []

/-- Try to write an item: the item is appended (second component true), or a block boundary must come first. -/
def emit (s : State) (g : Fin 16) (it : Stamp → List Byte) (t : Stamp) (flags : Nat) (delta : Option Nat) (isEnd : Bool) :
    State × Bool :=
  let s1 : State × Bool :=
    match s.grp[g].blk with
    | some _ => (s, true)
    | none => if s.blkFree g then (s.openBlk g t, true) else (s.sealStall g, false)
  if s1.2 then
    let s := s1.1
    let bs := it s.grp[g].running
    let used := (s.grp[g].blk.map (fun b => b.bytes.length)).getD 0
    let cap := if s.lastBlock g && !isEnd then 465 else 480
    if used + bs.length ≤ cap then (s.append g ⟨t, bs, flags, delta⟩, true)
    else if s.lastBlock g then (s.endFull g t, false)
    else (s.closeBlk g, false)
  else s1

/-- A marker's delta of 2^32 or more takes a re-base first (R161). TIMING has no re-base (R170): there the next block, whose
BASE is close by, takes the marker, and where there is no next block the region is full (R175; log entry 143). -/
def farMark (s : State) (g : Fin 16) (t : Stamp) (isEnd : Bool) : State × Bool :=
  if s.modeG g = 2 && !(s.lastBlock g && isEnd) then (if s.lastBlock g then s.endFull g t else s.closeBlk g, false)
  else ((s.emit g (fun _ => rebaseEntry t) t 0 none isEnd).1, false)

/-- A marker's delta is too large for its place (R161). -/
def isFar (s : State) (g : Fin 16) (t : Stamp) : Bool :=
  decide (4294967296 ≤ s.deltaOf g t) && (s.modeG g ≠ 2 || s.grp[g].blk.isSome)

/-- Write a marker. -/
def emitMark (s : State) (g : Fin 16) (t : Stamp) (k : MarkKind) : State × Bool :=
  let isEnd := match k with | .finish _ => true | _ => false
  let wrap := match k with | .epoch 0 _ => true | _ => false
  if s.isFar g t && !wrap then s.farMark g t isEnd
  else s.emit g (fun run => k.bytes (t - run).toNat) t k.flags none isEnd

/-- Some bits of a mask take new values. -/
def mergeBits (old mask new : Nat) : Nat := (old &&& (255 - mask)) ||| (new &&& mask)

/-- The gaps that stay open after a marker (R95, R153, R163): each closer ends its own cause's gap, and QUAL has no opener. -/
def gapOpened (s : State) (g : Fin 16) (k : MarkKind) : State :=
  s.setGrp g (fun G => match k with
    | .gap 2 true _ mask _ _ _ => { G with opened := G.opened ||| mask }
    | .gap 3 true _ mask _ _ _ => { G with openedRel := G.openedRel ||| mask }
    | .ovf field => { G with openedOvf := G.openedOvf ||| 2 ^ field }
    | .gap 0 false fall mask _ _ _ => { G with openedOvf := G.openedOvf &&& (255 - (if fall then 2 * mask else mask)) }
    | .gap 2 false _ mask _ _ _ => { G with opened := G.opened &&& (255 - mask) }
    | .gap 3 false _ mask _ _ _ => { G with openedRel := G.openedRel &&& (255 - mask) }
    | _ => G)

/-- The signals in whose stream a marker opens a gap, and their levels before it (R163). -/
def opensAt (s : State) (g : Fin 16) (t : Stamp) (k : MarkKind) : Nat × Nat :=
  match k with
  | .gap _ true _ mask levels _ _ => (mask, levels)
  | .ovf field =>
    let j := s.sigBit (chOf g field)
    (2 ^ j, if s.lvlBelow (chOf g j) t then 2 ^ j else 0)
  | _ => (0, 0)

/-- The change a marker that has been written makes to the stream's values (R163 to R165). A channel that enters a gap keeps the
level before it for the samples (R100, R171), and one that stays in another gap goes on keeping it. -/
def afterMark (s : State) (g : Fin 16) (t : Stamp) (k : MarkKind) : State :=
  let was := s.openBits g
  let x := s.opensAt g t k
  let fresh := if s.modeG g = 3 then x.1 &&& (255 - was) else 0
  let s := s.gapOpened g k
  let still := s.openBits g
  s.setGrp g (fun G => match k with
    | .gap _ false _ mask levels _ _ => { G with
        levels := mergeBits G.levels mask levels, vals := mergeBits G.vals (mask &&& (255 - still)) levels }
    | .gap _ true _ _ _ _ _ | .ovf _ => { G with vals := mergeBits G.vals fresh x.2 }
    | .epoch 0 _ => { G with running := 0 }
    | .coastBegin => { G with coast := true }
    | .coastEnd => { G with coast := false }
    | .finish _ => { G with ended := true }
    | _ => G)

/-- Set a bit of a mask. -/
def putBit (m i : Nat) (b : Bool) : Nat := (m &&& (255 - 2 ^ i)) ||| (if b then 2 ^ i else 0)

/-- VALUE of a sample from the group's eight levels: signal j of a split group is bit j (R170). -/
def sampleValue (s : State) (g : Fin 16) (levels : Nat) : Nat :=
  if s.splitG g then ((List.range 4).map (fun j => if levels.testBit (2 * j) then 2 ^ j else 0)).sum else levels % 256

/-- The levels that VALUE of a run entry or sample gives to the group's channels (R170). -/
def spreadValue (s : State) (g : Fin 16) (value : Nat) : Nat :=
  if s.splitG g then ((List.range 4).map (fun j => if value.testBit j then 4 ^ j else 0)).sum else value % 256

/-- The run entry being built is written (R170). -/
def flushRun (s : State) (g : Fin 16) : State × Bool :=
  match s.grp[g].trun with
  | none => (s, true)
  | some r =>
    let w := if s.fb (R.CH_GRP_CTL g) 4 then 16 else 8
    let x := s.emit g (fun _ => timingEntry w r.value r.len) r.last 0 none false
    if x.2 then (x.1.setGrp g (fun G => { G with trun := none, levels := s.spreadValue g r.value }), true) else (x.1, false)

/-- The storage qualifier a group uses: none stores everything (R97). -/
def qualSel (s : State) (g : Fin 16) : Option (Fin 8) :=
  let n := s.f (R.CH_GRP_CTL g) 15 12
  if 1 ≤ n ∧ n ≤ 8 then some (Fin.ofNat 8 (n - 1)) else none

/-- The group stores what is stamped `t` (R97). -/
def stores (s : State) (g : Fin 16) (t : Stamp) : Bool :=
  match s.qualSel g with
  | none => true
  | some q => s.sqAt q t

/-- The LEVELS of a DISABLED or RELOCK gap marker (R163): the levels of its channels at its stamp under R539; before a RELOCK gap
the edges stamped V0 stand too. They are taken when the marker is written, once every edge event below its stamp is known. -/
def fillLevels (s : State) (g : Fin 16) (t : Stamp) (k : MarkKind) : MarkKind :=
  let lv (mask : Nat) : Nat :=
    ((s.dataBits g).map (fun j => if mask.testBit j && s.lvlBelow (chOf g j) t then 2 ^ j else 0)).sum
  match k with
  | .gap 3 true f mask _ first n => .gap 3 true f mask
      ((s.dataBits g).map (fun j => if mask.testBit j && s.lvlUpto (chOf g j) t then 2 ^ j else 0)).sum first n
  | .gap 2 o f mask _ first n => .gap 2 o f mask (lv mask) first n
  | .gap 3 o f mask _ first n => .gap 3 o f mask (lv mask) first n
  | k => k

/-- The channels that are enabled at any stamp in [q0, q1], as a mask (R163). -/
def enabledIn (s : State) (g : Fin 16) (q0 q1 : Stamp) : Nat :=
  ((s.dataBits g).map (fun j =>
    let c := chOf g j
    if s.enAt c q0 || s.ch[c].enLog.any (fun e => e.2 && before q0 e.1 && upto e.1 q1) then 2 ^ j else 0)).sum

/-- The levels of a group's channels strictly below a stamp, as a mask. -/
def levelsBelow (s : State) (g : Fin 16) (t : Stamp) : Nat :=
  ((s.dataBits g).map (fun j => if s.lvlBelow (chOf g j) t then 2 ^ j else 0)).sum

/-- What the packer of a group takes next. -/
inductive Cand where
  | mark (m : Mark)
  | edge (c : Fin 128) (e : EdgeRec)
  | ovfClose (c : Fin 128) (o : Ovf)
  | qual (u : Stamp)
  | qualClose (q0 u : Stamp)
  | sample (x : Sample)
  | tsample
  | finish

/-- A candidate with its place in the order of R157: stamp, class, then channel. -/
structure CandAt where
  stamp : Stamp
  cls   : Nat
  sub   : Nat
  cand  : Cand

/-- The order of R157, with the lower channel first (R96). -/
def CandAt.lt (a b : CandAt) : Bool :=
  if a.stamp = b.stamp then (decide (a.cls < b.cls) || (a.cls == b.cls && decide (a.sub < b.sub))) else before a.stamp b.stamp

/-- The first of some candidates. -/
def firstCand : List CandAt → Option CandAt
  | [] => none
  | c :: r => match firstCand r with
    | none => some c
    | some d => some (if d.lt c then d else c)

/-- The end of a group's record so far: its stop stamp or the earliest pending stop of R139. -/
def recordEnd (s : State) (g : Fin 16) : Option Stamp :=
  earliest (s.grp[g].stop.toList ++ s.grp[g].pendStops.map (·.2))

/-- A stamp lies in the record of a group so far. -/
def inRecord (s : State) (g : Fin 16) (t : Stamp) : Bool :=
  match s.recordEnd g with
  | none => true
  | some e => before t e

/-- The next change of a group's storage qualification: a change of the qualifier above `qualPos`, the start stamp
included, or the end of a false run at E (R97, R163). -/
def qualCand (s : State) (g : Fin 16) : List CandAt :=
  let G := s.grp[g]
  match s.qualSel g, G.start with
  | some q, some a =>
    let next := earliest ((s.sqNext q G.qualPos).toList ++ (if before G.qualPos a then [a] else []))
    match next, G.qualFrom, G.stop with
    | some u, none, _ => if s.inRecord g u then [⟨u, 0, 0, .qual u⟩] else []
    | some u, some q0, some e =>
      if upto e u then [⟨e - 1, 1, 0, .qualClose q0 e⟩]
      else if s.sqAt q u then [⟨u - 1, 1, 0, .qualClose q0 u⟩] else [⟨u, 0, 0, .qual u⟩]
    | some u, some q0, none =>
      if s.inRecord g u then (if s.sqAt q u then [⟨u - 1, 1, 0, .qualClose q0 u⟩] else [⟨u, 0, 0, .qual u⟩]) else []
    | none, some q0, some e => [⟨e - 1, 1, 0, .qualClose q0 e⟩]
    | none, _, _ => []
  | _, _ => []

/-- The next marker of a group's stream: the first one in the record, then the closers of the gaps that lie across E, clipped to it
(R95, R163; log entry 144). -/
def markCand (s : State) (g : Fin 16) : List CandAt :=
  match s.grp[g].marks with
  | [] => []
  | m :: r =>
    if s.inRecord g m.stamp then [⟨m.stamp, m.cls, if m.cls = 5 then 10 else 8, .mark m⟩]
    else match s.grp[g].stop with
      | none => []
      | some e =>
        ((m :: r).filter (fun m => match m.kind with | .gap _ false _ _ _ f _ => before f e | _ => false)).take 1
          |>.map (fun m => ⟨e, 1, 8, .mark m⟩)

/-- The overflow of a TDC whose GAP marker is due: the oldest one that has ended, or, once every event below E has come, one that the
end of the run ends (R111). Only its drops in the record count. -/
def ovfCand (s : State) (g : Fin 16) (c : Fin 128) : Option CandAt :=
  let late := (s.grp[g].stop.map (fun e => s.passed (e + 204800#64))).getD false
  let o := (s.ch[c].ovfDone ++ (if late then s.ch[c].ovf.toList else [])).head?
  o.bind (fun o => (o.drops.find? (fun d => s.inRecord g d.1)).map (fun d => ⟨d.1, 1, c.val % 8, .ovfClose c o⟩))

/-- The GAP marker of an overflow episode (R111, R163), over its drops in the record. -/
def ovfGap (s : State) (c : Fin 128) (o : Ovf) : MarkKind :=
  let j := s.sigBit c
  let drops := o.drops.filter (fun d => s.inRecord (grpOf c) d.1)
  let level := (drops.head?.map (·.2)).getD false
  .gap 0 false (s.splitG (grpOf c) && decide (c.val % 2 = 1)) (2 ^ j) (if level then 2 ^ j else 0) o.first drops.length

/-- The GAP marker of an episode has been written. -/
def ovfWritten (s : State) (c : Fin 128) : State :=
  let s := if s.ch[c].ovfDone.isEmpty then s.endOvf c else s
  s.setCh c (fun C => { C with ovfDone := C.ovfDone.drop 1 })

/-- Everything the packer of a group could take next. -/
def cands (s : State) (g : Fin 16) : List CandAt :=
  let G := s.grp[g]
  let chans := (List.range 8).map (chOf g)
  s.markCand g
  ++ chans.filterMap (fun c => (s.ch[c].stg.head?.filter (fun e => s.inRecord g e.stamp)).map
      (fun e => ⟨e.stamp, 5, c.val % 8, .edge c e⟩))
  ++ chans.filterMap (s.ovfCand g)
  ++ s.qualCand g
  ++ (G.samples.take 1).filterMap (fun x => if s.inRecord g x.stamp then some ⟨x.stamp, 5, 9, .sample x⟩ else none)
  ++ (if s.modeG g = 2 ∧ s.inRecord g (s.nextInstant g) then [⟨s.nextInstant g, 5, 9, .tsample⟩] else [])
  ++ (match G.stop with
      | some e => if G.pendStops.any (fun p => before p.2 e) then [] else [⟨e, 8, 0, .finish⟩]
      | none => [])

/-- The sample that ends the oldest margin window not yet emitted: its markers stand directly behind it (R105, R172), so what
follows it waits for them. -/
def marginBar (s : State) (g : Fin 16) : Option Stamp :=
  let G := s.grp[g]
  match G.winDone with
  | w :: _ => some w.lastC
  | [] => if G.win.n = 0 then none else some G.win.lastC

/-- A candidate follows the sample that ends a margin window. -/
def barred (s : State) (g : Fin 16) (k : CandAt) : Bool :=
  match s.marginBar g with
  | none => false
  | some b => before b k.stamp || (k.stamp == b && decide (5 < k.cls))

/-- TIMING samples from the next instant on, up to `lim` (exclusive) and up to what the packer may take: how many. -/
def samplesUpTo (s : State) (g : Fin 16) (lim : Stamp) : Nat :=
  let t := s.nextInstant g
  ((diff t lim).toNat + s.timPeriod g - 1) / s.timPeriod g

/-- The values of a TIMING sample at `t`: a collapse entry holds its final level for 512 tu (R99). -/
def timVals (s : State) (g : Fin 16) (t : Stamp) : Nat :=
  s.grp[g].collEnds.foldl (fun v e => if before t e.2.1 then putBit v e.1 e.2.2 else v) s.grp[g].vals

/-- Take TIMING samples (R98 to R100, R170): a stretch of equal samples extends the run, or starts a new one after the
old one has been written. Samples whose instants storage qualification excludes are left out. -/
def takeSamples (s : State) (g : Fin 16) (lim : Stamp) : State :=
  let t := s.nextInstant g
  let glitch := s.fb (R.CH_GRP_CTL g) 4
  let G := s.grp[g]
  if !s.stores g t then s.setGrp g (fun G => { G with nextM := G.nextM + 1, multi := [], glitch := 0 })
  else
    let gl := if glitch then G.glitch else 0
    let v := s.sampleValue g (s.timVals g t) + 256 * s.sampleValue g gl
    let lim := (earliest (lim :: (G.collEnds.map (·.2.1)).filter (fun e => before t e))).getD lim
    let n := if gl = 0 then s.samplesUpTo g lim else 1
    let last := t + stamp (s.timPeriod g * (n - 1))
    match G.trun with
    | some r =>
      if r.value = v then s.setGrp g (fun G => { G with
        trun := some ⟨v, r.len + n, last⟩, nextM := G.nextM + n, multi := [], glitch := 0 })
      else (s.flushRun g).1
    | none =>
      if G.blk.isNone && !s.blkFree g then s.sealStall g
      else
        let s := if G.blk.isNone then s.openBlk g t else s
        s.setGrp g (fun G => { G with
          trun := some ⟨v, n, last⟩, nextM := G.nextM + n, multi := [], glitch := 0 })

/-- An edge event shapes the TIMING values and glitch bits (R98, R99). -/
def timEdge (s : State) (g : Fin 16) (c : Fin 128) (e : EdgeRec) : State :=
  let j := s.sigBit c
  s.setGrp g (fun G => { G with
    vals := putBit G.vals j (e.coll.getD e.rise),
    collEnds := match e.coll with
      | some b => (j, e.stamp + 512, b) :: G.collEnds.filter (fun x => before e.stamp x.2.1)
      | none => G.collEnds,
    glitch := if e.coll.isSome || G.multi.contains j then putBit G.glitch j true else G.glitch,
    multi := j :: G.multi })

/-- The ERR marker of an event that carries ERR, or of a lost event (R169). -/
def errMark (s : State) (g : Fin 16) (c : Fin 128) (t : Stamp) (lost level : Bool) : State × Bool :=
  let field := if s.splitG g then c.val % 8 else s.sigBit c
  if s.isFar g t then s.farMark g t false
  else s.emit g (fun run => markerBytes 8 (t - run).toNat (leBytes 1 (field + 8 * b2n lost + 16 * b2n level))) t flagBad none false

/-- Take an edge event of the transition set (R159 to R161, R167). -/
def packEdge (s : State) (g : Fin 16) (c : Fin 128) (e : EdgeRec) : State :=
  let field := c.val % 8
  let lvl := e.coll.getD e.rise
  let d := s.deltaOf g e.stamp
  let big := match e.coll with | none => decide (17179869184 ≤ d) | some _ => decide (4294967296 ≤ d)
  if big then (s.emit g (fun _ => rebaseEntry e.stamp) e.stamp 0 none false).1
  else
    let x := match e.coll with
      | none => s.emit g (fun run => edgeEntry field (e.stamp - run).toNat) e.stamp 0 none false
      | some fin => s.emit g (fun run => markerBytes 5 (e.stamp - run).toNat (leBytes 1 (field + 8 * b2n fin))) e.stamp 0 none false
    if x.2 then (x.1.popStg c).setGrp g (fun G => { G with levels := putBit G.levels (s.sigBit c) lvl }) else x.1

/-- The next staged event of a channel, of either TDC of a split signal, behind the first one of TDC `c`. -/
def nextOf (s : State) (c : Fin 128) : Option EdgeRec :=
  let mate := if s.splitG (grpOf c) then (s.ch[Fin.ofNat 128 (if c.val % 2 = 0 then c.val + 1 else c.val - 1)].stg).head? else none
  match (s.ch[c].stg.drop 1).head?, mate with
  | some a, some b => some (if before b.stamp a.stamp then b else a)
  | some a, none => some a
  | none, b => b

/-- The packer of a group takes a lost event (R169): an ERR marker with LOST at the running stamp. -/
def packLost (s : State) (g : Fin 16) (c : Fin 128) : State :=
  let level := match s.nextOf c with
    | some e => !e.rise
    | none => s.lvlUpto (s.signal c) s.now
  let x := s.errMark g c s.grp[g].running true level
  if x.2 then (x.1.popStg c).setGrp g (fun G => { G with
      levels := putBit G.levels (s.sigBit c) level, vals := putBit G.vals (s.sigBit c) level })
  else x.1

/-- Take a STATE sample (R171): a channel in a gap has the level before it, and an ERR marker stands before the first sample whose value uses an event with ERR. -/
def packSample (s : State) (g : Fin 16) (x : Sample) : State :=
  let drop1 (s : State) : State := s.setGrp g (fun G => { G with samples := G.samples.drop 1 })
  if !s.stores g x.stamp then drop1 s
  else match x.err with
    | j :: r =>
      let y := s.errMark g (chOf g j) x.stamp false false
      if y.2 then y.1.setGrp g (fun G => { G with samples := { x with err := r } :: G.samples.drop 1 }) else y.1
    | [] =>
      let d := s.deltaOf g x.stamp
      if 536870912 ≤ d then (s.emit g (fun _ => rebaseEntry x.stamp) x.stamp 0 none false).1
      else
        let prev := s.grp[g].blk.bind (·.prevD)
        let gaps := s.sampleValue g (s.openBits g)
        let value := mergeBits x.value gaps (s.sampleValue g s.grp[g].vals)
        let y := s.emit g (fun run => stateEntry value (x.stamp - run).toNat prev) x.stamp 0 (some d) false
        let lv := s.spreadValue g value
        if y.2 then (drop1 y.1).setGrp g (fun G => { G with levels := lv }) else y.1

/-- END of a run (R168), after any TIMING run entry. The closing block then waits to be written. -/
def packEnd (s : State) (g : Fin 16) (t : Stamp) : State :=
  let x := s.emitMark g t (.finish 0)
  if x.2 then
    let s := (x.1.afterMark g t (.finish 0)).closeBlk g
    (s.setGrp g (fun G => { G with marks := [], samples := [] })).clearStg g
  else x.1

/-- The packer of a STATE group takes an event (R107, R169): the samples have its level already. One whose residue retry failed marks
the first sample whose value uses it, unless that sample is written. -/
def packState (s : State) (g : Fin 16) (c : Fin 128) (e : EdgeRec) (bad : Bool) : State :=
  let j := c.val % 8
  let ofs := s.fs (R.CH_GRP_STATE g) 15 0
  let uses (x : Sample) : Bool :=
    (logUpto s.ch[s.signal c].lvlLog (shift x.stamp ofs)).map (·.1) == some e.stamp
  let s := if !bad then s
    else match s.grp[g].samples.find? (fun x => upto e.stamp (shift x.stamp ofs)) with
      | some x => if uses x then s.setGrp g (fun G => { G with
          samples := G.samples.map (fun y => if y == x then { y with err := y.err ++ [j] } else y) }) else s
      | none => s.setGrp g (fun G => { G with edgeErr := G.edgeErr ++ [(j, e.stamp)] })
  s.popStg c

/-- The packer of a group that packs (R84) takes one item (R158): the first candidate in the order of R157, once it may. `lost` says that the staging
word read is uncorrectable, `bad` that a packer residue retry failed (R501). -/
def packOne (s : State) (g : Fin 16) (lost bad : Bool) : State :=
  if !s.packs g || s.grp[g].ended || s.grp[g].sealWait && s.grp[g].sealJob then s
  else match firstCand ((s.cands g).filter (fun k => !s.barred g k || (match k.cand with | .edge _ _ => !lost | _ => false))) with
  | none => s
  | some k =>
    if !s.mayPack g k.stamp then s
    else
      let rest := (s.cands g).filter (fun x => match x.cand with | .tsample => false | _ => true)
      match k.cand with
      | .tsample =>
        let lim := earliest ((rest.map (fun x => if x.cls < 5 ∨ x.cls = 5 ∧ x.sub < 9 then x.stamp else x.stamp + 1))
          ++ (s.recordEnd g).toList ++ [s.now - 204800#64] ++ (s.sqNext ((s.qualSel g).getD 0) (s.nextInstant g)).toList)
        let alone := (s.qualSel g).isSome || (List.finRange 8).any (fun q => s.busyQ q && s.fb (R.TRG_SEQ_GRP q) g)
        s.takeSamples g (if alone then k.stamp + 1 else lim.getD k.stamp)
      | .edge c e =>
        if lost then s.packLost g c
        else
          let e := { e with err := e.err || bad }
          match s.modeG g with
          | 2 =>
            if !s.stores g e.stamp then (s.timEdge g c e).popStg c
            else if e.err then
              let x := s.flushRun g
              if x.2 then
                let y := x.1.errMark g c e.stamp false false
                if y.2 then (y.1.timEdge g c e).popStg c else y.1
              else x.1
            else (s.timEdge g c e).popStg c
          | 3 => s.packState g c e bad
          | _ =>
            if !s.stores g e.stamp then s.popStg c
            else if e.err then
              let y := s.errMark g c e.stamp false false
              if y.2 then y.1.setCh c (fun C => { C with stg := { e with err := false } :: C.stg.drop 1 }) else y.1
            else s.packEdge g c e
      | .mark m =>
        let x := s.flushRun g
        if !x.2 then x.1
        else if !x.1.inRun g k.stamp && m.cls ≠ 1 then x.1.setGrp g (fun G => { G with marks := G.marks.erase m })
        else
          let kind := s.fillLevels g k.stamp m.kind
          let t := if m.cls = 5 then x.1.grp[g].running else k.stamp
          let y := x.1.emitMark g t kind
          if y.2 then (y.1.afterMark g t kind).setGrp g (fun G => { G with marks := G.marks.erase m }) else y.1
      | .ovfClose c o =>
        let x := s.flushRun g
        if !x.2 then x.1
        else
          let y := x.1.emitMark g k.stamp (s.ovfGap c o)
          if y.2 then (y.1.afterMark g k.stamp (s.ovfGap c o)).ovfWritten c else y.1
      | .qual u =>
        let now := match s.qualSel g with | some q => s.sqAt q u | none => true
        s.setGrp g (fun G => { G with
          qualPos := u, qualFrom := if now then none else some (G.qualFrom.getD u) })
      | .qualClose q0 u =>
        let x := s.flushRun g
        if !x.2 then x.1
        else
          let kind := MarkKind.gap 1 false false (s.enabledIn g q0 (u - 1)) (s.levelsBelow g u &&& s.enabledIn g q0 (u - 1)) q0 0
          let y := x.1.emitMark g (u - 1) kind
          if y.2 then (y.1.afterMark g (u - 1) kind).setGrp g (fun G => { G with qualFrom := none, qualPos := u }) else y.1
      | .sample x => s.packSample g x
      | .finish =>
        let x := s.flushRun g
        if x.2 then x.1.packEnd g k.stamp else x.1

/-! ## Writing blocks -/

/-- GM of a group's blocks (R153). -/
def gmByte (s : State) (g : Fin 16) (isSeal : Bool) : Nat :=
  g.val + 16 * (if isSeal then 7 else s.modeG g) + 128 * b2n (s.splitG g)

/-- PARAM of a group's data blocks (R153). -/
def paramWord (s : State) (g : Fin 16) : Nat :=
  match s.modeG g with
  | 2 => max 1 (s.f (R.CH_GRP_TIMING g) 23 0) + 2 ^ 24 * b2n (s.fb (R.CH_GRP_CTL g) 4)
  | 3 => s.f (R.CH_GRP_STATE g) 15 0 + 2 ^ 16 * s.f (R.CH_GRP_STATE g) 22 16 + 2 ^ 23 * s.f (R.CH_GRP_STATE g) 25 24
      + 2 ^ 25 * s.f (R.CH_GRP_MARGIN g) 8 8 + 2 ^ 26 * s.f (R.CH_GRP_MARGIN g) 4 0
  | _ => 0

/-- The 512 bytes of a block with its CRC (R153, R155). -/
def blockBytes (s : State) (g : Fin 16) (b : OutBlk) (flags : Nat) : List Byte :=
  let head (crc : Nat) : List Byte :=
    leBytes 2 0x5846 ++ leBytes 1 1 ++ leBytes 1 (s.gmByte g b.isSeal) ++ leBytes 2 flags ++ leBytes 2 b.count
    ++ leBytes 8 b.base.toNat ++ leBytes 4 s.grp[g].writes ++ leBytes 2 b.body.length
    ++ leBytes 1 b.levels ++ leBytes 1 b.opened ++ leBytes 4 (if b.isSeal then 0 else s.paramWord g) ++ leBytes 4 crc
  let body := padTo 480 b.body
  head (crc32c (head 0 ++ body)).toNat ++ body

/-- KEY_READY of CH_SEAL_STATUS (R181, R354). -/
def keyReady (s : State) : Bool := s.sealKey.isSome

/-- The address of block `w` of a group's region (R174). -/
def blockAddr (s : State) (g : Fin 16) (w : Nat) : Nat :=
  let base := s.f (R.CH_GRP_RGN_BASE_HI g) 31 0 * 4294967296 + s.f (R.CH_GRP_RGN_BASE_LO g) 31 12 * 4096
  let n := s.rgnSize g
  base + (if s.linear g then w else w % max 1 n) * 512

/-- A closed block is written (R173, R176, R179, R181): bytes 64 to 511, then bytes 0 to 63, then WPTR advances. A data
block of a sealed run goes on to the sealer. -/
def blockWritten (s : State) (g : Fin 16) : State :=
  match s.grp[g].out with
  | none => s
  | some b =>
    let a := s.blockAddr g s.grp[g].writes
    if !s.dcActive a then s
    else
      let isSealed := s.grp[g].sealed && s.keyReady
      let bs := s.blockBytes g b (b.flags ||| (if isSealed then flagSealed else 0))
      let seq := s.grp[g].writes
      let s := s.acqWrite (s.grpPart g) g a bs
      let s := s.setGrp g (fun G => { G with
        out := none, writes := G.writes + 1,
        dataBlks := if b.isSeal then G.dataBlks else G.dataBlks + 1,
        sealJob := isSealed && !b.isSeal })
      let s := s.wr64 (R.CH_GRP_WPTR_LO g) (R.CH_GRP_WPTR_HI g) (BitVec.ofNat 64 s.grp[g].writes)
      let s := s.bump (R.CH_GRP_BLK_CNT g)
      let s := if isSealed && !b.isSeal then
          { s with sealQ := s.sealQ ++ [.block g bs seq b.last] }
        else s
      if b.flags &&& flagBad ≠ 0 then
        s.event (s.grpPart g) (R.CH_CAP_EVT_CNT g 0) 0x0A 0 g none [(4, seq % 4294967296)]
      else s

/-- A partly filled block is closed FLUSH microseconds after its first item (R177). -/
def blockFlush (s : State) (g : Fin 16) : State :=
  match s.grp[g].blk with
  | none => s
  | some b =>
    let fl := s.f (R.CH_GRP_PACK g) 15 0
    if fl = 0 || s.lastBlock g || !s.passed (b.first + stamp (fl * 2048000)) then s
    else
      let x := s.flushRun g
      if x.2 then x.1.closeBlk g else x.1

/-- The seal block of R183 over the blocks from `FIRST_SEQ` to `seq`, with its signature. -/
def sealBody (s : State) (g : Fin 16) (seq gen : Nat) (sig : BitVec 768) : List Byte :=
  let G := s.grp[g]
  leBytes 4 G.firstSeq ++ leBytes 4 seq ++ leBytes 8 G.dataBlks ++ leBytes 8 (G.start.getD 0).toNat
    ++ leBytes 8 (Config.keyId gen).toNat ++ (leBytes 48 G.chain.toNat).reverse
    ++ leBytes 48 (sig.toNat % 2 ^ 384) ++ leBytes 48 (sig.toNat / 2 ^ 384)

/-- A sealer finishes hashing a data block of a sealed run (R182 to R185): H_i = SHA-384(H_(i-1), B_i). After every N data
blocks, and after the block with END, the signed seal block is queued to be written. -/
def sealBlock (s : State) (g : Fin 16) (bytes : List Byte) (seq : Nat) (last : Bool) : State :=
  let s := s.setGrp g (fun G => { G with
    chain := Config.sha384 ((leBytes 48 G.chain.toNat).reverse ++ bytes), sealJob := false, sealWait := false })
  match s.sealKey with
  | none => s
  | some gen =>
    let n := max 1 (s.f (R.CH_GRP_SEAL g) 15 0)
    let size := s.rgnSize g
    let full := s.linear g && decide (size ≤ s.grp[g].writes + 2) && !last
    if last || (s.grp[g].dataBlks % n == 0 && !full) then
      let hdr0 : OutBlk := ⟨s.nextBase g, 0, 0, flagSealed, 0, s.sealBody g seq gen 0, true, false⟩
      let unsigned := (s.blockBytes g { hdr0 with body := padTo 176 hdr0.body } flagSealed).take 112
      let msg := unsigned.take 28 ++ [0, 0, 0, 0] ++ unsigned.drop 32
      let sig := Config.sealSign gen msg
      s.setGrp g (fun G => { G with
        out := some { hdr0 with body := s.sealBody g seq gen sig }, firstSeq := seq + 2, nextB := some (s.nextBase g) })
    else s

end State
end Sys2Proof.Machine
end

