-- ==== Sys2Proof/Machine/Queue.lean ====
section
/-! DEFINITION. The OBS queues of the queue manager (file 08): QR32 records, acceptance, duplicates, full queues and loss,
pages and spill, EPOCH records, sealed chains, enabling and disabling. -/

namespace Sys2Proof.Machine

open Bits

/-- A message on its way to a queue (R239, R210): its stamp, type, payload and SRC word without NCONT. -/
structure QIn where
  stamp   : Stamp
  type    : Nat
  payload : List Byte
  src     : Nat
  deriving DecidableEq, Repr

/-- What the queue manager makes of a message (R260, R266). -/
inductive QAns where
  | accepted | refused | held
  deriving DecidableEq, Repr

/-- The number of continuation records of a message of `len` bytes (R258). -/
def ncont (len : Nat) : Nat := if len ≤ 16 then 0 else ceilDiv (len - 16) 32

/-- The records of a message (R257, R258): a header record with 16 payload bytes, and continuation records of 32. -/
def qrRecords (q seq : Nat) (isSealed : Bool) (m : QIn) : List (List Byte) :=
  let n := ncont m.payload.length
  let hdr := leBytes 8 m.stamp.toNat ++ leBytes 2 (q + 32768 * b2n isSealed) ++ leBytes 1 m.type ++ leBytes 1 m.payload.length
    ++ leBytes 2 seq ++ leBytes 2 (m.src + 2048 * n)
  (hdr ++ slice m.payload 0 16) :: (List.range n).map (fun k => slice m.payload (16 + 32 * k) 32)

/-- The sealer's job for one message of a queue takes other bytes, which depend on the SEQ. -/
def SealJob.withBytes (q ord : Nat) (h : Nat → List Byte) : SealJob → SealJob
  | .message q' o b seq t => .message q' o (if q' = q ∧ o = ord then h seq else b) seq t
  | .block g b n l => .block g b n l

/-- The slots of a message. -/
def QMsg.slots (m : QMsg) : Nat := m.recs.length

namespace State

/-- An OBS queue's state, and a ring's. -/
def qSt (s : State) (q : Nat) : QSt := Tab.get (fun _ => {}) s.qm.q q
def ringSt (s : State) (q : Nat) : RingSt := Tab.get (fun _ => {}) s.qm.ring q

/-- Change the queue manager, one OBS queue, one ring. -/
def setQm (s : State) (h : QmSt → QmSt) : State := { s with qm := h s.qm }
def setQ (s : State) (q : Nat) (h : QSt → QSt) : State :=
  s.setQm (fun m => { m with q := Tab.set (fun _ => {}) m.q q (h (s.qSt q)) })
def setRing (s : State) (q : Nat) (h : RingSt → RingSt) : State :=
  s.setQm (fun m => { m with ring := Tab.set (fun _ => {}) m.ring q (h (s.ringSt q)) })

/-- The address of word `w` of descriptor `q` (R285). -/
def qd (q w : Nat) : Nat := R.QM_DESC0 (q / 128) (q % 128) + 4 * w

/-- TYPE, with 6 and 7 used as FREE (R254). -/
def typeCode (t : Nat) : Nat := if 5 < t then 0 else t

/-- TYPE of a queue. -/
def qType (s : State) (q : Nat) : Nat := typeCode (s.f (qd q 0) 2 0)

/-- A row as it reads at present: a descriptor has the layout of its TYPE (R285). -/
def rowNow (s : State) (r : RegRow) (ix : List Nat) : RegRow := r.layout (s.qType (r.unit ix))

/-- The partition of a queue. -/
def qPart (s : State) (q : Nat) : Fin 4 := Fin.ofNat 4 (s.f (qd q 0) 5 4)

/-- STATE of a queue as its descriptor shows it: 0 OFF, 1 ON, 2 DRAIN (R255, R256). -/
def stateCode (s : State) (st : QState) : Nat :=
  match st with
  | .off => 0
  | .pend t => if s.reached t then 1 else 0
  | .drain => 2

def qState (s : State) (q : Nat) : Nat :=
  if s.qType q = 1 then s.stateCode (s.qSt q).st else s.stateCode (s.ringSt q).st

/-- A row as a write of `w` at `a` finds it: word 0 of a descriptor that is OFF takes the layout of the TYPE written. -/
def rowFor (s : State) (r : RegRow) (ix : List Nat) (w : Word) : RegRow :=
  if r.descWord = some 0 ∧ s.qState (r.unit ix) = 0 then r.layout (typeCode (fld w 2 0)) else s.rowNow r ix

/-- Word `w` of the descriptor tables. -/
def descRow (w : Nat) : RegRow := (RegTable.rowsQM0.find? (fun r => r.base == R.QM_DESC0 0 0 + 4 * w)).getD ⟨0, [], .dev, 1, false, .none, []⟩

/-- A descriptor whose TYPE was `was` has taken another TYPE (log entry 125): word 0 keeps the bits its layout has, and the other
words keep what both layouts let software write. -/
def retype (s : State) (q was : Nat) : State :=
  let now := s.qType q
  if was = now then s
  else
    let all := ((descRow 0).layout now).fields.foldl (fun w f => w ||| mask f.hi f.lo) 0#32
    let s := s.wr (qd q 0) (s.rd (qd q 0) &&& all)
    forAll [1, 2, 3, 4, 5, 6, 7] s (fun w s =>
      s.wr (qd q w) (s.rd (qd q w) &&& ((descRow w).layout was).writable &&& ((descRow w).layout now).writable))

/-- A queue has left OFF, or waits for its enable stamp. -/
def qBusy (s : State) (q : Nat) : Bool :=
  match (if s.qType q = 1 then (s.qSt q).st else (s.ringSt q).st) with
  | .off => false
  | _ => true

/-- The queues with some state, in ascending order. -/
def obsQueues (s : State) : List Nat := s.qm.q.map (·.1)
def rings (s : State) : List Nat := s.qm.ring.map (·.1)

/-- POLICY of a queue (R266). -/
def qPolicy (s : State) (q : Nat) : Nat := s.f (qd q 0) 9 8

/-- SPILL of a queue in pages, and the byte address of its spill region (R262). -/
def qSpillN (s : State) (q : Nat) : Nat := s.f (qd q 4) 31 16
def qSpillBase (s : State) (q : Nat) : Nat := s.f (qd q 5) 31 0 * 1024

/-- The capacity of a queue in slots (R262). -/
def qCap (s : State) (q : Nat) : Nat := 32 * ((s.qSt q).res + s.qSpillN q) - 2

/-- Slots of a list of messages. -/
def slotsOf (l : List QMsg) : Nat := (l.map QMsg.slots).sum

/-- The slots that count against the capacity: one LOSS and one EPOCH record stand in the slots held back (R262). -/
def slotsUsed (l : List QMsg) : Nat :=
  slotsOf l - b2n (l.any (fun m => m.kind == .loss)) - b2n (l.any (fun m => m.kind == .epoch))

/-- Room for one more message (R262, R266). -/
def qFits (s : State) (q : Nat) (m : QMsg) : Bool := decide (slotsUsed ((s.qSt q).msgs ++ [m]) ≤ s.qCap q)

/-- A 16-bit half of word 7 of a descriptor counts one, saturating (R285). -/
def bump16 (s : State) (q hi lo : Nat) : State := s.wrF (qd q 7) hi lo (min (s.f (qd q 7) hi lo + 1) 0xFFFF)

/-! ## Pages (R262) -/

/-- The pages a queue holds slots in, oldest first. A message takes at most 8 slots (R258), so it lies in one page or two. -/
def qPages (s : State) (q : Nat) : List Nat :=
  ((s.qSt q).msgs.flatMap (fun m => [m.pos / 32, (m.pos + m.slots - 1) / 32])).eraseDups

/-- Rewrite the records of a queue that lie in one page: record, and its byte offset in the page. -/
def mapPage (page : Nat) (h : Nat → List Byte → List Byte) (l : List QMsg) : List QMsg :=
  l.map (fun m => { m with
    recs := m.recs.mapIdx (fun k b => if (m.pos + k) / 32 = page then h ((m.pos + k) % 32 * 32) b else b) })

/-- The 1,024 bytes of a page as its messages hold them. -/
def pageBytes (page : Nat) (l : List QMsg) : List Byte :=
  let all := l.flatMap (fun m => m.recs.mapIdx (fun k b => (m.pos + k, b)))
  (List.range 32).flatMap (fun k => padTo 32 (((all.find? (fun e => e.1 == page * 32 + k)).map (·.2)).getD []))

/-- The byte address of a place in the spill region. -/
def qPageAddr (s : State) (q place : Nat) : Nat := s.qSpillBase q + place * 1024

/-- A page is written to a free place of the spill region, and its records leave the resident store. -/
def spillPage (s : State) (q page : Nat) : State :=
  let Q := s.qSt q
  match (List.range (s.qSpillN q)).find? (fun i => !(Q.spilled.any (fun e => e.2 == i))) with
  | none => s
  | some i =>
    let s := s.acqWrite (s.qPart q) 24 (s.qPageAddr q i) (pageBytes page Q.msgs)
    s.setQ q (fun Q => { Q with msgs := mapPage page (fun _ _ => []) Q.msgs, spilled := Q.spilled ++ [(page, i)] })

/-- Pages beyond RES are spilled (R262): the oldest and the newest stay, and the newest of those between them go first. The
oldest and the newest page share a page of the store when the queue is nearly full. -/
def qSpill (s : State) (q : Nat) : State :=
  let ps := s.qPages q
  let s := s.setQ q (fun Q => { Q with spilled := Q.spilled.filter (fun e => ps.contains e.1) })
  let Q := s.qSt q
  let mid := ((ps.drop 1).dropLast.filter (fun p => !(Q.spilled.any (fun e => e.1 == p)))).reverse
  forAll (mid.take (min ps.length (Q.res + s.qSpillN q) - Q.spilled.length - Q.res)) s (fun p s => s.spillPage q p)

/-- A page has been read back (R262, R268): its records return, damaged where the memory was uncorrectable. A LOSS record made
in the meantime (R267, R268) is not in the spill region. -/
def fillPage (s : State) (q page : Nat) : State :=
  match (s.qSt q).spilled.find? (fun e => e.1 == page) with
  | none => s
  | some e =>
    let base := s.qPageAddr q e.2
    let (bs, _, s') := s.acqRead (s.qPart q) 24 2 base 1024
    let bad := s.badIn base 1024
    let hurt (m : QMsg) : Bool := (List.range m.slots).any (fun k =>
      decide ((m.pos + k) / 32 = page) && (m.recs.getD k []).isEmpty && bad.contains ((base + (m.pos + k) % 32 * 32) / 64))
    s'.setQ q (fun Q => { Q with
      msgs := mapPage page (fun o b => if b.isEmpty then slice bs o 32 else b) (Q.msgs.map (fun m => { m with bad := m.bad || hurt m })),
      spilled := Q.spilled.filter (fun x => x.1 ≠ page) })

/-! ## Storing a message -/

/-- Store a message at the tail of a queue (R261, R264): it takes NEXT_SEQ, and in a sealed queue it waits for the sealer
(R277, R278). It ends a run of lost messages (R267), except under DROP_OLD. -/
def qStore (s : State) (q : Nat) (kind : QKind) (m : QIn) : State :=
  let seq := s.f (qd q 3) 15 0
  let s := s.wrF (qd q 3) 15 0 (seq + 1)
  let isSealed := (s.qSt q).sealed.isSome
  let recs := qrRecords q seq isSealed m
  let ord := s.qm.ord
  let wait := isSealed && (match kind with | .seal => false | _ => true)
  let s := s.setQm (fun x => { x with ord := ord + 1 })
  let s := s.setQ q (fun Q => { Q with
    msgs := Q.msgs ++ [{ recs := recs, ord := ord, ts := m.stamp, pos := Q.next, kind := kind, seq := seq, hash := wait, at_ := s.tb.count }],
    next := Q.next + recs.length,
    run := (match kind with | .loss => Q.run | _ => if s.qPolicy q = 1 then Q.run else none) })
  let s := s.wr (qd q 2) (s.rd (qd q 2) + word recs.length)
  let s := if wait then { s with sealQ := s.sealQ ++ [.message q ord recs.flatten seq m.stamp] } else s
  s.qSpill q

/-- The SRC word of the manager's own records (R259). -/
def qmSrc (s : State) (t : Stamp) (loss : Bool) : Nat := 0x80FF + 256 * b2n (s.coastAt t) + 1024 * b2n loss

/-- The payload of a LOSS record (R267). -/
def lossPayload (r : LossRun) : List Byte :=
  leBytes 4 (min r.count 0xFFFFFFFF) ++ leBytes 8 r.last.toNat ++ leBytes 1 r.cause ++ leBytes 3 0

/-- The message of a LOSS record. -/
def lossIn (s : State) (r : LossRun) : QIn := ⟨r.first, 0xFC, lossPayload r, s.qmSrc r.first true⟩

/-- A message is lost (R266): counted, and the first after an enable is reported. -/
def countLoss (s : State) (q : Nat) (t : Stamp) : State :=
  let p := s.qPart q
  let s := (s.bump16 q 15 0).bump (R.QM_LOSS_CNT p)
  if (s.qSt q).lossSeen then s
  else (s.setQ q (fun Q => { Q with lossSeen := true })).event p (R.QM_EVT_CNT p 0) 0x80 0 q (some t) []

/-- The LOSS record of the present run, while it can still grow: undelivered, and not yet hashed in a sealed queue. -/
def openLoss (s : State) (q : Nat) : Option LossRun :=
  (s.qSt q).run.filter (fun r => (s.qSt q).msgs.any (fun m => m.ord = r.ord && !m.sent && ((s.qSt q).sealed.isNone || m.hash)))

/-- The open LOSS record takes in one more lost message (R267), and so does the sealer's job for it. -/
def growLoss (s : State) (q : Nat) (r : LossRun) (t : Stamp) : State :=
  let r := { r with last := t, count := r.count + 1 }
  let recs (seq : Nat) := qrRecords q seq (s.qSt q).sealed.isSome (s.lossIn r)
  let s := { s with sealQ := s.sealQ.map (SealJob.withBytes q r.ord (fun seq => (recs seq).flatten)) }
  s.setQ q (fun Q => { Q with
    run := some r,
    msgs := Q.msgs.map (fun (m : QMsg) => if m.ord = r.ord then { m with recs := recs m.seq } else m) })

/-- The LOSS record of a run that has not ended waits in its queue, as long as a message might not fit (R267; log entry 149).
Under DROP_OLD it is delivered as it stands, and grows until then. -/
def lossWaits (s : State) (q : Nat) (m : QMsg) : Bool :=
  (match m.kind with | .loss => true | _ => false) && s.qPolicy q != 1 && (s.qSt q).run.any (fun r => r.ord == m.ord) &&
    (match (s.qSt q).st with | .drain => false | _ => true) && decide (s.qCap q < slotsUsed (s.qSt q).msgs + 8)

/-- The LOSS record of a run of lost messages enters the queue at the tail, or waits for room (R266, R267). -/
def putLoss (s : State) (q : Nat) (r : LossRun) : State :=
  if s.qFits q { recs := [[]], ord := 0, kind := .loss } then
    let r := { r with ord := s.qm.ord }
    (s.qStore q .loss (s.lossIn r)).setQ q (fun Q => { Q with run := some r, owed := none })
  else s.setQ q (fun Q => { Q with owed := some r })

/-- A message that is refused for want of room becomes part of a LOSS record (R266, R267). -/
def qLose (s : State) (q : Nat) (t : Stamp) (cause : Nat) : State :=
  let s := s.countLoss q t
  match s.openLoss q with
  | some r => s.growLoss q r t
  | none => match (s.qSt q).owed with
    | some r => s.putLoss q { r with last := t, count := r.count + 1 }
    | none => s.putLoss q ⟨0, t, t, 1, cause⟩

/-- Room has returned: a LOSS record that waits for it enters the queue. -/
def lossDue (s : State) (q : Nat) : State :=
  match (s.qSt q).owed with
  | some r => s.putLoss q r
  | none => s

/-- The oldest undelivered message that DROP_OLD may remove. A message that is in the chain already is on its way to the ring (R278;
log entry 150). -/
def oldest (s : State) (q : Nat) : Option QMsg :=
  (s.qSt q).msgs.find? (fun m => !m.sent && (match m.kind with
    | .loss => false | .seal => true | _ => (s.qSt q).sealed.isNone || m.hash))

/-- The sealer's job for a message that is removed before it is hashed goes, or becomes the job of the LOSS record that stands
in its place; a LOSS record in the place of a message that is hashed already waits at the end (R278). -/
def sealSwap (s : State) (q : Nat) (m : QMsg) (new : Option SealJob) : State :=
  let mine (j : SealJob) : Bool := match j with | .message q' o _ _ _ => q' == q && o == m.ord | _ => false
  if s.sealQ.any mine then { s with sealQ := s.sealQ.flatMap (fun j => if mine j then new.toList else [j]) }
  else { s with sealQ := s.sealQ ++ new.toList }

/-- DROP_OLD removes the oldest undelivered message (R266, R267): the LOSS record stands where it stood, in the order of
acceptance too (R263). -/
def dropOne (s : State) (q : Nat) (m : QMsg) : State :=
  let t := m.ts
  let s := s.countLoss q t
  let at_ := m.pos + m.slots - 1
  match s.openLoss q with
  | some r =>
    ((s.growLoss q r t).sealSwap q m none).setQ q (fun Q => { Q with
      msgs := (Q.msgs.filter (fun x => x.ord ≠ m.ord)).map (fun x => if x.ord = r.ord then { x with pos := max x.pos at_ } else x) })
  | none =>
    let seq := s.f (qd q 3) 15 0
    let s := s.wrF (qd q 3) 15 0 (seq + 1)
    let r : LossRun := ⟨m.ord, t, t, 1, 1⟩
    let isSealed := (s.qSt q).sealed.isSome
    let recs := qrRecords q seq isSealed (s.lossIn r)
    let s := s.setQ q (fun Q => { Q with
      run := some r,
      msgs := Q.msgs.map (fun x => if x.ord = m.ord then { recs := recs, ord := r.ord, ts := t, pos := at_, kind := .loss, seq := seq, hash := isSealed } else x) })
    if isSealed then s.sealSwap q m (some (.message q r.ord recs.flatten seq t)) else s

/-- An entry of the page index is uncorrectable (R268): the messages of its page that are not yet sent are lost, and one LOSS
record with cause BAD stands where they stood. -/
def indexBad (s : State) (q page : Nat) : State :=
  match (s.qSt q).msgs.filter (fun m => !m.sent && m.pos / 32 = page) with
  | [] => s
  | m :: r =>
    let s := forAll (m :: r) s (fun x s => s.countLoss q x.ts)
    let seq := s.f (qd q 3) 15 0
    let s := s.wrF (qd q 3) 15 0 (seq + 1)
    let L : LossRun := ⟨m.ord, m.ts, ((m :: r).getLastD m).ts, r.length + 1, 2⟩
    let isSealed := (s.qSt q).sealed.isSome
    let recs := qrRecords q seq isSealed (s.lossIn L)
    let s := s.setQ q (fun Q => { Q with
      msgs := (Q.msgs.filter (fun x => !(r.any (fun y => y.ord == x.ord)))).map (fun x =>
        if x.ord = m.ord then { recs := recs, ord := L.ord, ts := m.ts, pos := m.pos, kind := .loss, seq := seq, hash := isSealed } else x) })
    if isSealed then (forAll r s (fun x s => s.sealSwap q x none)).sealSwap q m (some (.message q L.ord recs.flatten seq m.ts)) else s

/-- DROP_OLD makes room, removing at most as many messages as there are. -/
def dropOld (s : State) (q : Nat) (m : QMsg) : Nat → State
  | 0 => s
  | n + 1 => if s.qFits q m then s else match s.oldest q with
    | none => s
    | some x => dropOld (s.dropOne q x) q m n

/-- The start record of R278. -/
def qStartRec (q gen : Nat) (t : Stamp) (device : List Byte) : List Byte :=
  leBytes 2 0x5846 ++ [1, 0xFF] ++ leBytes 2 q ++ leBytes 2 0 ++ leBytes 8 t.toNat ++ leBytes 8 (Config.keyId gen).toNat
    ++ slice device 0 16 ++ padTo 24 []

/-- The 48 output bytes of a hash. -/
def hashBytes (h : BitVec 384) : List Byte := (leBytes 48 h.toNat).reverse

/-- The enable stamp of a queue with SEAL = 1 is reached (R277): with the key ready the queue is sealed and its chain starts
(R278); without it the queue runs unsealed and says so. -/
def qSealSet (s : State) (q : Nat) : State :=
  match (s.qSt q).sealAsk, (s.qSt q).st with
  | true, .pend t =>
    if s.reached t then
      let s := s.setQ q (fun Q => { Q with
        sealAsk := false, sealed := s.sealKey,
        chain := match s.sealKey with | some gen => Config.sha384 (qStartRec q gen t s.sc.fuse.device) | none => 0 })
      if s.sealKey.isNone then s.event (s.qPart q) (R.QM_EVT_CNT (s.qPart q) 4) 0x80 4 q (some t) [] else s
    else s
  | _, _ => s

/-- Every queue whose enable stamp is reached settles whether it is sealed. -/
def qSealSync (s : State) : State := forAll s.obsQueues s (fun q s => s.qSealSet q)

/-- The bytes of a message that DEDUP compares (R265). -/
def dedupKey (m : QIn) : List Byte := leBytes 8 m.stamp.toNat ++ leBytes 1 m.type ++ m.payload

/-- The type of a message is allowed for its producer (R259). -/
def typeAllowed (m : QIn) : Bool :=
  if 0x8000 ≤ m.src then m.type == 0xF0 || m.type == 0xF1 else decide (m.type < 0xF0)

/-- A message of a producer of partition `p` reaches the queue manager (R260 to R267). -/
def qAccept (s : State) (p : Fin 4) (q : Nat) (m : QIn) : QAns × State :=
  let s := s.qSealSet q
  if s.qType q ≠ 1 ∨ s.qState q ≠ 1 ∨ s.qPart q ≠ p ∨ !typeAllowed m then (.refused, s)
  else
    let key := dedupKey m
    let dedup := s.fb (qd q 0) 11
    if dedup && (s.qSt q).last8.contains key then (.accepted, (s.bump16 q 31 16).bump (R.QM_DUP_CNT p))
    else
      let new : QMsg := { recs := List.replicate (1 + ncont m.payload.length) [], ord := 0 }
      let s := (if s.qPolicy q = 1 then s.dropOld q new (s.qSt q).msgs.length else s).lossDue q
      if s.qFits q new then
        let s := s.qStore q .msg m
        (.accepted, if dedup then s.setQ q (fun Q => { Q with last8 := (key :: Q.last8).take 8 }) else s)
      else if s.qPolicy q = 2 ∧ m.src < 0x8000 then (.held, s)
      else (.refused, s.qLose q m.stamp (if s.qPolicy q = 2 then 3 else 0))

/-! ## Epochs (R269) -/

/-- An EPOCH record enters one queue; without room it is lost. -/
def qEpoch (s : State) (q : Nat) (t : Stamp) (cause : Nat) (j : Int) : State :=
  let new : QMsg := { recs := [[]], ord := 0, kind := .epoch }
  let s := (if s.qPolicy q = 1 then s.dropOld q new (s.qSt q).msgs.length else s).lossDue q
  if s.qFits q new then
    s.qStore q .epoch ⟨t, 0xFD, leBytes 2 cause ++ leBytes 2 (BitVec.ofInt 16 j).toNat ++ leBytes 12 0, s.qmSrc t false⟩
  else s.qLose q t 0

/-- An EPOCH record enters every OBS queue that is ON. -/
def qEpochAll (s : State) (t : Stamp) (cause : Nat) (j : Int) : State :=
  let s := s.qSealSync
  forAll s.obsQueues s (fun q s => if s.qType q = 1 ∧ s.qState q = 1 then s.qEpoch q t cause j else s)

/-! ## Sealed flows (R277 to R280) -/

/-- The queue waits for nothing of the sealer. -/
def qHashed (s : State) (q : Nat) : Bool := (s.qSt q).msgs.all (fun m => !m.hash)

/-- Payload bytes 0 to 71 of a SEAL record (R279). -/
def sealFront (n : SealNote) : List Byte :=
  leBytes 2 n.sFirst ++ leBytes 2 n.sLast ++ leBytes 4 0 ++ leBytes 8 n.index ++ leBytes 8 (Config.keyId n.gen).toNat ++ hashBytes n.hash

/-- A SEAL record with a signature (R279). -/
def sealIn (s : State) (n : SealNote) (sig : BitVec 768) : QIn :=
  ⟨n.stamp, 0xFE, sealFront n ++ leBytes 48 (sig.toNat % 2 ^ 384) ++ leBytes 48 (sig.toNat / 2 ^ 384), s.qmSrc n.stamp false⟩

/-- SEAL records that wait for room enter the queue (R279): each takes 6 slots, and its signature covers record bytes 0 to 15
and payload bytes 0 to 71. -/
def qSealRoom (s : State) (q : Nat) : State :=
  match (s.qSt q).sealDue with
  | [] => s
  | n :: r =>
    if slotsUsed (s.qSt q).msgs + 6 ≤ s.qCap q then
      let hdr := ((qrRecords q (s.f (qd q 3) 15 0) true (s.sealIn n 0)).headD []).take 16
      (s.setQ q (fun Q => { Q with sealDue := r })).qStore q .seal (s.sealIn n (Config.sealSign n.gen (hdr ++ sealFront n)))
    else s

/-- A SEAL record over the messages hashed since the last one (R279). -/
def qSealRecord (s : State) (q gen : Nat) : State :=
  let s := s.setQ q (fun Q => { Q with since := 0, sealDue := Q.sealDue ++ [⟨Q.sFirst, Q.sLast, Q.sStamp, Q.hashN, Q.chain, gen⟩] })
  s.qSealRoom q

/-- A draining sealed queue with hashed messages since its last SEAL record gets one once all are hashed (R279). -/
def qSealDrain (s : State) (q : Nat) : State :=
  match (s.qSt q).sealed, (s.qSt q).st with
  | some gen, .drain => if s.qHashed q ∧ 0 < (s.qSt q).since then s.qSealRecord q gen else s
  | _, _ => s

/-- The first message of a queue that is not yet sent. -/
def nextUnsent (s : State) (q : Nat) : Option QMsg := (s.qSt q).msgs.find? (fun m => !m.sent)

/-- The sealer may hash a message (R278): it is the next of its queue, and no LOSS record that still grows. Under DROP_OLD a LOSS
record may yet come to stand before any message that is not at the head, so only the next to be delivered is hashed. -/
def mayHash (s : State) (q ord : Nat) : Bool :=
  match (s.qSt q).msgs.find? (fun m => m.hash) with
  | some m => m.ord == ord && !s.lossWaits q m && (s.qPolicy q != 1 || (s.nextUnsent q).any (fun u => u.ord == ord))
  | none => false

/-- The next job that the sealer can do: messages that may not be hashed yet let others by. -/
def sealNext (s : State) : Option SealJob :=
  s.sealQ.find? (fun j => match j with | .block _ _ _ _ => true | .message q o _ _ _ => s.mayHash q o)

/-- The sealer has hashed a message of a sealed queue, as it was accepted (R278, R279). -/
def qHash (s : State) (q ord : Nat) (bytes : List Byte) (seq : Nat) (t : Stamp) : State :=
  match (s.qSt q).sealed with
  | none => s
  | some gen =>
    let s := s.setQ q (fun Q => { Q with
      chain := Config.sha384 (hashBytes Q.chain ++ bytes), hashN := Q.hashN + 1, since := Q.since + 1,
      sFirst := if Q.since = 0 then seq else Q.sFirst, sLast := seq, sStamp := t,
      msgs := Q.msgs.map (fun m => if m.ord = ord then { m with hash := false } else m) })
    if max 1 (s.f (qd q 3) 31 16) ≤ (s.qSt q).since then s.qSealRecord q gen else s.qSealDrain q

/-- KEY_READY falls (R277): sealed queues go on unsealed and say so. -/
def qSealLost (s : State) : State :=
  let s := { s with sealQ := s.sealQ.filter (fun j => match j with | .message _ _ _ _ _ => false | .block _ _ _ _ => true) }
  forAll s.obsQueues s (fun q s =>
    if (s.qSt q).sealed.isSome then
      let s := s.setQ q (fun Q => { Q with sealed := none, sealDue := [], msgs := Q.msgs.map (fun m => { m with hash := false }) })
      s.event (s.qPart q) (R.QM_EVT_CNT (s.qPart q) 4) 0x80 4 q (some s.now) []
    else s)

/-! ## Enabling (R256, R417) -/

/-- USE of a bank (R324). -/
def bankUse (s : State) (b : Nat) : Nat := s.f (R.SB_MAP b) 3 2

/-- The queue pool banks of a partition in bank order (R324). -/
def poolBanks (s : State) (p : Fin 4) : List Nat :=
  (List.range 32).filter (fun b => s.pmap.bank[Fin.ofNat 32 b] == p && s.bankUse b == 1)

/-- The resident pages that each pool bank holds (R256, R275): the event store has the first 64 pages of the first bank, and the pool fills
the banks in order (log entry 152). -/
def poolPages (s : State) (p : Fin 4) : List (Nat × Nat) :=
  (s.poolBanks p).mapIdx (fun i b => (b, min (if i = 0 then 1984 else 2048) (s.f (R.QM_POOL p) 15 0 + (if i = 0 then 0 else 64) - 2048 * i)))

/-- A bank is in Diapause. -/
def bankSleeps (s : State) (b : Nat) : Bool := (Tab.get (fun _ => ({} : ArrSt)) s.arr b).dia

/-- The pages of a pool bank that queues hold. -/
def pagesIn (s : State) (p : Fin 4) (b : Nat) : Nat :=
  ((s.obsQueues.filter (fun q => s.qPart q == p)).flatMap (fun q => ((s.qSt q).place.filter (fun e => e.1 == b)).map (·.2))).sum

/-- The free resident pages of a partition (R256, R335): those of a queue pool bank in Diapause are not free. -/
def freePages (s : State) (p : Fin 4) : Nat :=
  s.f (R.QM_POOL p) 31 16 - (((s.poolPages p).filter (fun e => s.bankSleeps e.1)).map (·.2)).sum

/-- Where `n` new resident pages lie: in the first banks that are awake and have room. -/
def placePages (s : State) (p : Fin 4) (n : Nat) : List (Nat × Nat) :=
  (((s.poolPages p).filter (fun e => !s.bankSleeps e.1)).foldl (fun (acc : List (Nat × Nat) × Nat) e =>
    let k := min acc.2 (e.2 - s.pagesIn p e.1)
    (if k = 0 then acc.1 else acc.1 ++ [(e.1, k)], acc.2 - k)) ([], n)).1

/-- Two spill regions overlap. -/
def overlap (a n b m : Nat) : Bool := decide (a < b + m ∧ b < a + n)

/-- The cause of a refused enable, if any (R256, R417). -/
def qCause (s : State) (q : Nat) : Option Nat :=
  let p := s.qPart q
  let ty := s.qType q
  let w0 := s.rd (qd q 0)
  if ty = 0 then some 0
  else if ty = 1 then
    let res := max 2 (s.f (qd q 4) 15 0)
    let n := s.qSpillN q * 1024
    let a := s.qSpillBase q
    if s.freePages p < res then some 1
    else if 0 < n ∧ (!s.inShare p a n || s.obsQueues.any (fun r => r ≠ q && s.qType r = 1 && s.qBusy r &&
        decide (0 < s.qSpillN r) && overlap a n (s.qSpillBase r) (s.qSpillN r * 1024))) then some 2
    else if bit w0 12 ∧ (s.qType (fld w0 29 16) ≠ 5 ∨ s.qPart (fld w0 29 16) ≠ p) then some 3
    else none
  else
    let lg := fld w0 12 8
    if lg < 4 ∨ 24 < lg then some 4
    else if bit w0 13 ∧ 512 ≤ fld w0 24 16 then some 5
    else if ty = 2 ∧ (q = 16383 ∨ s.qType (q + 1) ≠ 3 ∨ s.qPart (q + 1) ≠ p ∨
        16 ≤ (s.rings.filter (fun r => s.qType r = 2 && s.qBusy r && s.qPart r == p)).length) then some 6
    else none

/-- A queue is asked to be enabled (R256): EN stays 0 when it is refused. -/
def qEnable (s : State) (q : Nat) : State :=
  let p := s.qPart q
  match s.qCause q with
  | some c => (s.wrF (qd q 0) 3 3 0).event p (R.QM_EVT_CNT p 2) 0x80 2 q none [(1, c)]
  | none =>
    let t := s.stamp32
    let s := ((s.wrF (qd q 0) 3 3 1).wr (qd q 1) 0#32).wr (qd q 2) 0#32
    if s.qType q = 1 then
      let res := max 2 (s.f (qd q 4) 15 0)
      let s := s.wrF (R.QM_POOL p) 31 16 (s.f (R.QM_POOL p) 31 16 - res)
      let s := s.wrF (qd q 3) 15 0 0
      let place := s.placePages p res
      s.setQ q (fun _ => { ({} : QSt) with st := .pend t, res := res, place := place, sealAsk := s.fb (qd q 0) 10 })
    else s.setRing q (fun G => { G with
      st := .pend t, life := G.life + 1, ackT := 0#32, shown := 0#32, modN := 0, modAt := none, fetchAt := 0#32, fetched := [], early := [], busy := false,
      value := [] })

/-- An OBS queue enters OFF: its pages return to the pool (R255, R262). -/
def qOff (s : State) (q : Nat) : State :=
  let p := s.qPart q
  let s := s.wrF (R.QM_POOL p) 31 16 (min 0xFFFF (s.f (R.QM_POOL p) 31 16 + (s.qSt q).res))
  s.setQ q (fun _ => {})

/-- A jump request without its command: it goes on, and no completion follows it. -/
def JReq.orphan (q : Nat) (j : JReq) : JReq := if j.src = .cmd q then { j with src := .write } else j

/-- The jump requests of a ring lose their command. -/
def orphanJumps (s : State) (q : Nat) : State :=
  { s with sg := s.sg.map (fun (G : SgSt) => { G with jq := G.jq.map (JReq.orphan q), jump := G.jump.map (JReq.orphan q) }) }

/-- Clearing EN (R255): an OBS queue drains, a ring goes OFF at once. A queue whose enable stamp lies ahead goes OFF. -/
def qDisable (s : State) (q : Nat) : State :=
  let s := (s.qSealSet q).wrF (qd q 0) 3 3 0
  if s.qType q = 1 then
    match (s.qSt q).st with
    | .pend t => if s.reached t then (s.setQ q (fun Q => { Q with st := .drain })).qSealDrain q else s.qOff q
    | _ => s
  else (s.orphanJumps q).setRing q (fun G => { G with st := .off, fetched := [], busy := false, value := [] })

/-- A draining OBS queue that has delivered all it held enters OFF (R255). -/
def qDrained (s : State) (q : Nat) : State :=
  match (s.qSt q).st with
  | .drain => if (s.qSt q).msgs.isEmpty && (s.qSt q).sealDue.isEmpty && (s.qSt q).owed.isNone then s.qOff q else s
  | _ => s

end State
end Sys2Proof.Machine
end

