-- ==== Sys2Proof/Machine/Host.lean ====
section
/-! DEFINITION. The host ports (file 12): configuration space, posted writes, MSI-X and INTA, tags and reads, holding of
deliveries, the rings and what they write. -/

namespace Sys2Proof.Machine

open Bits

namespace State

/-- Change one port. -/
def setPort (s : State) (p : Fin 4) (h : PortSt → PortSt) : State := { s with port := s.port.set p (h s.port[p]) }

/-! ## Configuration space (R392, R393). The capability offsets are the model's (log entry 20). -/

/-- The configuration words at their reset values: the link partner's defaults of the PCIe Base Specification. -/
def cfgReset (off : Nat) : Word := if off = 0x78 then 0x2000#32 else 0#32

/-- The writable bits of a configuration word: the command register, the BARs, the interrupt line, and the controls of
Power Management, MSI-X, PCI Express, LTR and PTM. -/
def cfgMask (off : Nat) : Word :=
  match off with
  | 0x04 => 0x00000546#32
  | 0x10 => 0xFC000000#32
  | 0x14 => 0xFFFFFFFF#32
  | 0x18 => 0xFFF00000#32
  | 0x1C => 0xFFFFFFFF#32
  | 0x20 => 0xFFFFC000#32
  | 0x24 => 0xFFFFFFFF#32
  | 0x3C => 0x000000FF#32
  | 0x44 => 0x00000003#32
  | 0x50 => 0xC0000000#32
  | 0x78 => 0x000077EF#32
  | 0x98 => 0x0000140F#32
  | 0x164 => 0x0000FF03#32
  | 0x174 => 0x1FFF1FFF#32
  | _ => 0#32

/-- A programmed configuration word. -/
def cfgW (s : State) (p : Fin 4) (off : Nat) : Word := Tab.get cfgReset s.port[p].cfg off

/-- Memory Space Enable, Bus Master Enable, Interrupt Disable, MSI-X Enable and Function Mask. -/
def mse (s : State) (p : Fin 4) : Bool := bit (s.cfgW p 0x04) 1
def bme (s : State) (p : Fin 4) : Bool := bit (s.cfgW p 0x04) 2
def intDis (s : State) (p : Fin 4) : Bool := bit (s.cfgW p 0x04) 10
def msixEn (s : State) (p : Fin 4) : Bool := bit (s.cfgW p 0x50) 31
def msixMask (s : State) (p : Fin 4) : Bool := bit (s.cfgW p 0x50) 30

/-- Max Payload Size and Max Read Request Size in bytes, at most 512 and 4,096 (R393, R395). -/
def mps (s : State) (p : Fin 4) : Nat := min 512 (128 * 2 ^ fld (s.cfgW p 0x78) 7 5)
def mrrs (s : State) (p : Fin 4) : Nat := min 4096 (128 * 2 ^ fld (s.cfgW p 0x78) 14 12)

/-- The reads that may be outstanding (R395). -/
def maxTags (s : State) (p : Fin 4) : Nat := if bit (s.cfgW p 0x98) 12 then 512 else 255

/-- The port issues requests: its link is up, Bus Master Enable is set, it is not fenced and not in D3hot (R274, R401,
R406, R411). -/
def mayIssue (s : State) (p : Fin 4) : Bool :=
  s.present p && !s.port[p].perst && s.port[p].link && s.bme p && !s.port[p].fenced && !s.port[p].d3

/-! ## Posted writes and interrupts -/

/-- The pieces of a transfer: at most `size` bytes each, none crossing a 4 KiB boundary (R395): offset and length. -/
def pieces (size addr : Nat) : Nat → Nat → Nat → List (Nat × Nat)
  | 0, _, _ => []
  | fuel + 1, off, len =>
    if len = 0 then [] else
    let n := min (min len size) (4096 - (addr + off) % 4096)
    (off, n) :: pieces size addr fuel (off + n) (len - n)

/-- Post a memory write (R395). -/
def post (s : State) (p : Fin 4) (k : TxKind) (addr : Nat) (bs : List Byte) (poison : Bool := false) : State :=
  let ps := pieces (s.mps p) addr (bs.length + 1) 0 bs.length
  s.setPort p (fun P => { P with tx := P.tx ++ ps.map (fun e => ⟨k, addr + e.1, slice bs e.1 e.2, poison⟩) })

/-- A word of the MSI-X table; entries are masked at reset. -/
def msixReset (i : Nat) : Word := if i % 4 = 3 then 1#32 else 0#32
def msixW (s : State) (p : Fin 4) (i : Nat) : Word := Tab.get msixReset s.port[p].msix i

/-- Vector `v` is masked (R398). -/
def vecMasked (s : State) (p : Fin 4) (v : Nat) : Bool := s.msixMask p || bit (s.msixW p (4 * v + 3)) 0

/-- Send the message of table entry `v` (R398). -/
def sendMsix (s : State) (p : Fin 4) (v : Nat) : State :=
  s.post p (.msix v) ((s.msixW p (4 * v + 1)).toNat * 4294967296 + (s.msixW p (4 * v)).toNat) (wordBytes (s.msixW p (4 * v + 2)))

/-- Raise vector `v` (R398): sent, or pending while masked. -/
def raiseVec (s : State) (p : Fin 4) (v : Nat) : State :=
  if !s.msixEn p || 512 ≤ v then s
  else if s.vecMasked p v || !s.mayIssue p then
    s.setPort p (fun P => { P with pba := if P.pba.contains v then P.pba else insertBy (fun x y => x ≤ y) v P.pba })
  else s.sendMsix p v

/-- Send the pending messages whose masks have cleared (R398). -/
def unmask (s : State) (p : Fin 4) : State :=
  if s.msixEn p && s.mayIssue p then
    forAll s.port[p].pba s (fun v s =>
      if s.vecMasked p v then s else (s.setPort p (fun P => { P with pba := P.pba.filter (· ≠ v) })).sendMsix p v)
  else s

/-! ## Reads (R403 to R408) -/

/-- The next free tag in rotation (R405). -/
def freeTag (s : State) (p : Fin 4) : Option Nat :=
  let P := s.port[p]
  let n := s.maxTags p
  let used (t : Nat) : Bool := P.tags.any (fun x => x.tag == t) || P.retired.any (fun x => x.1 == t)
  ((List.range n).map (fun k => (P.nextTag + k) % n)).find? (fun t => !used t)

/-- Issue waiting reads while the port may and a tag is free; at most `fuel` of them. -/
def pump (s : State) (p : Fin 4) : Nat → State
  | 0 => s
  | n + 1 =>
    if !s.mayIssue p then s
    else match s.port[p].wants, s.freeTag p with
      | w :: r, some t =>
        pump (s.setPort p (fun P => { P with
          wants := r, tags := P.tags ++ [⟨t, s.tb.count, w, []⟩], nextTag := t + 1 })) p n
      | _, _ => s

/-- Ask for host memory: the reads of at most Max Read Request Size join the port's list, and go out as they can. -/
def askRead (s : State) (p : Fin 4) (w : Want) (addr len life : Nat) : State :=
  let ps := pieces (s.mrrs p) addr (len + 1) 0 len
  let s := s.setPort p (fun P => { P with wants := P.wants ++ ps.map (fun e => ⟨w, addr + e.1, e.1, e.2, life, false⟩) })
  s.pump p 1024

/-- CTO of a port in milliseconds (R403, HP_CTL). -/
def cto (s : State) (p : Fin 4) : Nat := min 64 (max 1 (s.f (R.HP_CTL p) 6 0))

/-! ## Rings (R270 to R276) -/

/-- Slots of a ring, its host addresses, and the bytes of one slot. -/
def ringSize (s : State) (q : Nat) : Nat := 2 ^ min 24 (s.f (qd q 0) 12 8)
def ringBase (s : State) (q : Nat) : Nat := (s.rd (qd q 5)).toNat * 4294967296 + s.f (qd q 4) 31 6 * 64
def ringShadow (s : State) (q : Nat) : Nat := (s.rd (qd q 7)).toNat * 4294967296 + s.f (qd q 6) 31 3 * 8
def slotSize (s : State) (q : Nat) : Nat := match s.qType q with | 2 => 64 | 5 => 32 | _ => 16
def ringHead (s : State) (q : Nat) : Word := s.rd (qd q 1)
def ringTail (s : State) (q : Nat) : Word := s.rd (qd q 2)

/-- Slots of a ring that hold something, and those that are free. -/
def ringUsed (s : State) (q : Nat) : Nat := (s.ringTail q - s.ringHead q).toNat
def ringFree (s : State) (q : Nat) : Nat := s.ringSize q - s.ringUsed q

/-- A queue is an enabled ring of partition `p` (R271). -/
def ringOn (s : State) (p : Fin 4) (q : Nat) : Bool := decide (2 ≤ s.qType q) && s.qState q == 1 && s.qPart q == p

/-- INT_EN and VEC of a ring (R273). -/
def ringInt (s : State) (q : Nat) : Bool := s.fb (qd q 0) 13
def ringVec (s : State) (q : Nat) : Nat := s.f (qd q 0) 24 16

/-- Write one message to the slots of a ring at its TAIL (R270, R272). -/
def writeSlots (s : State) (p : Fin 4) (q : Nat) (bytes : List Byte) : State :=
  let sz := s.slotSize q
  let n := bytes.length / sz
  let t0 := (s.ringTail q).toNat
  let life := (s.ringSt q).life
  let s := forAll (List.range n) s (fun k s =>
    s.post p (.slots q life) (s.ringBase q + (t0 + k) % s.ringSize q * sz) (slice bytes (sz * k) sz))
  s.wr (qd q 2) (s.ringTail q + word n)

/-- Write the shadow of a ring: TAIL, or HEAD of a CMD ring (R272). `src` says what it covers. -/
def writeShadow (s : State) (p : Fin 4) (q : Nat) (src : List (Nat × Nat)) : State :=
  let x := if s.qType q = 2 then s.ringHead q else s.ringTail q
  s.post p (.shadow q (s.ringSt q).life x src) (s.ringShadow q) (leBytes 8 x.toNat)

/-- After a shadow write, the vector of a ring is raised when R273 says so. `n` slots were written. -/
def ringInterrupt (s : State) (p : Fin 4) (q n : Nat) : State :=
  let G := s.ringSt q
  let at_ := G.modAt.getD s.tb.count
  let s := s.setRing q (fun G => { G with modN := G.modN + n, modAt := some at_ })
  let cnt := s.f (qd q 3) 15 0
  let time := s.f (qd q 3) 31 16
  let hit := decide (cnt ≤ (s.ringSt q).modN) || (decide (0 < time) && s.since at_ (2000 * time))
  if s.ringInt q && hit && s.ringHead q != s.ringTail q then
    (s.setRing q (fun G => { G with modN := 0, modAt := none })).raiseVec p (s.ringVec q)
  else s

/-- MOD_TIME has passed since the first slot written after the last interrupt of a ring (R273). -/
def modTimeout (s : State) (q : Nat) : State :=
  let p := s.qPart q
  let time := s.f (qd q 3) 31 16
  match (s.ringSt q).modAt with
  | none => s
  | some a =>
    if s.ringOn p q && s.ringInt q && decide (0 < time) && s.since a (2000 * time) && s.mayIssue p && s.ringHead q != s.ringTail q then
      (s.setRing q (fun G => { G with modN := 0, modAt := none })).raiseVec p (s.ringVec q)
    else s

/-- A message may be delivered: it is resident and hashed, and no LOSS record that still grows (R262, R267, R278). -/
def msgReady (s : State) (q : Nat) (m : QMsg) : Bool := !m.hash && m.recs.all (fun r => !r.isEmpty) && !s.lossWaits q m

/-- The OBS queues that deliver to a ring, each with its next message (R263). -/
def dlvHeads (s : State) (q : Nat) : List (Nat × QMsg) :=
  s.obsQueues.filterMap (fun o =>
    if s.qType o = 1 && s.qBusy o && s.fb (qd o 0) 12 && s.f (qd o 0) 29 16 == q && s.qPart o == s.qPart q then
      (s.nextUnsent o).map (fun m => (o, m))
    else none)

/-- The message a DLV ring takes next: in the order of acceptance across its queues (R263). While that message is not ready, the
ring waits. -/
def dlvNext (s : State) (q : Nat) : Option (Nat × QMsg) :=
  ((s.dlvHeads q).foldl (fun (best : Option (Nat × QMsg)) x => match best with
    | none => some x
    | some b => if x.2.ord < b.2.ord then some x else some b) none).filter (fun x => s.msgReady x.1 x.2)

/-- Mark the first unsent message of a queue as sent; HEAD counts its slots as delivered (R285). -/
def markSent (s : State) (o : Nat) (ord : Nat) : State :=
  let n := slotsOf ((s.qSt o).msgs.filter (fun m => m.ord == ord && !m.sent))
  (s.setQ o (fun Q => { Q with msgs := Q.msgs.map (fun m => if m.ord = ord then { m with sent := true } else m) })).wr (qd o 1)
    (s.rd (qd o 1) + word n)

/-- A message delivered with BAD (R268): QN bit 14, and at its first delivery a count and a record. -/
def badBytes (s : State) (o : Nat) (m : QMsg) : List Byte × State :=
  let bs := m.recs.flatten
  if m.bad then
    let p := s.qPart o
    let hi := leAt bs 9 1
    let bs := slice bs 0 9 ++ leBytes 1 (hi ||| 0x40) ++ bs.drop 10
    if m.told then (bs, s)
    else
      let s := s.setQ o (fun Q => { Q with msgs := Q.msgs.map (fun x => if x.ord = m.ord then { x with told := true } else x) })
      (bs, (s.bump (R.QM_BAD_CNT p)).event p (R.QM_EVT_CNT p 1) 0x80 1 o none [(2, m.seq)])
  else (bs, s)

/-- Write up to `n` messages of a DLV ring (R263, R272): the queues they came from, and the slots written. -/
def ringDlv (s : State) (p : Fin 4) (q : Nat) : Nat → List (Nat × Nat) → Nat → List (Nat × Nat) × Nat × State
  | 0, src, w => (src, w, s)
  | n + 1, src, w =>
    match s.dlvNext q with
    | none => (src, w, s)
    | some (o, m) =>
      if m.slots ≤ s.ringFree q then
        let (bs, s) := s.badBytes o m
        let s := ((s.markSent o m.ord).writeSlots p q bs).monEvent 2 o 0 (((s.tb.count - m.at_).toNat / 2 : Nat) : Int)
        ringDlv s p q n ((o, 1) :: src) (w + m.slots)
      else (src, w, s)

/-- The queue that drains the event store of a partition (R275). -/
def evtRing (s : State) (p : Fin 4) : Option Nat :=
  if s.fb (R.QM_EVTQ p) 31 && s.qType (s.f (R.QM_EVTQ p) 13 0) == 4 && s.qPart (s.f (R.QM_EVTQ p) 13 0) == p then
    some (s.f (R.QM_EVTQ p) 13 0) else none

/-- Write up to `n` event records of a partition (R275). -/
def ringEvt (s : State) (p : Fin 4) (q : Nat) : Nat → Nat → Nat × State
  | 0, w => (w, s)
  | n + 1, w =>
    match s.evt[p].recs.drop s.evt[p].sent with
    | [] => (w, s)
    | r :: _ =>
      if evUnits r ≤ s.ringFree q then
        ringEvt ((s.setEvt p (fun e => { e with sent := e.sent + 1 })).writeSlots p q r) p q n (w + evUnits r)
      else (w, s)

/-- When room returns after a loss, the store takes a QM_EVT_LOST record (R275). -/
def evtRoom (s : State) (p : Fin 4) : State :=
  let n := s.evt[p].lost
  let r := evRecord s.now 0x80 5 p [(4, n)]
  if 0 < n ∧ s.evtUsed p + 1 ≤ 4096 then
    (s.bump (R.QM_EVT_CNT p 5)).setEvt p (fun e => { e with recs := e.recs ++ [r], lost := 0 })
  else s

/-- Write up to `n` completions of a CPL ring (R276). -/
def ringCpl (s : State) (p : Fin 4) (q : Nat) : Nat → Nat → Nat × State
  | 0, w => (w, s)
  | n + 1, w =>
    match (s.ringSt q).cpl.find? (fun e => !e.2) with
    | none => (w, s)
    | some e =>
      if 1 ≤ s.ringFree q then
        let k := (s.ringSt q).cpl.findIdx (fun e => !e.2)
        ringCpl ((s.setRing q (fun G => { G with cpl := G.cpl.set k (e.1, true) })).writeSlots p q e.1) p q n (w + 1)
      else (w, s)

/-- The manager writes up to `n` messages into the free slots of a ring, then its shadow (R272): the slots written. Nothing
happens while deliveries are held (R274). -/
def ringPut (s : State) (q n : Nat) : Nat × State :=
  let p := s.qPart q
  if s.ringOn p q && s.mayIssue p then
    match s.qType q with
    | 5 =>
      let (src, w, s) := s.ringDlv p q n [] 0
      (w, if w = 0 then s else s.writeShadow p q src)
    | 4 =>
      if s.evtRing p = some q then
        let before := s.evt[p].sent
        let (w, s) := s.ringEvt p q n 0
        (w, if w = 0 then s else s.writeShadow p q [(0, s.evt[p].sent - before)])
      else (0, s)
    | 3 =>
      let (w, s) := s.ringCpl p q n 0
      (w, if w = 0 then s else s.writeShadow p q [(0, w)])
    | _ => (0, s)
  else (0, s)

/-- A ring is written, and then its vector is raised when that is due (R272, R273). -/
def ringWrite (s : State) (q n : Nat) : State :=
  let (w, s) := s.ringPut q n
  if w = 0 then s else s.ringInterrupt (s.qPart q) q w

/-! ## Acknowledgements (R412) -/

/-- Remove the first `n` sent messages of a list. -/
def dropSent : Nat → List QMsg → List QMsg
  | 0, l => l
  | _, [] => []
  | n + 1, m :: r => if m.sent then dropSent n r else m :: r

/-- A shadow of a ring has been acknowledged: the records it covers leave their stores. -/
def ackShadow (s : State) (p : Fin 4) (q life : Nat) (tail : Word) (src : List (Nat × Nat)) : State :=
  let s := if (s.ringSt q).life = life then s.setRing q (fun G => { G with ackT := tail }) else s
  match s.qType q with
  | 5 => forAll src s (fun e s => (((s.setQ e.1 (fun Q => { Q with msgs := dropSent e.2 Q.msgs })).qSpill e.1).qSealRoom e.1).lossDue e.1)
  | 4 => forAll src s (fun e s =>
      (s.setEvt p (fun x => { x with recs := x.recs.drop (min e.2 x.sent), sent := x.sent - e.2 })).evtRoom p)
  | 3 => forAll src s (fun e s => s.setRing q (fun G => { G with cpl := G.cpl.drop e.2 }))
  | _ => s

/-- The state of INTA (R399): the level while MSI-X is off. -/
def ringsWait (s : State) (p : Fin 4) : Bool :=
  s.rings.any (fun q => decide (3 ≤ s.qType q) && s.ringOn p q && s.ringInt q && s.ringHead q != s.ringTail q)

/-! ## Doorbells (R271, R397) -/

/-- The index that a doorbell write asks for takes effect (R271). -/
def doorbellOk (s : State) (q : Nat) (x : Word) : Bool :=
  let cmd := s.qType q == 2
  let now := if cmd then s.ringTail q else s.ringHead q
  let lim := if cmd then s.ringHead q + word (s.ringSize q) else s.ringTail q
  decide ((x - now).toNat ≤ (lim - now).toNat)

/-- The read of a doorbell word (R397). -/
def doorbellRead (s : State) (p : Fin 4) (q : Nat) : Word :=
  if s.ringOn p q then (if s.qType q = 2 then s.ringTail q else s.ringHead q) else 0#32

/-- The slots of a CPL ring that no completion and no reservation takes (R276): each fetched descriptor has reserved one. -/
def cplFree (s : State) (q : Nat) : Nat :=
  let c := s.ringSt q
  s.ringFree (q + 1) - ((s.ringSt (q + 1)).cpl.filter (fun e => !e.2)).length
    - ((c.fetchAt - s.ringHead q).toNat + c.fetched.length)

/-- Ask for descriptors of a CMD ring while there are some and a completion slot can be reserved (R276). -/
def cmdFetch (s : State) (q : Nat) : Nat → State
  | 0 => s
  | n + 1 =>
    let G := s.ringSt q
    let p := s.qPart q
    if s.ringOn p q && s.ringOn p (q + 1) && G.fetchAt != s.ringTail q && decide (0 < s.cplFree q) then
      let a := s.ringBase q + G.fetchAt.toNat % s.ringSize q * 64
      let s := s.setRing q (fun G => { G with fetchAt := G.fetchAt + 1#32 })
      cmdFetch (s.askRead p (.cmd q G.fetchAt) a 64 G.life) q n
    else s

/-- A doorbell write of queue `q` at the port of partition `p` (R271). -/
def doorbell (s : State) (c : Part) (p : Fin 4) (q : Nat) (x : Word) : State :=
  if !s.ringOn p q then s.ignored c
  else if s.doorbellOk q x then
    if s.qType q = 2 then (s.wr (qd q 2) x).cmdFetch q 64
    else
      let s := s.wr (qd q 1) x
      if s.qType q = 3 then s.cmdFetch (q - 1) 64 else s
  else s.event p (R.QM_EVT_CNT p 3) 0x80 3 q none [(4, x.toNat)]

end State
end Sys2Proof.Machine
end

