-- ==== Sys2Proof/Machine/Trigger.lean ====
section
/-! DEFINITION. The trigger block (file 04): hits of comparators, qualifiers, counters, matchers and TRIG_IO inputs, the
sequencers' decisions and actions, arming, stops, and the TRIG_IO outputs. -/

namespace Sys2Proof.Machine

open Bits

namespace State

/-- A sequencer event (R150). -/
def trgEvent (s : State) (q : Fin 8) (k : Nat) (stamp : Option Stamp) (items : List (Nat × Nat)) : State :=
  s.event (s.pmap.seq[q]) (R.TRG_SEQ_EVT_CNT q k) 0x20 k q stamp items

/-- The sequencers for which a message with stamp `t` comes after their horizons (R130). -/
def lateFor (s : State) (src : Nat) (t : Stamp) : List (Fin 8) :=
  (List.finRange 8).filter (fun q => before t (s.horizon q) && s.namesSource q src)

/-- The sequencers for which a counter hit of another one is produced after their horizons (R130): those with a smaller HOLD, or
that have decided for its stamp already (log entry 145). -/
def ctLate (s : State) (src : Nat) (t : Stamp) (owner : Fin 8) : List (Fin 8) :=
  (List.finRange 8).filter (fun q => decide (q ≠ owner) && s.namesSource q src &&
    (decide (s.hold q < s.hold owner) || (s.evaluating q && upto t s.trg.seq[q].pos)))

/-- Count and report a late hit for one sequencer in ARMED, HOLDOFF, RUN or POST (R130): LATE_CNT counts it, and the first after each
arming is reported. -/
def noteLate (s : State) (code : Nat) (t : Stamp) (q : Fin 8) : State :=
  if s.restingQ q then s
  else
  let s := s.bump (R.TRG_SEQ_LATE_CNT q)
  if s.trg.seq[q].lateSeen then s
  else (s.setSeq q (fun Q => { Q with lateSeen := true })).trgEvent q 4 (some t) [(1, code)]

/-- Produce a hit (R115, R117): at most one for each source and stamp; a second contribution at one stamp only adds ERR. -/
def addHit (s : State) (h : Hit) : State :=
  if s.trg.hits.any (fun x => x.src = h.src && x.stamp = h.stamp) then
    s.setTrg (fun t => { t with hits := t.hits.map (fun x =>
      if x.src = h.src && x.stamp = h.stamp then { x with err := x.err || h.err } else x) })
  else s.setTrg (fun t => { t with hits := h :: t.hits })

/-- A hit of a source fed by edge events or pins, which is never late. -/
def plainHit (s : State) (src cnt : Nat) (t : Stamp) (coast err : Bool) : State :=
  let fresh := !s.trg.hits.any (fun x => x.src = src && x.stamp = t)
  let s := s.addHit ⟨src, t, coast, err, []⟩
  if fresh then s.bump cnt else s

/-! ## Comparators (R119 to R121) -/

/-- The bits of a comparator's MASK and VALUE, 128 of them. -/
def pcBits (s : State) (base : Nat → Nat) : BitVec 128 :=
  BitVec.ofNat 128 ((List.range 4).map (fun w => (s.rd (base w)).toNat * 2 ^ (32 * w))).sum

/-- The channels whose bits count: not the odd channels of split groups (R119). -/
def oddMask (s : State) : BitVec 128 :=
  BitVec.ofNat 128 ((List.finRange 16).map (fun g => if s.splitG g then 0xAA * 2 ^ (8 * g.val) else 0)).sum

/-- A comparator's pattern matches the levels (R120). -/
def pcMatch (s : State) (p : Fin 64) : Bool :=
  let m := s.pcBits (R.TRG_PC_MASK p) &&& ~~~s.oddMask
  (s.trg.lvl &&& m) == (s.pcBits (R.TRG_PC_VALUE p) &&& m)

/-- MODE and DUR of a comparator (R121). -/
def pcMode (s : State) (p : Fin 64) : Nat := s.f (R.TRG_PC_CTL p) 2 1
def pcDur (s : State) (p : Fin 64) : Nat := s.f (R.TRG_PC_DUR p) 23 0

/-- A comparator's hit. -/
def pcHit (s : State) (p : Fin 64) (t : Stamp) (coast err : Bool) : State :=
  s.plainHit p.val (R.TRG_PC_HIT_CNT p) t coast err

/-- The pending ENTER of a comparator whose DUR has run out below a stamp produces its hit (R121). -/
def pcDurDue (s : State) (p : Fin 64) (bound : Stamp) : State :=
  match s.trg.pc[p].enter with
  | some (e, _, err) =>
    let t := e + stamp (s.pcDur p)
    if before t bound then
      (s.pcHit p t (s.coastAt t) err).setPc p (fun P => { P with enter := none })
    else s
  | none => s

/-- The level of a comparator after everything stamped `t` (R120, R121). `coast` and `err` come from the edges at `t`;
`dis` says that the change comes from the comparator's own disable (R117). -/
def pcUpdate (s : State) (p : Fin 64) (t : Stamp) (coast err dis : Bool) : State :=
  let P := s.trg.pc[p]
  let now := P.en && s.pcMatch p
  if now = P.level then s
  else
    let s := if now then s else s.pcDurDue p t
    let s := s.setPc p (fun P => { P with level := now, log := (t, now) :: P.log })
    let mode := s.pcMode p
    if now then
      if mode = 2 then s.pcHit p t coast err
      else if mode = 0 then
        if s.pcDur p = 0 then s.pcHit p t coast err
        else s.setPc p (fun P => { P with enter := some (t, coast, err) })
      else s
    else
      let s := s.setPc p (fun P => { P with enter := none })
      if (mode = 1 ∨ mode = 2) && !dis then s.pcHit p t coast err else s

/-- CLOCKED comparators hit at an edge of their clock channel, one of their own partition (R118), whose direction CLK_EDGE
selects (R121). -/
def pcClocked (s : State) (p : Fin 64) (e : EdgeRec) (sig : Nat) : State :=
  let w := s.rd (R.TRG_PC_CTL p)
  let sel := fld w 5 4
  let sel := if sel = 0 then 1 else sel
  if s.pcMode p = 3 ∧ fld w 14 8 = sig ∧ s.partOf .chan sig = s.pmap.pc[p] ∧ (if e.rise then sel.testBit 0 else sel.testBit 1) ∧ s.trg.pc[p].en ∧ s.trg.pc[p].level
  then s.pcHit p e.stamp e.coast e.err else s

/-! ## Interval qualifiers (R122 to R124) -/

/-- An edge qualifies under a selector (R122): 0 rising, 1 falling, 2 either, 3 collapse. -/
def selects (sel : Nat) (e : EdgeRec) : Bool :=
  match sel with
  | 0 => e.rise
  | 1 => !e.rise
  | 2 => true
  | _ => e.coll.isSome

/-- KIND, MIN and MAX of a qualifier (R123). -/
def iqKind (s : State) (q : Fin 32) : Nat := s.f (R.TRG_IQ_CTL q) 2 1
def iqMin (s : State) (q : Fin 32) : Int := s.fs (R.TRG_IQ_MIN q) 31 0
def iqMax (s : State) (q : Fin 32) : Int := s.fs (R.TRG_IQ_MAX q) 31 0

/-- A qualifier watches only channels of its own partition (R118). -/
def iqLegal (s : State) (q : Fin 32) : Bool :=
  let w := s.rd (R.TRG_IQ_CTL q)
  s.partOf .chan (fld w 22 16) == s.pmap.iq[q] && s.partOf .chan (fld w 30 24) == s.pmap.iq[q]

/-- The test of WITHIN and OUTSIDE on the pair a, b, in real time (R123, R124); the hit is at `t`. -/
def iqTest (s : State) (q : Fin 32) (a b t : Stamp) (coast err : Bool) : State :=
  let d := diff a b + (if upto a b then s.jumps a b else -(s.jumps b a))
  let inside := decide (s.iqMin q ≤ d ∧ d ≤ s.iqMax q)
  if (if s.iqKind q = 1 then !inside else inside) then s.plainHit (0x40 + q.val) (R.TRG_IQ_HIT_CNT q) t coast err else s

/-- The deadline of a timeout that began at `a` (R124). -/
def iqDeadline (s : State) (q : Fin 32) (a : Stamp) : Stamp :=
  let d := shift a (s.iqMax q)
  shift d (-(s.jumps a d))

/-- The timeouts of a qualifier whose deadlines lie below a bound produce their hits (R123). -/
def iqTmoDue (s : State) (q : Fin 32) (bound : Stamp) : State :=
  let due := s.trg.iq[q].tmo.filter (fun e => before (s.iqDeadline q e.1) bound)
  let s := s.setIq q (fun I => { I with tmo := I.tmo.filter (fun e => !before (s.iqDeadline q e.1) bound) })
  forAll due s (fun e s =>
    let t := s.iqDeadline q e.1
    s.plainHit (0x40 + q.val) (R.TRG_IQ_HIT_CNT q) t (s.coastAt t) e.2.2)

/-- The edges with one stamp `t` reach a qualifier (R123): A tests first against B strictly below, then B tests against A
at or below; an edge that qualifies for both pairs with the previous A. -/
def iqEdges (s : State) (q : Fin 32) (t : Stamp) (es : List (EdgeRec × Nat)) : State :=
  let w := s.rd (R.TRG_IQ_CTL q)
  let isA (x : EdgeRec × Nat) : Bool := x.2 == fld w 22 16 && selects (fld w 9 8) x.1
  let isB (x : EdgeRec × Nat) : Bool := x.2 == fld w 30 24 && selects (fld w 11 10) x.1
  if !s.trg.iq[q].en || !s.iqLegal q then s
  else
    let as := es.filter isA
    let bs := es.filter isB
    let errOf (l : List (EdgeRec × Nat)) : Bool := l.any (fun x => x.1.err)
    let coastOf (l : List (EdgeRec × Nat)) : Bool := l.any (fun x => x.1.coast)
    let I := s.trg.iq[q]
    let both := bs.all isA
    if s.iqKind q = 2 then
      let s := s.iqTmoDue q t
      let s := if bs.isEmpty then s else s.setIq q (fun I => { I with tmo := I.tmo.filter (fun e => !before e.1 t) })
      if as.isEmpty ∨ s.iqMax q ≤ 0 then s
      else s.setIq q (fun I => { I with
        tmo := (t, coastOf as, errOf as) :: I.tmo.filter (fun e => upto (s.iqDeadline q e.1) t) })
    else
      let s := if as.isEmpty then s else match I.lastB with
        | some (b, _, e) => s.iqTest q t b t (coastOf as) (errOf as || e)
        | none => s
      let prevA := I.lastA
      let s := if as.isEmpty then s else s.setIq q (fun I => { I with lastA := some (t, coastOf as, errOf as) })
      let s := if bs.isEmpty then s
        else
          let partner := if both then prevA else s.trg.iq[q].lastA
          match partner with
          | some (a, _, e) => s.iqTest q a t t (coastOf bs) (errOf bs || e)
          | none => s
      if bs.isEmpty then s else s.setIq q (fun I => { I with lastB := some (t, coastOf bs, errOf bs) })

/-! ## Counters (R125 to R128) -/

/-- A counter's stage set holds the stage of its sequencer, which runs (R125). -/
def ctStage (s : State) (n : Fin 32) (k : Nat) : Bool := s.fb (R.TRG_CT_STAGES n) k

/-- The sequencer of a counter, none when it belongs to another partition (R118). -/
def ctSeq (s : State) (n : Fin 32) : Option (Fin 8) :=
  let q := Fin.ofNat 8 (s.f (R.TRG_CT_CTL n) 10 8)
  if s.pmap.seq[q] == s.pmap.ct[n] then some q else none

/-- Clear a counter (R126, R137): its running interval, if any, starts again at `t`. -/
def ctClear (s : State) (n : Fin 32) (t : Stamp) : State :=
  s.setCt n (fun C => { C with value := 0, full := false, from_ := C.from_.map (fun _ => t) })

/-- Close the running interval of a TIME counter at `t` (R125). -/
def ctStop (s : State) (n : Fin 32) (t : Stamp) : State :=
  s.setCt n (fun C => match C.from_ with
    | none => C
    | some a => { C with
        from_ := none,
        value := if s.ctTime n && !C.full && !C.fault then min (C.value + (diff a t + s.jumps a t).toNat) (2 ^ 48 - 1) else C.value })

/-- Open a running interval at `t`. -/
def ctStart (s : State) (n : Fin 32) (t : Stamp) : State := s.setCt n (fun C => { C with from_ := some t })

/-- A counter's terminal hit at `t` (R127): the value holds at LIMIT. The hit may be late for sequencers other than the owner (R130). -/
def ctHit (s : State) (n : Fin 32) (owner : Fin 8) (t : Stamp) (coast err : Bool) : State :=
  let s := s.setCt n (fun C => { C with value := s.ctLimit n, full := true })
  let late := s.ctLate (0x60 + n.val) t owner
  let s := s.addHit ⟨0x60 + n.val, t, coast, err, late.map (·.val)⟩
  forAll late s (fun q s => s.noteLate (0x60 + n.val) t q)

/-- A counter's residue retry fails (R128): it stops until its sequencer is armed, and the owner's triggers carry ERR. -/
def ctFault (s : State) (n : Fin 32) (owner : Fin 8) : State :=
  let s := s.setCt n (fun C => { C with fault := true, from_ := none })
  ((s.setSeq owner (fun Q => { Q with err := true })).faultNote 0x20 n).trgEvent owner 5 none [(1, n)]

/-- One EVENT counter meets a hit of INC_SRC at `t`: it adds one while it runs, and reaches LIMIT (R125, R127). -/
def ctEvent (s : State) (n : Fin 32) (owner : Fin 8) (t : Stamp) (h : Hit) : State :=
  let C := s.trg.ct[n]
  let inside := match C.from_ with | some a => before a t | none => false
  if s.ctTime n || C.full || C.fault || !inside || !s.ctEn n t then s
  else
    let v := min (C.value + 1) (2 ^ 48 - 1)
    let s := s.setCt n (fun C => { C with value := v })
    if v = s.ctLimit n ∧ s.ctLimit n ≠ 0 then s.ctHit n owner t h.coast h.err else s

/-- A hit source is one of a partition's resources, or a TRIG_IO input, which is everyone's (R118, R147). -/
def srcIn (s : State) (p : Fin 4) (src : Nat) : Bool :=
  if src < 0x40 then s.pmap.pc[Fin.ofNat 64 src] == p
  else if src < 0x60 then s.pmap.iq[Fin.ofNat 32 (src - 0x40)] == p
  else if src < 0x80 then s.pmap.ct[Fin.ofNat 32 (src - 0x60)] == p
  else if src < 0xC0 then s.pmap.mm[Fin.ofNat 64 (src - 0x80)] == p
  else true

/-- EVENT counters at stamp `t`, in rounds, so that a counter may count another's terminal hit at the same stamp. INC_SRC counts only
in the counter's own partition (R118). -/
def ctRounds (q : Fin 8) (t : Stamp) : Nat → List (Fin 32) → State → State
  | 0, _, s => s
  | k + 1, l, s =>
    let hit (n : Fin 32) : Option Hit := s.trg.hits.find? (fun h =>
      h.src == s.f (R.TRG_CT_CTL n) 23 16 && s.srcIn s.pmap.ct[n] h.src && h.stamp == t && !h.late.contains q.val)
    let now := l.filter (fun n => (hit n).isSome)
    if now.isEmpty then s
    else ctRounds q t k (l.filter (fun n => (hit n).isNone))
      (forAll now s (fun n s => match hit n with | some h => s.ctEvent n q t h | none => s))

/-- The sequencer is in stage `k` from `t` on (R125, R126): counters leave or enter their running intervals, and clear
under CLR. `from_` is the stage left, none at the entry into RUN. -/
def ctMove (s : State) (q : Fin 8) (from_ : Option Nat) (k : Nat) (t : Stamp) : State :=
  forAll (s.owned q) s (fun n s =>
    if s.ctSeq n != some q then s
    else
      let was := match from_ with | some j => s.ctStage n j | none => false
      let is := s.ctStage n k
      let s := s.ctStop n t
      let clr := s.f (R.TRG_CT_CTL n) 5 4
      let s := if from_.isSome ∧ ((clr = 1 ∧ is ∧ !was) ∨ (clr = 2 ∧ is)) then s.ctClear n t else s
      if is && s.ctEn n t && !s.trg.ct[n].fault then s.ctStart n t else s)

/-! ## Decisions (R130 to R134) -/

/-- The launch count of an event or level at stamp `t` of a sequencer (R149). -/
def launchCount (s : State) (q : Fin 8) (t : Stamp) : Count :=
  BitVec.ofNat 54 (t.toNat / 1024 + 240 + 128 * s.hold q)

/-- STORE acts at a stage entry (R145); with HOLD the level is 1 throughout (R146). -/
def sqEnter (s : State) (q : Fin 8) (k : Nat) (t : Stamp) : State :=
  let w := s.rd (R.TRG_STG_CTL q k)
  let prev := match logUpto s.trg.seq[q].sqLog t with
    | some (_, _, .follow p) => s.pcAt p t
    | some (_, _, .const b) => b
    | none => true
  let src : SqSrc := if s.hold q ≠ 0 then .const true
    else match fld w 1 0 with
    | 0 => .const prev
    | 1 => .const true
    | 2 => .const false
    | _ => .follow (fld w 13 8)
  s.setSeq q (fun Q => { Q with sqLog := insertBy (fun a b => before b.1 a.1) (t, s.launchCount q t, src) Q.sqLog })

/-- Outside RUN and POST the storage qualifier is SQ_OUT, or 1 with HOLD (R145, R146). -/
def sqLeave (s : State) (q : Fin 8) (t : Stamp) : State :=
  s.setSeq q (fun Q => { Q with
    sqLog := (t, s.launchCount q t, .const (s.fb (R.TRG_SEQ_CTL q) 1 || decide (s.hold q ≠ 0))) :: Q.sqLog })

/-- The groups of TRG_SEQ_GRP that receive a marker at `t` (R134, R138): S at or below it and no stop stamp at or below. -/
def markedGroups (s : State) (q : Fin 8) (t : Stamp) : List (Fin 16) :=
  (List.finRange 16).filter (fun g => s.fb (R.TRG_SEQ_GRP q) g && s.inRun g t)

/-- Write a TRIG marker (R134, R138, R166). -/
def trigMark (s : State) (q : Fin 8) (t : Stamp) (cause c k : Nat) (err : Bool) : State :=
  forAll (s.markedGroups q t) s (fun g s =>
    if s.packs g then s.addMark g t (.trig cause c err q k) else s)

/-- The trigger of a sequencer at T (R138, R139). -/
def fire (s : State) (q : Fin 8) (t : Stamp) (k c : Nat) (coast err : Bool) : State :=
  let s := s.wr64 (R.TRG_SEQ_TRIG_LO q) (R.TRG_SEQ_TRIG_HI q) t
  let s := s.wr (R.TRG_SEQ_TRIG_INFO q) (word (k + 16 * c + 256 * b2n coast + 512 * b2n err))
  let gs := s.markedGroups q t
  let s := s.trigMark q t 0 c k err
  let s := s.setSeq q (fun Q => { Q with st := .post, trig := t, evLog := (t, s.launchCount q t, true) :: Q.evLog })
  let s := if s.fb (R.TRG_SEQ_CTL q) 2 then
      forAll gs s (fun g s => s.setGrp g (fun G => { G with pendStops := (q.val, t + s.postQ q) :: G.pendStops }))
    else s
  s.trgEvent q 1 (some t) [(1, k), (1, c), (1, b2n coast), (1, b2n err)]

/-- Take condition `c` of stage `k` at `t` (R133, R134). -/
def takeCond (s : State) (q : Fin 8) (k c : Nat) (t : Stamp) (h : Hit) : State :=
  let w := s.cond q k c
  let err := h.err || s.trg.seq[q].err
  let s := if bit w 1 then s.trigMark q t 1 c k h.err else s
  let s := if bit w 2 then s.setSeq q (fun Q => { Q with evLog := (t, s.launchCount q t, false) :: Q.evLog }) else s
  let s := if bit w 0 then
      match s.trg.seq[q].st with
      | .run => s.fire q t k c h.coast err
      | _ => s.bump (R.TRG_SEQ_EXTRA_CNT q)
    else s
  let k' := fld w 11 8
  let s := s.ctMove q (some k) k' t
  let s := s.setSeq q (fun Q => { Q with stage := k', entry := t })
  s.sqEnter q k' t

/-- The hit of condition `c`'s source at `t`, when its qualifier allows it (R132). -/
def condHit (s : State) (q : Fin 8) (k c : Nat) (t : Stamp) : Option Hit :=
  let w := s.cond q k c
  let src := fld w 31 24
  if 0xD0 ≤ src then none
  else (s.trg.hits.find? (fun h => h.src == src && h.stamp == t && !h.late.contains q.val)).filter (fun _ =>
    !bit w 23 || (s.pcAt (fld w 21 16) t != bit w 22))

/-- TIME counters of a sequencer whose terminal stamp is `t` produce their hits, and EN changes of its counters at `t` act. -/
def ctTimes (s : State) (q : Fin 8) (t : Stamp) : State :=
  forAll (s.owned q) s (fun n s =>
    let s := if s.ctTime n && s.ctTerminal n == some t && s.ctSeq n == some q then s.ctHit n q t (s.coastAt t) false else s
    if s.trg.ct[n].enLog.any (fun e => e.1 == t) then
      if s.ctEn n t then
        if s.ctStage n s.trg.seq[q].stage && s.trg.ct[n].from_.isNone && !s.trg.ct[n].fault && s.ctSeq n == some q then s.ctStart n t else s
      else s.ctStop n t
    else s)

/-- The sequencer decides for stamp `t` (R130, R133): its counters first, then the lowest-numbered true condition. -/
def decideAt (s : State) (q : Fin 8) (t : Stamp) (residue : Option (Fin 32)) : State :=
  let s := match residue with
    | some n => if (s.owned q).contains n then s.ctFault n q else s
    | none => s
  let s := s.ctTimes q t
  let s := ctRounds q t 32 ((s.owned q).filter (fun n => s.ctSeq n == some q)) s
  let k := s.trg.seq[q].stage
  let s := s.setSeq q (fun Q => { Q with pos := t })
  match [0, 1, 2, 3].findSome? (fun c => (s.condHit q k c t).map (fun h => (c, h))) with
  | some (c, h) => s.takeCond q k c t h
  | none => s

/-! ## Arming (R135 to R141) -/

/-- The causes of a refused arming but OWNER (R136). -/
def armCause (s : State) (q : Fin 8) : Option Nat :=
  let p := s.pmap.seq[q]
  let condBad (w : Word) : Bool :=
    !s.srcIn p (fld w 31 24) || (bit w 23 && s.pmap.pc[Fin.ofNat 64 (fld w 21 16)] != p)
  let stgBad (k : Nat) : Bool :=
    (List.range 4).any (fun c => condBad (s.cond q k c)) ||
    (s.f (R.TRG_STG_CTL q k) 1 0 == 3 && s.pmap.pc[Fin.ofNat 64 (s.f (R.TRG_STG_CTL q k) 13 8)] != p)
  if !s.restingQ q then some 0
  else if !s.tb.ever then some 1
  else if (List.range 16).any stgBad then some 2
  else if (List.finRange 16).any (fun g => s.fb (R.TRG_SEQ_GRP q) g && s.grpPart g != p) ||
      (s.fb (R.TRG_SEQ_CTL q) 0 && s.grpPart (Fin.ofNat 16 (s.f (R.TRG_SEQ_CTL q) 19 16)) != p) then some 3
  else none

/-- TRG_REFUSED (R136, R141). -/
def trgRefused (s : State) (q : Fin 8) (cause : Nat) : State := s.trgEvent q 3 none [(1, cause), (8, s.now.toNat)]

/-- An accepted arming (R137). -/
def armSeq (s : State) (q : Fin 8) : State :=
  let s := forAll (s.owned q) s (fun n s =>
    s.setCt n (fun C => { C with value := 0, full := false, fault := false, from_ := none }))
  let s := s.wr64 (R.TRG_SEQ_TRIG_LO q) (R.TRG_SEQ_TRIG_HI q) 0
  let s := s.wr (R.TRG_SEQ_TRIG_INFO q) 0#32
  let s := (s.wr (R.TRG_SEQ_EXTRA_CNT q) 0#32).wr (R.TRG_SEQ_LATE_CNT q) 0#32
  s.setSeq q (fun Q => { Q with
    st := .armed, ended := false, err := false, lateSeen := false,
    arm := if s.fb (R.TRG_SEQ_CTL q) 0 then none else some s.stamp32 })

/-- TRG_ARM for one sequencer (R136). -/
def trgArm (s : State) (q : Fin 8) : State :=
  match s.armCause q with
  | some c => s.trgRefused q c
  | none => s.armSeq q

/-- The arm stamp is reached (R137): HOLDOFF, and TRG_ARMED. -/
def trgArmed (s : State) (q : Fin 8) : State :=
  match s.trg.seq[q].st, s.trg.seq[q].arm with
  | .armed, some a =>
    if s.reached a then
      let s := s.wr64 (R.TRG_SEQ_ARM_LO q) (R.TRG_SEQ_ARM_HI q) a
      (s.setSeq q (fun Q => { Q with st := .holdoff, armLog := (a, s.launchCount q a, true) :: Q.armLog })).trgEvent q 0 (some a) []
    else s
  | _, _ => s

/-- At A + PRE the sequencer enters RUN in stage 0 (R133, R137). -/
def seqRunEntry (s : State) (q : Fin 8) : State :=
  match s.trg.seq[q].st, s.trg.seq[q].arm with
  | .holdoff, some a =>
    let t := a + s.preQ q
    if s.reached t then
      let s := s.setSeq q (fun Q => { Q with st := .run, stage := 0, entry := t, pos := t - 1 })
      (s.ctMove q none 0 t).sqEnter q 0 t
    else s
  | _, _ => s

/-- The DISABLED gaps that are open at E close there (R95). -/
def endGaps (s : State) (g : Fin 16) (e : Stamp) : State :=
  let stale (m : Mark) : Bool := upto e m.stamp && (match m.kind with | .gap 2 false _ _ _ _ _ => true | _ => false)
  let s := s.setGrp g (fun G => { G with marks := G.marks.filter (fun m => !stale m) })
  if s.packs g then
    forAll (s.dataBits g) s (fun j s =>
      let c := chOf g j
      if s.enAt c (e - 1) then s
      else
        let from_ := match logUpto s.ch[c].enLog (e - 1), s.grp[g].start with
          | some (t, _), some a => if before t a then a else t
          | _, a => a.getD e
        s.addMark g e (.gap 2 false false (2 ^ j) 0 from_ 0))
  else s

/-- The stop stamp of a group becomes E (R92, R139). -/
def setStop (s : State) (g : Fin 16) (e : Stamp) : State :=
  let s := s.wr64 (R.CH_GRP_STOP_LO g) (R.CH_GRP_STOP_HI g) e
  let s := (s.setGrp g (fun G => { G with stop := some e, pendStops := [] })).endGaps g e
  s.setTrg (fun T => { T with flow := insertBy (fun a b => upto a.1 b.1) (e, .close g) (T.flow.filter (fun x => x.2 != .close g)) })

/-- A group's stop falls due or is requested: E is set, the group drains (R92, R139). -/
def grpStop (s : State) (g : Fin 16) (e : Stamp) : State :=
  ((s.setStop g e).setGrp g (fun G => { G with st := .drain })).event (s.grpPart g) (R.CH_GRP_EVT_CNT g 1) 0x09 1 g (some e) []

/-- A pending stop falls due (R139): the earliest one that the counter has passed stops a running group, and a smaller stamp becomes the
E of one that a HALT has stopped (log entry 146). -/
def stopDue (s : State) (g : Fin 16) (e : Stamp) : State :=
  let e := (earliest (e :: (s.grp[g].pendStops.map (·.2)).filter s.passed)).getD e
  match s.grp[g].st, s.grp[g].stop with
  | .run, _ => s.grpStop g e
  | .drain, some h => if before e h && !s.grp[g].ended then s.setStop g e
    else s.setGrp g (fun G => { G with pendStops := G.pendStops.filter (fun p => !s.passed p.2) })
  | _, _ => s

/-- A sequencer that shows DONE has taken its decisions for every stamp below T + POST: its counters stop there. -/
def seqFinish (s : State) (q : Fin 8) : State :=
  let Q := s.trg.seq[q]
  let t := Q.trig + s.postQ q
  match Q.st with
  | .post =>
    if Q.ended && upto t (s.horizon q) && (s.nextRelevant q).isNone then
      (s.ctMove q (some Q.stage) 16 t).setSeq q (fun Q => { Q with st := .done })
    else s
  | _ => s

/-- A sequencer shows DONE from `t` on (R135, R138): the pending stops it set fall due. -/
def seqDone (s : State) (q : Fin 8) (t : Stamp) (stops : Bool) : State :=
  let s := s.setSeq q (fun Q => { Q with ended := true, armLog := (t, s.launchCount q t, false) :: Q.armLog })
  let s := s.sqLeave q t
  let s := forAll (List.finRange 16) s (fun g s =>
    match s.grp[g].pendStops.find? (fun e => e.1 = q.val) with
    | some (_, e) => if stops || s.passed e then s.stopDue g e
        else s.setGrp g (fun G => { G with pendStops := G.pendStops.filter (fun e => e.1 ≠ q.val) })
    | none => s)
  s.trgEvent q 2 (some t) []

/-- The counter passes T + POST (R138). -/
def trgDone (s : State) (q : Fin 8) : State :=
  let t := s.trg.seq[q].trig + s.postQ q
  match s.trg.seq[q].st with
  | .post => if s.passed t && !s.trg.seq[q].ended then s.seqDone q t true else s
  | _ => s

/-- TRG_HALT for one sequencer (R141). -/
def trgHalt (s : State) (q : Fin 8) : State :=
  match s.trg.seq[q].st with
  | .armed | .holdoff | .run =>
    let s := s.ctMove q (some s.trg.seq[q].stage) 16 s.now
    (s.setSeq q (fun Q => { Q with st := .idle, arm := none, armLog := (s.now, s.launchCount q s.now, false) :: Q.armLog })).sqLeave q s.now
  | .post =>
    if s.trg.seq[q].ended then s.trgRefused q 0
    else
      let s := s.ctMove q (some s.trg.seq[q].stage) 16 s.now
      (s.setSeq q (fun Q => { Q with st := .done })).seqDone q s.now false
  | _ => s.trgRefused q 0

/-! ## Matchers (R129) -/

/-- A matcher's three tests on a record (R129). -/
def mmMatch (s : State) (m : Fin 64) (queue type : Nat) (payload : BitVec 64) : Bool :=
  let qs := s.rd (R.TRG_MM_QSEL m)
  let ty := s.rd (R.TRG_MM_TYPE m)
  let pm := s.rd64 (R.TRG_MM_PMASK_LO m) (R.TRG_MM_PMASK_HI m)
  let pv := s.rd64 (R.TRG_MM_PVAL_LO m) (R.TRG_MM_PVAL_HI m)
  (queue &&& fld qs 29 16) == (fld qs 13 0 &&& fld qs 29 16) &&
  (type &&& fld ty 15 8) == (fld ty 7 0 &&& fld ty 15 8) &&
  (payload &&& pm) == (pv &&& pm)

/-- EN of a matcher at a stamp (R117). -/
def mmEnAt (s : State) (m : Fin 64) (t : Stamp) : Bool := ((logUpto s.trg.mmLog[m] t).map (·.2)).getD false

/-- The first record of a message of partition `p` reaches the matchers (R129, R130). -/
def matchMessage (s : State) (p : Fin 4) (queue type : Nat) (t : Stamp) (coast err : Bool) (payload : BitVec 64) : State :=
  forAll (List.finRange 64) s (fun m s =>
    if s.mmEnAt m t && s.pmap.mm[m] == p && s.mmMatch m queue type payload then
      let late := s.lateFor (0x80 + m.val) t
      let fresh := !s.trg.hits.any (fun x => x.src = 0x80 + m.val && x.stamp = t)
      let s := s.addHit ⟨0x80 + m.val, t, coast, err, late.map (·.val)⟩
      let s := if fresh then s.bump (R.TRG_MM_HIT_CNT m) else s
      forAll late s (fun q s => s.noteLate m.val t q)
    else s)

/-! ## TRIG_IO (R147 to R149) -/

/-- The newest entry of a log whose launch edge has come (R149). -/
def launched {α : Type} (s : State) (l : List (Stamp × Count × α)) : Option α :=
  (l.find? (fun e => upto e.2.1.stamp s.now)).map (·.2.2)

/-- The level that an output pin drives at the present count, before INV (R149). -/
def ioDrive (s : State) (k : Fin 16) : Bool :=
  let w := s.trg.route[k]
  let q := Fin.ofNat 8 (fld w 6 4)
  let width := 8 * max 1 (fld w 23 16)
  let pulse (trig : Bool) : Bool := s.trg.seq[q].evLog.any (fun e =>
    e.2.2 == trig && decide ((s.tb.count - e.2.1).toNat < width))
  match fld w 9 8 with
  | 0 => pulse true
  | 1 => pulse false
  | 2 => match s.launched s.trg.seq[q].sqLog with
    | none => true
    | some (.const b) => b
    | some (.follow p) => s.pcAt p (s.now - 244737#64)
  | _ => (s.launched s.trg.seq[q].armLog).getD false

/-- A TRIG_IO pin is routed as an output (R147). -/
def ioIsOut (s : State) (k : Fin 16) : Bool := fld s.trg.route[k] 1 0 == 2

/-- An output pin takes the level of its launch edge (R149). -/
def ioLaunch (s : State) (k : Fin 16) : State :=
  if s.ioIsOut k then
    s.setTrg (fun t => { t with out := if s.ioDrive k then t.out ||| (1#16 <<< k.val) else t.out &&& ~~~(1#16 <<< k.val) })
  else s

/-- TRG_IO_APPLY (R147): a current GEN puts the staged routing in force; a stale one is ignored and reported. -/
def ioApply (s : State) (m : Master) (off gen : Nat) : State :=
  if gen = s.f R.TRG_IO_GEN 15 0 then
    let s := s.wrF R.TRG_IO_GEN 15 0 (gen + 1)
    s.setTrg (fun t => { t with
      route := Vector.ofFn (fun k => s.rd (R.TRG_IO_CTL k.val)),
      out := t.out })
  else match m with
    | .hp p => s.event p R.TRG_IO_STALE_CNT 0x20 6 0 none [(4, off), (2, gen)]
    | .sc => (s.bump R.TRG_IO_STALE_CNT).scLog 4 off

/-- A TRIG_IO input is sampled with a new level (R148): a rising change after INV is a hit at C × 1,024 − IN_DLY; at the
boundary edge of a relock the stamp is not below the epoch stamp. No hit lies strictly inside the relock window (R63). -/
def ioInput (s : State) (k : Fin 16) (level : Bool) : State :=
  let old := s.trg.ball.getLsbD k
  let w := s.trg.route[k]
  let s := s.setTrg (fun t => { t with ball := if level then t.ball ||| (1#16 <<< k.val) else t.ball &&& ~~~(1#16 <<< k.val) })
  if fld w 1 0 = 1 ∧ old ≠ level ∧ (level != bit w 2) then
    let t := s.now - stamp (s.f R.TRG_IO_IN_DLY 15 0)
    let t := match s.tb.window with
      | some (v0, v1) =>
        if before v0 t && before t v1 then (if s.tb.lolSusp == some s.tb.count then some v1 else none) else some t
      | none => some t
    match t with
    | some t => s.addHit ⟨0xC0 + k.val, t, s.tb.coast, false, []⟩
    | none => s
  else s

end State
end Sys2Proof.Machine
end

