-- ==== Sys2Proof/Machine/Interval.lean ====
section
/-! DEFINITION. The interval units (file 06): starts, stops and gates, decisions, statistics, result records, snapshots,
enabling and disabling. -/

namespace Sys2Proof.Machine

open Bits

/-- The bank after the value `x` (R203, R204): fields that would pass their range hold their limit. -/
def IuBank.take (b : IuBank) (ofs : Int) (bw : Nat) (x : Int) : IuBank :=
  let k := (x - ofs).fdiv (2 ^ bw : Nat)
  let top : Int := 2 ^ 95 - 1
  let bot : Int := -(2 ^ 95)
  let b := { b with
    count := min (b.count + 1) (2 ^ 64 - 1),
    sum := if b.sum = top ∨ b.sum = bot then b.sum else clamp bot top (b.sum + x),
    sq := min (b.sq + (x * x).toNat) (2 ^ 128 - 1),
    low := min b.low x, high := max b.high x }
  if k < 0 then { b with under := min (b.under + 1) 0xFFFFFFFF }
  else if 1023 < k then { b with over_ := min (b.over_ + 1) 0xFFFFFFFF }
  else { b with bins := Tab.set (fun _ => 0) b.bins k.toNat (min (Tab.get (fun _ => 0) b.bins k.toNat + 1) 0xFFFFFFFF) }

/-- A field of the bank holds its limit (R203). -/
def IuBank.sat (b : IuBank) : Bool :=
  b.count == 2 ^ 64 - 1 || b.sum == 2 ^ 95 - 1 || b.sum == -(2 ^ 95) || b.sq == 2 ^ 128 - 1

/-! ## Settings (R189, R192, R193, R200, R204) -/

/-- MODE RECIP, the channels, and what selects their edges (R189). -/
def IuCfg.recip (c : IuCfg) : Bool := bit c.ctl 1
def IuCfg.chA (c : IuCfg) : Nat := fld c.ctl 22 16
def IuCfg.chB (c : IuCfg) : Nat := fld c.ctl 29 23
def IuCfg.ignColl (c : IuCfg) : Bool := bit c.ctl 8

/-- PAIR = ALL and REC. -/
def IuCfg.all_ (c : IuCfg) : Bool := bit c.ctl 4
def IuCfg.rec_ (c : IuCfg) : Bool := bit c.ctl 9

/-- The window bounds (R192), GATE_N, the bins and the queue. -/
def IuCfg.lo (c : IuCfg) : Int := signed 32 c.wlo.toNat
def IuCfg.hi (c : IuCfg) : Int := signed 32 c.whi.toNat
def IuCfg.gate (c : IuCfg) : Nat := c.gateN.toNat
def IuCfg.bw (c : IuCfg) : Nat := min 47 (fld c.hist 5 0)
def IuCfg.qn (c : IuCfg) : Nat := fld c.queue 13 0

/-- An edge event qualifies for a selector (R189): collapse entries are ignored with COLL = 1. -/
def IuCfg.sel (c : IuCfg) (sel : Nat) (e : EdgeRec) : Bool := State.selects sel e && !(e.coll.isSome && c.ignColl)

/-- An edge of a signal is a start, or a stop, under some settings (R189, R192). -/
def IuCfg.isStart (c : IuCfg) (sig : Nat) (e : EdgeRec) : Bool := sig == c.chA && c.sel (fld c.ctl 11 10) e
def IuCfg.isStop (c : IuCfg) (sig : Nat) (e : EdgeRec) : Bool := !c.recip && sig == c.chB && c.sel (fld c.ctl 13 12) e

namespace State

/-- Change one interval unit. -/
def setIu (s : State) (u : Fin 16) (h : IuSt → IuSt) : State := { s with iu := s.iu.set u (h s.iu[u]) }

/-- Event `k` of a unit (R211). -/
def iuEvent (s : State) (u : Fin 16) (k : Nat) (t : Option Stamp) (items : List (Nat × Nat)) : State :=
  s.event (s.pmap.iu[u]) (R.IU_EVT_CNT u k) 0x0B k u t items

/-- The settings in a unit's registers. -/
def iuRegs (s : State) (u : Fin 16) : IuCfg :=
  ⟨s.rd (R.IU_CTL u), s.rd (R.IU_WLO u), s.rd (R.IU_WHI u), s.rd (R.IU_GATE_N u), s.rd (R.IU_HIST u), s.rd (R.IU_QUEUE u),
    s.rd64 (R.IU_HIST_OFS_LO u) (R.IU_HIST_OFS_HI u)⟩

/-- The settings of a unit for a start or an edge at a stamp (R190). -/
def iuCfg (s : State) (u : Fin 16) (t : Stamp) : IuCfg := ((logUpto s.iu[u].cfgs t).map (·.2)).getD {}

/-- The newest settings of a unit. -/
def iuNew (s : State) (u : Fin 16) : IuCfg := (s.iu[u].cfgs.head?.map (·.2)).getD {}

/-- 100 ns in tu, and the point at which a start is decided (R196). -/
def iuDue (s : State) (u : Fin 16) (a : Stamp) : Bool := s.passed (shift (a + 204800#64) (max (s.iuCfg u a).hi 0))

/-- Store the frozen bank of a unit in its registers (R206). -/
def iuFreeze (s : State) (u : Fin 16) (b : IuBank) (ts : Stamp) : State :=
  let sum := (BitVec.ofInt 96 b.sum).toNat
  let s := s.wr64 (R.IU_ACC_COUNT_LO u) (R.IU_ACC_COUNT_HI u) (BitVec.ofNat 64 b.count)
  let s := forAll (List.range 3) s (fun w s => s.wr (R.IU_ACC_SUM u w) (word (sum / 2 ^ (32 * w))))
  let s := forAll (List.range 4) s (fun w s => s.wr (R.IU_ACC_SQ u w) (word (b.sq / 2 ^ (32 * w))))
  let s := s.wr64 (R.IU_ACC_MIN_LO u) (R.IU_ACC_MIN_HI u) (BitVec.ofInt 64 b.low)
  let s := s.wr64 (R.IU_ACC_MAX_LO u) (R.IU_ACC_MAX_HI u) (BitVec.ofInt 64 b.high)
  let s := s.wr64 (R.IU_SNAP_TS_LO u) (R.IU_SNAP_TS_HI u) ts
  let s := (s.wr (R.IU_UNDER_CNT u) (word b.under)).wr (R.IU_OVER_CNT u) (word b.over_)
  forAll (List.range 1024) s (fun k s => s.wr (R.IU_HIST_BIN u k) (word (Tab.get (fun _ => 0) b.bins k)))

/-- The enable stamp is reached (R190): statistics, counters and the frozen bank clear; starts not yet decided stay, with their
settings. -/
def iuStart (s : State) (u : Fin 16) (t : Stamp) (c : IuCfg) : State :=
  let s := s.iuFreeze u {} 0
  let s := forAll [R.IU_REJ_CNT u, R.IU_MISS_CNT u, R.IU_START_DROP_CNT u, R.IU_EXCL_CNT u, R.IU_COLL_CNT u, R.IU_REC_DROP_CNT u,
      R.IU_EVT_CNT u 0, R.IU_EVT_CNT u 1, R.IU_EVT_CNT u 2, R.IU_EVT_CNT u 3, R.IU_EVT_CNT u 4] s (fun a s => s.wr a 0#32)
  s.setIu u (fun I => { I with
    active := true, enS := t, disS := none, cfgs := (t, c) :: (if I.starts.isEmpty then [] else I.cfgs),
    stops := if I.starts.isEmpty then [] else I.stops, evicted := false, gate := none, live := {}, fault := false, failNext := false,
    dropSeen := false, recSeen := false })

/-- The corrected difference d of a start and a stop (R192). -/
def iuDiff (s : State) (a b : Stamp) : Int := diff a b + (if upto a b then s.jumps a b else -(s.jumps b a))

/-- The channel of an edge event. -/
def sigOf (s : State) (e : EdgeRec) : Nat := (s.signal (Fin.ofNat 128 e.tdc)).val

/-- A stop lies in the window of a start (R192), under that start's settings, and is not the start itself (R195). -/
def inWindow (s : State) (u : Fin 16) (a : EdgeRec) (b : EdgeRec) : Bool :=
  let c := s.iuCfg u a.stamp
  c.isStop (s.sigOf b) b && decide (c.lo ≤ s.iuDiff a.stamp b.stamp ∧ s.iuDiff a.stamp b.stamp ≤ c.hi) &&
    !(c.chA == c.chB && a.tdc == b.tdc && a.stamp == b.stamp)

/-- A relock boundary lies between two stamps (R199). -/
def crosses (s : State) (a b : Stamp) : Bool :=
  s.tb.jlog.any (fun e => (before a e.1 && upto e.1 b) || (before b e.1 && upto e.1 a))

/-- Judge the stops for which every start that could use them has arrived (R194); all of them with `all_`. -/
def iuJudge (s : State) (u : Fin 16) (all_ : Bool) : State :=
  let I := s.iu[u]
  let due (b : IuStop) : Bool := !b.judged && (all_ || s.passed (shift (b.e.stamp + 204800#64) (max (-(s.iuNew u).lo) 0)))
  let below (b : IuStop) : Bool := match I.disS with | none => true | some d => before b.e.stamp d
  let rej := (I.stops.filter (fun b => due b && below b && (s.iuNew u).isStop (s.sigOf b.e) b.e && !b.inWin && !I.starts.any (fun a => s.inWindow u a b.e))).length
  let s := s.setIu u (fun I => { I with stops := I.stops.map (fun b => if due b then { b with judged := true } else b) })
  if rej = 0 then s else s.bump (R.IU_REJ_CNT u) rej

/-- Judged stops beyond the 4,096 kept are forgotten (R198). -/
def iuPrune (s : State) (u : Fin 16) : State :=
  let I := s.iu[u]
  let low := match I.starts with | a :: _ => a.stamp | [] => s.now - 204800#64
  let old := (I.stops.filter (fun b => before b.e.stamp low)).length
  let cut := I.stops.take (old - 4096)
  if cut.isEmpty || !cut.all (·.judged) then s
  else s.setIu u (fun I => { I with stops := I.stops.drop (old - 4096), evicted := true })

/-- The unit has left its last result: ACTIVE falls (R190). -/
def iuClose (s : State) (u : Fin 16) : State :=
  let I := s.iu[u]
  match I.disS with
  | none => s
  | some d =>
    if I.active && I.starts.isEmpty && s.passed (d + 204800#64) then
      (s.iuJudge u true).setIu u (fun I => { I with active := false, stops := [], gate := none })
    else s

/-- Enable and disable stamps that the counter has reached, or that lie at or below `t`, act in order (R190). -/
def iuSyncTo (s : State) (u : Fin 16) (t : Stamp) : State :=
  let due := s.iu[u].pend.filter (fun e => s.reached e.1 || upto e.1 t)
  let s := s.setIu u (fun I => { I with pend := I.pend.filter (fun e => !(s.reached e.1 || upto e.1 t)) })
  let s := forAll due s (fun e s => match e.2 with
    | some c => s.iuStart u e.1 c
    | none => s.setIu u (fun I => { I with disS := some e.1 }))
  s.iuClose u

/-- Enable and disable stamps that the counter has reached act (R190). -/
def iuSync (s : State) (u : Fin 16) : State := s.iuSyncTo u s.now

/-- A stamp lies where the unit takes starts (R190). -/
def iuTakes (s : State) (u : Fin 16) (t : Stamp) : Bool :=
  let I := s.iu[u]
  I.active && upto I.enS t && (match I.disS with | none => true | some d => before t d)

/-! ## Snapshots (R206) -/

/-- Every start, or gate opening, below a snapshot stamp is decided: an open gate is none once no edge below the disable stamp can come. -/
def iuSnapReady (s : State) (u : Fin 16) (ts : Stamp) : Bool :=
  let I := s.iu[u]
  s.passed (ts + 204800#64) && (match I.starts with | a :: _ => upto ts a.stamp | [] => true) &&
  (match I.gate with
   | some g => upto ts g.o.stamp || (I.disS.map (fun d => s.passed (d + 204800#64))).getD false
   | none => true)

/-- The live bank becomes the frozen bank (R206); a faulted unit keeps both banks (R208). -/
def iuSnapDo (s : State) (u : Fin 16) (ts : Stamp) (clr : Bool) : State :=
  let cnt := s.iu[u].live.count
  let s := if s.iu[u].fault then s.wr64 (R.IU_SNAP_TS_LO u) (R.IU_SNAP_TS_HI u) ts
    else (s.iuFreeze u s.iu[u].live ts).setIu u (fun I => { I with live := if clr then {} else I.live })
  (s.setIu u (fun I => { I with snap := none })).iuEvent u 0 (some ts) [(8, cnt)]

/-- A pending snapshot completes before a result at or above its stamp enters. -/
def iuSnapBefore (s : State) (u : Fin 16) (t : Stamp) : State :=
  match s.iu[u].snap with
  | some (ts, clr) => if upto ts t then s.iuSnapDo u ts clr else s
  | none => s

/-- IU_SNAPSHOT_DONE. -/
def iuSnapDone (s : State) (u : Fin 16) : State :=
  let s := s.iuSync u
  match s.iu[u].snap with
  | some (ts, clr) => if s.iuSnapReady u ts then s.iuSnapDo u ts clr else s
  | none => s

/-- A write of a one to a unit's bit of IU_SNAP or IU_SNAP_CLR (R206). -/
def iuSnap (s : State) (u : Fin 16) (clr : Bool) : State :=
  match s.iu[u].snap with
  | none => s.setIu u (fun I => { I with snap := some (s.stamp32, clr) })
  | some _ => s.iuEvent u 4 none [(1, 4), (8, s.now.toNat)]

/-! ## Results (R193, R199 to R202, R210) -/

/-- The FLAGS of a result (R210). -/
structure IuFlags where
  nostop : Bool := false
  coast  : Bool := false
  epoch  : Bool := false
  err    : Bool := false
  coll   : Bool := false
  trunc  : Bool := false
  gap    : Bool := false

def IuFlags.bits (f : IuFlags) : Nat :=
  b2n f.nostop + 2 * b2n f.coast + 4 * b2n f.epoch + 8 * b2n f.err + 16 * b2n f.coll + 32 * b2n f.trunc + 64 * b2n f.gap

/-- An update of the statistics fails twice (R207, R208). -/
def iuFault (s : State) (u : Fin 16) : State :=
  if s.iu[u].active && !s.iu[u].fault then
    ((s.setIu u (fun I => { I with fault := true, failNext := false })).faultNote 0x21 u).iuEvent u 3 none []
  else s

/-- The statistics take a result (R202, R208): a failed update leaves them as they were, and later results carry ERR. -/
def iuTake (s : State) (u : Fin 16) (c : IuCfg) (x : Int) (f : IuFlags) : State :=
  if f.nostop || f.trunc || f.gap || f.coll || f.err then s.bump (R.IU_EXCL_CNT u)
  else if s.iu[u].failNext then s.iuFault u
  else s.setIu u (fun I => { I with live := I.live.take c.ofs.toInt c.bw x })

/-- A result leaves the unit: the statistics (R202), the matchers (R210), the queue (R210). -/
def iuResult (s : State) (u : Fin 16) (t : Stamp) (x : Int) (f : IuFlags) (body : List Byte) : State :=
  let s := s.iuSnapBefore u t
  let c := s.iuCfg u t
  let f := { f with err := f.err || s.iu[u].fault }
  let s := s.iuTake u c x f
  let src := 0x8000 + u.val + 256 * b2n f.coast + 512 * b2n f.err
  let type := if c.recip then 0xF1 else 0xF0
  let q := c.qn
  let p := s.pmap.iu[u]
  let m : QIn := ⟨t, type, padTo 16 body, src⟩
  let s := s.setQm (fun Q => { Q with mm := Q.mm ++ [⟨p, q, type, t, f.coast, f.err, BitVec.ofNat 64 (leAt body 0 8)⟩] })
  if c.rec_ then
    let (ans, s) := s.qAccept p q m
    match ans with
    | .accepted => s
    | _ =>
      let s := s.bump (R.IU_REC_DROP_CNT u)
      if s.iu[u].recSeen then s else (s.setIu u (fun I => { I with recSeen := true })).iuEvent u 2 (some t) []
  else s

/-- The body of a TI record (R210). -/
def tiBody (d : Int) (index flags : Nat) : List Byte :=
  leBytes 4 (iword d).toNat ++ leBytes 2 (index % 65536) ++ leBytes 2 flags

/-- The stops that a start may use (R198): all at or above it, and the newest 4,096 below it; and whether older ones were
lost that its window reaches. -/
def iuKept (s : State) (u : Fin 16) (a : Stamp) : List EdgeRec × Bool :=
  let I := s.iu[u]
  let c := s.iuCfg u a
  let mine := (I.stops.map (·.e)).filter (fun b => c.isStop (s.sigOf b) b)
  let below := mine.filter (fun b => before b.stamp a)
  let above := mine.filter (fun b => !before b.stamp a)
  let kept := below.drop (below.length - 4096)
  let lost := decide (4096 < below.length) || (I.evicted && decide (4096 ≤ below.length))
  let reach := match kept with | b :: _ => before (shift a c.lo) b.stamp | [] => false
  (kept ++ above, lost && reach)

/-- The results of one start (R193). -/
def iuTi (s : State) (u : Fin 16) (a : EdgeRec) : State :=
  let (stops, trunc) := s.iuKept u a.stamp
  let inside := stops.filter (fun b => s.inWindow u a b)
  let sorted := inside.foldl (fun l b => insertBy (fun x y => s.iuDiff a.stamp x.stamp ≤ s.iuDiff a.stamp y.stamp) b l) []
  let c := s.iuCfg u a.stamp
  let B := Fin.ofNat 128 c.chB
  let lo := shift a.stamp c.lo
  let hi := shift a.stamp c.hi
  let s := s.setIu u (fun I => { I with stops := I.stops.map (fun b => if s.inWindow u a b.e then { b with inWin := true } else b) })
  let flags (b : EdgeRec) (gapTo : Stamp) : IuFlags :=
    { coast := a.coast || b.coast, epoch := s.crosses a.stamp b.stamp, err := a.err || b.err,
      coll := a.coll.isSome || b.coll.isSome, trunc := trunc, gap := s.blind B lo gapTo }
  let one (s : State) (i : Nat) (b : EdgeRec) (gapTo : Stamp) : State :=
    let f := flags b gapTo
    let d := s.iuDiff a.stamp b.stamp
    s.iuResult u a.stamp d f (tiBody d i (if s.iu[u].fault then { f with err := true }.bits else f.bits))
  match sorted with
  | [] =>
    let f : IuFlags := { nostop := true, coast := a.coast, err := a.err || s.iu[u].fault, coll := a.coll.isSome, trunc := trunc, gap := s.blind B lo hi }
    (s.bump (R.IU_MISS_CNT u)).iuResult u a.stamp 0 f (tiBody 0 0 f.bits)
  | b :: _ =>
    if c.all_ then forAll sorted.zipIdx s (fun e s => one s e.2 e.1 hi)
    else one s 0 b b.stamp

/-- IU_DECIDE (R196): the oldest start, once its window is known. `fail` says that the first update of the statistics that follows
fails twice: one of this start's, or in RECIP that of the next gate. -/
def iuDecide (s : State) (u : Fin 16) (fail : Bool) : State :=
  let s := s.iuSync u
  let s := match s.iu[u].starts with
    | a :: _ =>
      if s.iuDue u a.stamp then
        ((s.setIu u (fun I => { I with failNext := fail && !I.fault })).iuTi u a).setIu u (fun I => { I with
          starts := I.starts.drop 1, failNext := false })
      else s
    | [] => if fail && (s.iuNew u).recip && s.iu[u].active then s.setIu u (fun I => { I with failNext := !I.fault }) else s
  ((s.iuJudge u false).iuPrune u).iuClose u

/-! ## Edges (R188, R189, R197, R200, R201) -/

/-- An A edge closes, extends or opens a gate of RECIP; one that does not qualify only closes a gate that a blind stretch has
interrupted or that would be too long (R200, R201). The spec gives no G for a gate time that does not fit 48 bits: it is free. -/
def iuGateEdge (s : State) (u : Fin 16) (e : EdgeRec) (selected : Bool) : State :=
  let A := Fin.ofNat 128 (s.iuNew u).chA
  let fresh : Option IuGate := if selected && s.iuTakes u e.stamp then some ⟨e, 0, e.stamp, e.coll.isSome⟩ else none
  match s.iu[u].gate with
  | none => s.setIu u (fun I => { I with gate := fresh })
  | some g =>
    let n := g.n + b2n selected
    let G := diff g.o.stamp e.stamp + s.jumps g.o.stamp e.stamp
    let gap := s.blind A (g.prev + 1) (e.stamp - 1)
    let over_ := decide ((2 : Int) ^ 48 - 1 < G)
    let coll := g.coll || e.coll.isSome
    if (selected && decide ((s.iuNew u).gate ≤ n)) || gap || over_ then
      let s := s.setIu u (fun I => { I with gate := fresh })
      if (s.iu[u].disS.map (fun d => upto d e.stamp)).getD false then s
      else
        let w := s.takeWord
        let v := w.2.takeWord
        let x : Int := if over_ then ((w.1.toNat + 4294967296 * v.1.toNat) % 2 ^ 48 : Nat) else G
        let s := if over_ then v.2 else s
        let f : IuFlags := { coast := g.o.coast || e.coast, epoch := s.crosses g.o.stamp e.stamp, err := g.o.err || e.err || s.iu[u].fault,
                             coll := coll, trunc := over_, gap := gap }
        s.iuResult u g.o.stamp x f (leBytes 6 x.toNat ++ leBytes 2 f.bits ++ leBytes 4 n ++ leBytes 4 0)
    else if selected then s.setIu u (fun I => { I with gate := some { g with n := n, prev := e.stamp, coll := coll } })
    else s.setIu u (fun I => { I with gate := some { g with coll := coll } })

/-- A start or a stop reaches a unit. -/
def iuEdgeAt (s : State) (u : Fin 16) (sig : Nat) (e : EdgeRec) : State :=
  let s := s.iuSyncTo u e.stamp
  if !s.iu[u].active then s
  else if before e.stamp s.iu[u].enS then
    if (s.iu[u].cfgs.drop 1).any (fun x => x.2.isStop sig e) then
      s.setIu u (fun I => { I with stops := insertBy (fun x y => upto x.e.stamp y.e.stamp) ⟨e, false, true⟩ I.stops })
    else s
  else
    let c := s.iuNew u
    let s := if e.coll.isSome && (sig == c.chA || (sig == c.chB && !c.recip)) then s.bump (R.IU_COLL_CNT u) else s
    let s := if s.iu[u].cfgs.any (fun x => x.2.isStop sig e) then
        s.setIu u (fun I => { I with stops := insertBy (fun x y => upto x.e.stamp y.e.stamp) ⟨e, false, false⟩ I.stops })
      else s
    if c.recip then (if sig == c.chA && !(e.coll.isSome && c.ignColl) then s.iuGateEdge u e (c.isStart sig e) else s)
    else if c.isStart sig e then
      if !s.iuTakes u e.stamp then s
      else if 4096 ≤ s.iu[u].starts.length then
        let s := s.bump (R.IU_START_DROP_CNT u)
        if s.iu[u].dropSeen then s else (s.setIu u (fun I => { I with dropSeen := true })).iuEvent u 1 (some e.stamp) []
      else s.setIu u (fun I => { I with starts := insertBy (fun x y => upto x.stamp y.stamp) e I.starts })
    else s

/-- An edge event of a group in INTERVAL reaches the units that name its channel (R188). -/
def iuEdge (s : State) (sig : Nat) (e : EdgeRec) : State :=
  forAll (List.finRange 16) s (fun u s => s.iuEdgeAt u sig e)

/-! ## Enable and disable (R190) -/

/-- The cause of a refused enable, if any. -/
def iuCause (s : State) (u : Fin 16) : Option Nat :=
  let p := s.pmap.iu[u]
  let c := s.iuRegs u
  if !c.recip ∧ c.hi < c.lo then some 0
  else if c.recip ∧ c.gate = 0 then some 1
  else if s.partOf .chan c.chA ≠ p ∨ (!c.recip ∧ s.partOf .chan c.chB ≠ p) then some 2
  else if c.rec_ ∧ (s.qType c.qn ≠ 1 ∨ s.qPart c.qn ≠ p) then some 3
  else none

/-- A write of EN = 1 to a unit with EN = 0 (R190). -/
def iuEnable (s : State) (u : Fin 16) : State :=
  match s.iuCause u with
  | some c => (s.wrF (R.IU_CTL u) 0 0 0).iuEvent u 4 none [(1, c), (8, s.now.toNat)]
  | none => (s.wrF (R.IU_CTL u) 0 0 1).setIu u (fun I => { I with pend := I.pend ++ [(s.stamp32, some (s.iuRegs u))] })

/-- A write of EN = 0 to a unit with EN = 1 (R190). -/
def iuDisable (s : State) (u : Fin 16) : State :=
  (s.wrF (R.IU_CTL u) 0 0 0).setIu u (fun I => { I with pend := I.pend ++ [(s.stamp32, none)] })

/-- ACTIVE of IU_STATUS: from the enable stamp until the last result after the disable stamp has left (R190). -/
def iuActive (s : State) (u : Fin 16) : Bool := (s.iuSync u).iu[u].active

end State
end Sys2Proof.Machine
end

