-- ==== Sys2Proof/Machine/Xtract.lean ====
section
/-! DEFINITION. The symbol extractors (R214 to R228): bit timing, the six line codings, symbols, gaps. Positions are in
1/64 tu from a reference stamp of the extractor. -/

namespace Sys2Proof.Machine

open Bits

namespace State

/-- Change one extractor. -/
def setXt (s : State) (x : Fin 128) (h : XtSt → XtSt) : State := { s with xt := s.xt.set x (h s.xt[x]) }

/-- KIND of an extractor, with 7 used as OFF (R215). -/
def xtKind (s : State) (x : Fin 128) : Nat :=
  let k := s.f (R.ME_X_CTL x) 2 0
  if k = 7 then 0 else k

/-- The nominal bit period in 1/64 tu (ME_X_PER): values below 400 tu are used as 400 tu. -/
def xtPer (s : State) (x : Fin 128) : Int :=
  let psh := s.f (R.ME_X_CTL x) 7 4
  (max (s.f (R.ME_X_PER x) 31 0 * 2 ^ psh) 25600 : Nat)

def xtSpt (s : State) (x : Fin 128) : Int := (s.f (R.ME_X_CTL x) 15 8 : Nat)
def xtIdleN (s : State) (x : Fin 128) : Nat := s.f (R.ME_X_CTL x) 31 24
def xtMsbf (s : State) (x : Fin 128) : Bool := s.fb (R.ME_X_FMT x) 5

/-- LANES of CLOCKED, and the length of a full DATA symbol (R218, R224, R225). -/
def xtLanes (s : State) (x : Fin 128) : Nat := s.f (R.ME_X_FMT x) 23 22 + 1
def xtWlen (s : State) (x : Fin 128) : Nat :=
  let w := s.f (R.ME_X_FMT x) 4 0 + 1
  match s.xtKind x with
  | 4 => max (s.xtLanes x) (w / s.xtLanes x * s.xtLanes x)
  | 5 => 9
  | 6 => min 16 w
  | _ => w

/-- CLK_EDGE with 0b00 used as 0b11 (R220). -/
def xtEdges (s : State) (x : Fin 128) : Nat :=
  let e := s.f (R.ME_X_CLK x) 25 24
  if e = 0 then 3 else e

/-- Clock, select and lane channels (R225). -/
def xtClkCh (s : State) (x : Fin 128) : Fin 128 := Fin.ofNat 128 (s.f (R.ME_X_CLK x) 22 16)
def xtSelCh (s : State) (x : Fin 128) : Fin 128 := Fin.ofNat 128 (s.f (R.ME_X_FMT x) 30 24)
def xtSelEn (s : State) (x : Fin 128) : Bool := s.xtKind x == 4 && s.fb (R.ME_X_CLK x) 26
def xtSelActive (s : State) (x : Fin 128) (t : Stamp) : Bool := s.lvlUpto (s.xtSelCh x) t == s.fb (R.ME_X_CLK x) 27
def xtOfs (s : State) (x : Fin 128) : Int := s.fs (R.ME_X_CLK x) 15 0

/-- The extractor works from a clock channel. -/
def xtClocked (s : State) (x : Fin 128) : Bool := s.xtKind x == 4 || s.xtKind x == 5

/-- The position of a stamp, and the stamp of a position. -/
def posOf (s : State) (x : Fin 128) (t : Stamp) : Int := diff s.xt[x].ref t * 64
def stampOf (s : State) (x : Fin 128) (p : Int) : Stamp := shift s.xt[x].ref (p.fdiv 64)

/-- A position rounded to 1 tu (R226). -/
def roundOf (s : State) (x : Fin 128) (p : Int) : Stamp := s.stampOf x (p + 32)

/-- The level of the extractor's channel at a position (R98). -/
def xtLevel (s : State) (x : Fin 128) (p : Int) : Bool := s.lvlUpto x (s.stampOf x p)

/-! ## Emitting symbols -/

/-- INFO of a symbol (R216), with ROLE own. -/
def symInfo (x type nbits kflags : Nat) (err coast epoch coll trunc : Bool) : Word :=
  word (x + 256 * nbits + 65536 * type + 16777216 * kflags + 134217728 * b2n trunc + 268435456 * b2n coll
    + 536870912 * b2n epoch + 1073741824 * b2n coast + 2147483648 * b2n err)

/-- A WRAP or RELOCK boundary lies between two symbols (R216). -/
def epochBetween (s : State) (a b : Stamp) : Bool := s.crosses a b || (before a b && decide (b.toNat < a.toNat))

/-- An extractor emits a symbol (R226): after a relock gap no stamp lies below the epoch stamp. -/
def emitSym (s : State) (x : Fin 128) (t : Stamp) (type nbits kflags : Nat) (data : Word) (err coll trunc : Bool) : State :=
  let X := s.xt[x]
  let t := match X.floor with | some v => if before t v then v else t | none => t
  let ep := match X.prev with | some p => s.epochBetween p t | none => false
  let y : Sym := ⟨t, data, symInfo x type nbits kflags err (s.coastAt t) ep coll trunc, s.xtKind x == 6⟩
  s.setXt x (fun X => { X with out := X.out ++ [y], prev := some t })

/-- DATA of bits in line order (R218). -/
def dataOf (msbf : Bool) (bits : List Bool) : Nat :=
  let l := if msbf then bits else bits.reverse
  l.foldl (fun n b => 2 * n + b2n b) 0

/-- An IDLE that waited for an open symbol leaves. -/
def flushIdle (s : State) (x : Fin 128) : State :=
  match s.xt[x].idlePend with
  | some t => if s.xt[x].sym.isNone then (s.setXt x (fun X => { X with idlePend := none })).emitSym x t 4 0 0 0#32 false false false else s
  | none => s

/-- The open DATA symbol leaves (R218, R222 to R225). -/
def closeSym (s : State) (x : Fin 128) (trunc : Bool) : State :=
  match s.xt[x].sym with
  | none => s
  | some y =>
    let s := s.setXt x (fun X => { X with sym := none })
    let n := y.bits.length
    let msbf := s.xtMsbf x || s.xtKind x == 5
    let s := match s.xtKind x with
      | 3 =>
        if n = 10 then
          let g := dataOf true y.bits
          let r := Code8b10b.decode g s.xt[x].rd
          (s.setXt x (fun X => { X with rd := r.rd })).emitSym x y.stamp 0 8 (b2n r.k + 2 * b2n r.code + 4 * b2n r.disp) (word r.byte)
            y.err y.coll false
        else if trunc then s.emitSym x y.stamp 0 0 0 0#32 y.err y.coll true else s
      | 6 => s.emitSym x y.stamp 0 n y.kflags (word (dataOf msbf y.bits + 65536 * dataOf msbf y.stuff)) y.err y.coll trunc
      | _ => s.emitSym x y.stamp 0 n y.kflags (word (dataOf msbf y.bits)) y.err y.coll trunc
    s.flushIdle x

/-- One more bit of the open symbol, which opens with a stamp when there is none, and closes when it is full. -/
def addBit (s : State) (x : Fin 128) (t : Stamp) (b stuff : Bool) (kflags : Nat) (full : Nat) : State :=
  let X := s.xt[x]
  let y := X.sym.getD { stamp := t }
  let y := { y with
    bits := y.bits ++ [b], stuff := y.stuff ++ [stuff], kflags := y.kflags ||| kflags, err := y.err || X.mErr, coll := y.coll || X.mColl }
  let s := s.setXt x (fun X => { X with sym := some y, mErr := false, mColl := false })
  if full ≤ y.bits.length then s.closeSym x false else s

/-! ## Tracked kinds (R220 to R224) -/

/-- A bit of MANCHESTER: the second half-bit decides (R222). -/
def manchesterBit (s : State) (x : Fin 128) (t : Stamp) (level : Bool) : State :=
  match s.xt[x].half with
  | none => s.setXt x (fun X => { X with half := some level, sym := some (X.sym.getD { stamp := t }) })
  | some h =>
    let s := s.setXt x (fun X => { X with half := none })
    let one := (!h && level) != s.fb (R.ME_X_FMT x) 15
    if h = level then s.addBit x t false false 1 (s.xtWlen x) else s.addBit x t one false 0 (s.xtWlen x)

/-- The comma sequences of R223, oldest bit first. -/
def isComma (l : List Bool) : Bool :=
  l == [false, false, true, true, true, true, true] || l == [true, true, false, false, false, false, false]

/-- A bit of LINE_8B10B (R223). `comma0` is the stamp of the boundary six bits before this one. -/
def lineBit (s : State) (x : Fin 128) (t comma0 : Stamp) (level : Bool) : State :=
  let X := s.xt[x]
  let win := (X.window ++ [(level, X.mErr, X.mColl)]).drop (X.window.length + 1 - 7)
  let w := win.map (·.1)
  let n := X.nbits + 1
  let s := s.setXt x (fun X => { X with window := win, nbits := n })
  let here := (n + 3) % 10
  let start (s : State) : State :=
    let err := win.any (·.2.1)
    let coll := win.any (·.2.2)
    let s := s.setXt x (fun X => { X with align := some here, comma := none, sym := none, rd := none, mErr := false, mColl := false })
    let s := s.emitSym x comma0 1 0 0 0#32 err coll false
    s.setXt x (fun X => { X with sym := some { stamp := comma0, bits := w, err := err, coll := coll } })
  match X.align with
  | none => if isComma w then start s else s.setXt x (fun X => { X with mErr := false, mColl := false })
  | some a =>
    if isComma w && here != a then
      if X.comma = some here then start s
      else (s.setXt x (fun X => { X with comma := some here })).addBit x t level false 0 10
    else
      let s := if isComma w then s.setXt x (fun X => { X with comma := none }) else s
      s.addBit x t level false 0 10

/-- A bit of BIT_STUFFED (R224). -/
def stuffedBit (s : State) (x : Fin 128) (t : Stamp) (level : Bool) : State :=
  let X := s.xt[x]
  let fmt := s.rd (R.ME_X_FMT x)
  let raw := if bit fmt 21 then level == X.lastRaw else level
  let scnt := fld fmt 19 16
  let ones := bit fmt 20
  let stuff := decide (scnt ≠ 0) && X.runLen == scnt
  let bad := stuff && raw == X.runBit
  let counts := !ones || raw
  let len := if !counts then 0 else if stuff then 1 else if raw = X.runBit ∧ 0 < X.runLen then X.runLen + 1 else 1
  let s := s.setXt x (fun X => { X with lastRaw := level, runBit := raw, runLen := len })
  s.addBit x t raw stuff (b2n bad) (s.xtWlen x)

/-- The next bit of a tracked extractor: its boundary and its sample point (R220). -/
def bitAt (s : State) (x : Fin 128) : Int × Int :=
  let X := s.xt[x]
  let b := X.b + X.k * X.p
  (b, b + (s.xtSpt x * X.p).fdiv 256)

/-- Produce the bits whose sample points lie at or below a position; at most `fuel` of them. -/
def trackBits (s : State) (x : Fin 128) (lim : Int) : Nat → State
  | 0 => s
  | n + 1 =>
    let X := s.xt[x]
    if !X.locked || (s.xtKind x == 6 && !X.frame) then s
    else
      let (b, i) := s.bitAt x
      if lim < i then s
      else
        let lv := s.xtLevel x i
        let t := s.roundOf x b
        let s := s.setXt x (fun X => { X with k := X.k + 1 })
        let s := match s.xtKind x with
          | 2 => s.manchesterBit x t lv
          | 3 => s.lineBit x t (s.roundOf x (b - 6 * X.p)) lv
          | _ => s.stuffedBit x t lv
        trackBits s x lim n

/-- How many bits may lie up to a position. -/
def trackFuel (s : State) (x : Fin 128) (lim : Int) : Nat :=
  let X := s.xt[x]
  ((lim - (X.b + X.k * X.p)).toNat / (max 1 X.p.toNat)) + 2

def trackTo (s : State) (x : Fin 128) (lim : Int) : State := s.trackBits x lim (s.trackFuel x lim)

/-- The loop finds lock (R221). -/
def xtLock (s : State) (x : Fin 128) : State :=
  s.setXt x (fun X => { X with
    locked := true, miss := 0, k := if s.xtKind x = 2 then 1 else 0, half := none, window := [], nbits := 0, align := none, comma := none,
    rd := none, sym := none, mErr := false, mColl := false })

/-- The edge `ev` is a used edge of the tracking loop with phase error `e`, `n` boundaries after `b` (R220, R221). -/
def loopEdge (s : State) (x : Fin 128) (ev : EdgeRec) (n e : Int) : State :=
  let X := s.xt[x]
  let per := if s.xtKind x = 2 then s.xtPer x / 2 else s.xtPer x
  let kp := s.f (R.ME_X_CTL x) 19 16
  let kf := s.f (R.ME_X_CTL x) 23 20
  let b := X.b + n * X.p + e.fdiv (2 ^ kp : Nat)
  let p := clamp (per - per / 64) (per + per / 64) (X.p + e.fdiv (2 ^ kf : Nat))
  let good := if 8 * e.natAbs ≤ X.p.toNat then X.good + 1 else 0
  let miss := if X.p.toNat < 4 * e.natAbs then X.miss + 1 else 0
  let s := s.setXt x (fun X => { X with b := b, p := p, k := X.k - n, good := good, miss := miss })
  if !X.locked then (if 32 ≤ good then s.xtLock x else s)
  else if 8 ≤ miss then
    let s := s.closeSym x true
    let s := s.emitSym x ev.stamp 6 0 0 0#32 ev.err ev.coll.isSome false
    s.setXt x (fun X => { X with locked := false, good := 0, miss := 0, mErr := false, mColl := false })
  else s

/-- The loop starts from an edge. -/
def loopStart (s : State) (x : Fin 128) (t : Stamp) : State :=
  s.setXt x (fun X => { X with
    synced := true, b := s.posOf x t, p := if s.xtKind x = 2 then s.xtPer x / 2 else s.xtPer x, k := 0, good := 1, miss := 0 })

/-- An edge of the selected directions reaches the loop. MANCHESTER uses only the edges near the expected middle of a
bit, which an unlocked loop takes from the last edge it used (log entry 31). -/
def trackEdge (s : State) (x : Fin 128) (ev : EdgeRec) : State :=
  let X := s.xt[x]
  let t := ev.stamp
  if !X.synced then s.loopStart x t
  else
    let d := s.posOf x t - X.b
    if s.xtKind x = 2 then
      let m := (d + X.p).fdiv (2 * X.p)
      let e := d - 2 * m * X.p
      if 4 * e.natAbs ≤ X.p.toNat then
        if !X.locked && decide (1 < m) then s.loopStart x t else s.loopEdge x ev (2 * m) e
      else s
    else
      let n := (d + X.p / 2).fdiv X.p
      s.loopEdge x ev n (d - n * X.p)

/-! ## NRZ_ASYNC (R219) -/

def nrzBits (s : State) (x : Fin 128) : Nat := min 9 (max 5 (s.f (R.ME_X_FMT x) 11 8))
def nrzPar (s : State) (x : Fin 128) : Nat := let p := s.f (R.ME_X_FMT x) 13 12; if p = 3 then 0 else p
def nrzStops (s : State) (x : Fin 128) : Nat := if s.fb (R.ME_X_FMT x) 14 then 2 else 1

/-- The sample point of bit `k` of the character that starts at `p0`. -/
def nrzPoint (s : State) (x : Fin 128) (p0 : Int) (k : Nat) : Int := p0 + k * s.xtPer x + (s.xtSpt x * s.xtPer x).fdiv 256

/-- A character whose samples are known leaves; a start bit sampled at 1 discards it. -/
def nrzAdvance (s : State) (x : Fin 128) (lim : Int) : State :=
  match s.xt[x].sym with
  | none => s
  | some y =>
    let p0 := s.posOf x y.stamp
    if s.nrzPoint x p0 0 ≤ lim ∧ s.xtLevel x (s.nrzPoint x p0 0) then
      (s.setXt x (fun X => { X with sym := none, frame := false })).flushIdle x
    else
      let d := s.nrzBits x
      let par := s.nrzPar x
      let np := if par = 0 then 0 else 1
      let last := d + np + s.nrzStops x
      let lp := s.nrzPoint x p0 last
      if lim < lp then s
      else
        let lv (k : Nat) : Bool := s.xtLevel x (s.nrzPoint x p0 k)
        let bits := (List.range d).map (fun k => lv (k + 1))
        let pb := np = 1 && lv (d + 1)
        let stops := (List.range (s.nrzStops x)).map (fun k => lv (d + np + 1 + k))
        let s := s.setXt x (fun X => { X with sym := none, frame := false, lastStop := some lp })
        let s := if !bits.any id && !pb && !(stops.headD true) then s.emitSym x y.stamp 5 0 0 0#32 y.err y.coll false
          else
            let odd := (bits.filter id).length % 2 == 1
            let perr := np = 1 && (pb != (if par = 1 then odd else !odd))
            let ferr := stops.any (fun b => !b)
            s.emitSym x y.stamp 0 d (b2n perr + 2 * b2n ferr) (word (dataOf (s.xtMsbf x) bits)) y.err y.coll false
        s.flushIdle x

/-- A falling edge begins a character (R219). -/
def nrzEdge (s : State) (x : Fin 128) (e : EdgeRec) : State :=
  let X := s.xt[x]
  let p := s.posOf x e.stamp
  let after := (X.lastStop.map (fun l => decide (l < p))).getD true
  if !e.rise && X.sym.isNone && after then
    s.setXt x (fun X => { X with sym := some { stamp := e.stamp, err := e.err, coll := e.coll.isSome }, frame := true })
  else s.setXt x (fun X => { X with sym := X.sym.map (fun y => { y with err := y.err || e.err, coll := y.coll || e.coll.isSome }) })

/-! ## Advancing -/

/-- The stamp of the next IDLE, if one can come (R217, R226). -/
def idleAt (s : State) (x : Fin 128) : Option Stamp :=
  let X := s.xt[x]
  let k := s.xtKind x
  let n := s.xtIdleN x
  if (k = 1 ∨ k = 2 ∨ k = 6) ∧ n ≠ 0 ∧ !X.idled then X.lastEdge.map (fun t => shift t ((n * s.xtPer x + 32).fdiv 64)) else none

/-- IDLE_N bit periods have passed without an edge at stamp `t`. -/
def idleNow (s : State) (x : Fin 128) (t : Stamp) : State :=
  let s := s.setXt x (fun X => { X with idled := true })
  if s.xtKind x = 6 then
    let s := s.closeSym x true
    (s.setXt x (fun X => { X with frame := false })).emitSym x t 4 0 0 0#32 false false false
  else (s.setXt x (fun X => { X with idlePend := some t })).flushIdle x

/-- Produce what is known up to stamp `t`, every edge at or below it having come. -/
def xtKnown (s : State) (x : Fin 128) (t : Stamp) : State :=
  let lim := s.posOf x t + 63
  match s.xtKind x with
  | 1 => s.nrzAdvance x lim
  | 2 => s.trackTo x lim
  | 3 => s.trackTo x lim
  | 6 => s.trackTo x lim
  | _ => s

/-- Advance an extractor to stamp `t` (R219 to R226). -/
def xtAdvance (s : State) (x : Fin 128) (t : Stamp) : State :=
  if !s.xt[x].active then s
  else match s.idleAt x with
    | some i => if upto i t then ((s.xtKnown x i).idleNow x i).xtKnown x t else s.xtKnown x t
    | none => s.xtKnown x t

/-! ## Edges -/

/-- TWO_WIRE: a condition on the data line while the clock is 1 (R225). -/
def twoWireCond (s : State) (x : Fin 128) (e : EdgeRec) : State :=
  let X := s.xt[x]
  let s := s.setXt x (fun X => { X with
    highBit := false, mErr := false, mColl := false,
    sym := X.sym.bind (fun y =>
      let bs := if X.highBit then y.bits.dropLast else y.bits
      if bs.isEmpty then none else some { y with bits := bs, stuff := y.stuff.take bs.length }) })
  let s := s.closeSym x true
  let level := e.coll.getD e.rise
  if level then (s.setXt x (fun X => { X with started := false, frame := false })).emitSym x e.stamp 2 0 0 0#32 e.err e.coll.isSome false
  else (s.setXt x (fun X => { X with started := true, frame := true })).emitSym x e.stamp (if X.started then 3 else 1) 0 0 0#32 e.err
    e.coll.isSome false

/-- An edge of the extractor's own channel. -/
def xtEdge (s : State) (x : Fin 128) (e : EdgeRec) : State :=
  if !s.xt[x].active then s
  else
    let s := s.xtAdvance x (e.stamp - 1)
    let idled := s.xt[x].idled
    let fresh := s.xt[x].lastEdge.isNone
    let s := s.setXt x (fun X => { X with
      lastEdge := some e.stamp, idled := false, mErr := X.mErr || e.err, mColl := X.mColl || e.coll.isSome,
      ref := if fresh then e.stamp else X.ref })
    let used := if e.rise then (s.xtEdges x).testBit 0 else (s.xtEdges x).testBit 1
    match s.xtKind x with
    | 1 => s.nrzEdge x e
    | 2 => if used then s.trackEdge x e else s
    | 3 => if used then s.trackEdge x e else s
    | 5 => if s.lvlUpto (s.xtClkCh x) e.stamp then s.twoWireCond x e else s
    | 6 =>
      if idled && !s.xt[x].frame then
        let prev := s.lvlBelow x e.stamp
        s.setXt x (fun X => { X with
          synced := true, locked := true, b := s.posOf x e.stamp, p := s.xtPer x, k := 0, good := 0, miss := 0, frame := true,
          lastRaw := prev, runLen := 0, runBit := false, sym := none, mErr := e.err, mColl := e.coll.isSome })
      else if used then s.trackEdge x e else s
    | _ => s

/-- An edge of another data lane of CLOCKED: the bits it shapes carry its flags (R216, R225). -/
def laneEdge (s : State) (x : Fin 128) (e : EdgeRec) : State :=
  if !s.xt[x].active then s
  else s.setXt x (fun X => { X with mErr := X.mErr || e.err, mColl := X.mColl || e.coll.isSome })

/-- A channel is one of the lanes of a CLOCKED extractor beside its own (R225). -/
def xtLane (s : State) (x c : Fin 128) : Bool :=
  s.xtKind x == 4 && decide (x.val < c.val) && decide (c.val < x.val + s.xtLanes x)

/-- The select of CLOCKED as an extractor finds it when it begins to take edges at `t`: one that is active there makes no START, and its
release is a release (R225). -/
def xtSelInit (s : State) (x : Fin 128) (t : Stamp) : State :=
  if s.xtSelEn x then
    let on := s.lvlBelow (s.xtSelCh x) t == s.fb (R.ME_X_CLK x) 27
    s.setXt x (fun X => { X with selOn := on, frame := on })
  else s

/-- An edge of the clock channel of TWO_WIRE (R225). -/
def twoWireClock (s : State) (x : Fin 128) (e : EdgeRec) : State :=
  let level := e.coll.getD e.rise
  if !level then s.setXt x (fun X => { X with highBit := false })
  else if s.lvlBelow x e.stamp != s.lvlUpto x e.stamp then s
  else
    let s := s.setXt x (fun X => { X with highBit := true, mErr := X.mErr || e.err, mColl := X.mColl || e.coll.isSome })
    let s := s.addBit x e.stamp (s.lvlUpto x e.stamp) false 0 9
    s.setXt x (fun X => { X with highBit := X.sym.isSome })

/-- A clock edge of CLOCKED contributes one bit per lane (R225). -/
def clockedSample (s : State) (x : Fin 128) (c : Stamp) (e : EdgeRec) : State :=
  if !s.xt[x].active || (s.xtSelEn x && !s.xtSelActive x c) then s
  else
    let s := s.setXt x (fun X => { X with mErr := X.mErr || e.err, mColl := X.mColl || e.coll.isSome })
    let at_ := shift c (s.xtOfs x)
    forAll (List.range (s.xtLanes x)) s (fun j s =>
      s.addBit x c (s.lvlUpto (Fin.ofNat 128 (x.val + j)) at_) false 0 (s.xtWlen x))

/-- The select of CLOCKED changes (R225): assertion yields START, release closes DATA with TRUNC and yields STOP. -/
def clockedSelect (s : State) (x : Fin 128) (e : EdgeRec) : State :=
  let on := s.xtSelActive x e.stamp
  if !s.xt[x].active || on = s.xt[x].selOn then s
  else
    let s := if on then s else s.closeSym x true
    (s.setXt x (fun X => { X with selOn := on, frame := on })).emitSym x e.stamp (if on then 1 else 2) 0 0 0#32 e.err e.coll.isSome false

/-! ## Gaps and activation (R214, R226, R228) -/

/-- The channel, or a clock or select channel, stops delivering at `t` (R226). -/
def xtGap (s : State) (x : Fin 128) (t : Stamp) (cause : Nat) : State :=
  if !s.xt[x].active then s
  else
    let s := s.xtAdvance x (t - 1)
    let s := if s.xtKind x = 1 then
        s.setXt x (fun X => { X with
          frame := false, idlePend := none,
          sym := X.sym.bind (fun y =>
            let p0 := s.posOf x y.stamp
            let known := (List.range (s.nrzBits x)).filter (fun k => decide (s.nrzPoint x p0 (k + 1) < s.posOf x t))
            some { y with bits := known.map (fun k => s.xtLevel x (s.nrzPoint x p0 (k + 1))), stuff := [] }) })
      else s
    let s := s.closeSym x true
    let s := s.emitSym x t 0x12 0 0 (word cause) false false false
    (s.setXt x (fun X => { ({} : XtSt) with
      run := X.run, active := X.active, bindErr := X.bindErr, out := X.out, prev := X.prev, floor := X.floor })).xtSelInit x t

/-- The engine an extractor names, and the gang size it names (R228). -/
def xtTarget (s : State) (x : Fin 128) : Fin 256 := Fin.ofNat 256 (s.f (R.ME_X_TGT x) 7 0)
def xtGangLog (s : State) (x : Fin 128) : Nat := s.f (R.ME_X_TGT x) 10 8

/-- The address of a register of engine `e`: its function takes the cluster row and the number within it. -/
def engReg (r : Nat → Nat → Nat) (e : Fin 256) : Nat := r (e.val / 64) (e.val % 64)

/-- The gang size that the image declares for an engine (R228, R249). -/
def gangLog (s : State) (e : Fin 256) : Nat := s.f (engReg R.ME_STATUS e) 19 17
def gangSize (s : State) (e : Fin 256) : Nat := 2 ^ s.gangLog e
def gangFirst (s : State) (e : Fin 256) : Fin 256 := Fin.ofNat 256 (e.val / s.gangSize e * s.gangSize e)

/-- An extractor names an engine: its KIND is not OFF and it is no odd channel of a split group. -/
def xtNames (s : State) (x : Fin 128) (e : Fin 256) : Bool :=
  s.xtKind x != 0 && s.xtTarget x == e && !(s.splitG (grpOf x) && x.val % 2 == 1)

/-- A clock, select or lane channel satisfies R225 when the group of the extractor runs. -/
def xtChanOk (s : State) (x c : Fin 128) : Bool :=
  let g := (grpOf x).val
  let h := (grpOf c).val
  (g == h || ((g + 1 == h || h + 1 == g) && s.grpPart (grpOf x) == s.grpPart (grpOf c) && s.modeG (grpOf c) == 4))
    && s.fb (R.CH_CTL c) 0

/-- The channel rules of R225 hold. -/
def xtClockOk (s : State) (x : Fin 128) : Bool :=
  (!s.xtClocked x || s.xtChanOk x (s.xtClkCh x)) && (!s.xtSelEn x || s.xtChanOk x (s.xtSelCh x)) &&
  (s.xtKind x != 4 || decide (x.val % 8 + s.xtLanes x ≤ 8))

/-- The binding of an extractor is valid (R228). -/
def xtBound (s : State) (x : Fin 128) : Bool :=
  let e := s.xtTarget x
  let n := s.gangSize e
  let users := ((List.finRange 128).filter (fun y => s.xtNames y e)).length
  s.pmap.me[e] == s.grpPart (grpOf x) && decide (s.xtGangLog x ≤ 4) && s.xtGangLog x == s.gangLog e && e.val % n == 0 &&
  (if n = 1 then decide (users ≤ 8) else decide (users ≤ 1)) &&
  (n = 1 || decide (max 1 (s.f (R.ME_X_TGT x) 23 12) + 2 * s.f (R.ME_X_TGT x) 31 24 ≤ 4096))

/-- BIND_ERR (R225, R228): the binding is invalid now, or its channel rules failed when the group entered RUN. -/
def xtBindErr (s : State) (x : Fin 128) : Bool :=
  s.xt[x].bindErr || (s.xtKind x != 0 && !(s.splitG (grpOf x) && x.val % 2 == 1) && !s.xtBound x)

/-- A write of ME_X_CTL or ME_X_TGT may make bindings invalid, or valid again: an extractor is active only while BIND_ERR is 0
(R214, R228). -/
def xtRebind (s : State) : State :=
  forAll ((List.finRange 128).filter (fun x => s.xt[x].run)) s (fun x s =>
    let on := s.enAt x s.now && !s.xtBindErr x
    if s.xt[x].active == on then s else s.setXt x (fun X => { X with active := on }))

/-- The stamp of the next symbol of a locked tracking extractor, which is open from there on (R226, R233): the next boundary, and while
LINE_8B10B looks for its alignment six bits before it, where a START would stand (log entry 148). -/
def xtNextStamp (s : State) (x : Fin 128) : Option Stamp :=
  let X := s.xt[x]
  if !X.active || !X.locked then none
  else match s.xtKind x with
    | 2 => some (s.roundOf x (s.bitAt x).1)
    | 3 => some (s.roundOf x ((s.bitAt x).1 - (if X.align.isNone then 6 * X.p else 0)))
    | 6 => if X.frame then some (s.roundOf x (s.bitAt x).1) else none
    | _ => none

/-- The stream horizon of an extractor (R233): the stamp of its open symbol, if it has one, and otherwise the present edge
less 150 ns. A symbol that it has not yet delivered holds it back. -/
def xtHorizon (s : State) (x : Fin 128) : Stamp :=
  let X := s.xt[x]
  let lag := s.now - 307200#64
  let open_ := match X.sym, s.xtNextStamp x with
    | some y, _ => y.stamp
    | none, some t => if before t lag then t else lag
    | none, none => lag
  match X.out with
  | [] => open_
  | y :: _ => if before y.stamp open_ then y.stamp else open_

end State
end Sys2Proof.Machine
end

