-- ==== Sys2Proof/Machine/Sram.lean ====
section
/-! DEFINITION. The on-chip memories (file 10): their words and errors, Diapause, march tests, repair, the Cocoon. Banks,
scratchpads and local stores lie in one table of words, each array at its own place. -/

namespace Sys2Proof.Machine

open Bits

namespace State

/-- The place of a byte offset of an array (0 shared bank, 1 scratchpad, 3 SG local store) in the table of words. -/
def sramAt (mem index off : Nat) : Nat :=
  match mem with
  | 0 => index * 2097152 + off
  | 1 => 67108864 + index * 131072 + off
  | _ => 134217728 + index * 262144 + off

/-- The bytes of one target of a march test: an array, or the eight staging buffers of a group in channel order (R323, R343). -/
def arrSize (mem : Nat) : Nat := match mem with | 0 => 2097152 | 1 => 131072 | 2 => 2097152 | _ => 262144

/-- The number of an array in the table of array states (R323): banks, scratchpads, staging buffers, which are named by their group and
an offset in its buffers, local stores, the 16 arrays of the Cocoon, and the smaller arrays, one for each unit they serve (log entry
153): sequence tables, TDC tables, IU statistics and the queue descriptors. -/
def arrNo (mem index off : Nat) : Nat :=
  match mem with
  | 0 => index % 32
  | 1 => 32 + index % 256
  | 2 => 288 + 8 * (index % 16) + off / 262144 % 8
  | 3 => 416 + index % 8
  | 4 => 424 + index % 16
  | 5 => 440 + index % 8
  | 6 => 448 + index % 128
  | 7 => 576 + index % 16
  | _ => 592

def arrSt (s : State) (mem index : Nat) (off : Nat := 0) : ArrSt := Tab.get (fun _ => {}) s.arr (arrNo mem index off)
def setArr (s : State) (mem index : Nat) (h : ArrSt → ArrSt) (off : Nat := 0) : State :=
  { s with arr := Tab.set (fun _ => {}) s.arr (arrNo mem index off) (h (s.arrSt mem index off)) }

/-- The partition of an array (R323). The Cocoon and the queue descriptors serve the whole device: the owner's (log entry 153). -/
def arrPart (s : State) (mem index : Nat) : Fin 4 :=
  match mem with
  | 0 => s.pmap.bank[Fin.ofNat 32 index]
  | 1 => s.pmap.me[Fin.ofNat 256 index]
  | 2 => s.pmap.grp[Fin.ofNat 16 index]
  | 3 | 5 => s.pmap.sg[Fin.ofNat 8 index]
  | 6 => s.pmap.grp[grpOf (Fin.ofNat 128 index)]
  | 7 => s.pmap.iu[Fin.ofNat 16 index]
  | _ => s.owner

/-- An array with this number exists. -/
def arrExists (mem index : Nat) : Bool :=
  decide (index < (match mem with | 0 => 32 | 1 => 256 | 2 => 16 | 3 => 8 | 4 => 16 | 5 => 8 | 6 => 128 | 7 => 16 | 8 => 1 | _ => 0))

/-- A 32-bit word of a memory, by byte place. -/
def sramRd (s : State) (a : Nat) : Word := Tab.get (fun _ => 0#32) s.sram (a / 4)
def sramWr (s : State) (a : Nat) (w : Word) : State := { s with sram := Tab.set (fun _ => 0#32) s.sram (a / 4) w }

/-- The 64-bit word that holds a byte place is uncorrectable (R327). -/
def sramBadAt (s : State) (a : Nat) : Bool := s.sramBad.contains (a / 8)
def sramSpoil (s : State) (a : Nat) : State :=
  { s with sramBad := if s.sramBad.contains (a / 8) then s.sramBad else insertBy (fun x y => x ≤ y) (a / 8) s.sramBad }

/-- Zero a range of bytes and make its check bits good (R340, R345). -/
def sramZero (s : State) (a n : Nat) : State :=
  { s with
    sram := s.sram.filter (fun e => !decide (a ≤ 4 * e.1 ∧ 4 * e.1 < a + n)),
    sramBad := s.sramBad.filter (fun u => !decide (a ≤ 8 * u ∧ 8 * u < a + n)) }

/-- Event `k` of the SB block for a partition (R355). -/
def sbEvent (s : State) (p : Fin 4) (k index : Nat) (items : List (Nat × Nat)) : State :=
  s.event p (R.SB_EVT_CNT p k) 0xE0 k index none items

/-- A corrected error of an array (R326): counted, and the array's first of each second reported. -/
def sbCe (s : State) (mem index off : Nat) : State :=
  let s := match mem with
    | 0 => s.bump (R.SB_CE_CNT index)
    | 1 => s.bump (engReg R.ME_ECC_CNT (Fin.ofNat 256 index))
    | 2 => s.bump (R.SB_STG_CE_CNT index)
    | _ => s
  if ((s.arrSt mem index off).ceAt.map (fun c => s.since c 2000000000)).getD true then
    (s.setArr mem index (fun A => { A with ceAt := some s.tb.count }) off).sbEvent (s.arrPart mem index) 0 index [(1, mem), (4, off / 8 * 8)]
  else s

/-- An uncorrectable word of an array (R327). `master` is the model's name of the master (Config.masterCode). -/
def sbUe (s : State) (mem index off master : Nat) : State :=
  let s := match mem with
    | 0 => s.bump (R.SB_UE_CNT index)
    | 2 => s.bump (R.SB_STG_UE_CNT index)
    | _ => s
  s.sbEvent (s.arrPart mem index) 1 index [(1, mem), (4, off / 8 * 8), (1, (Config.masterCode master).toNat)]

/-- A 64-bit word is found uncorrectable (R327): what it holds from then on is open. -/
def sramDamage (s : State) (a : Nat) : State :=
  if s.sramBadAt a then s
  else
    let (lo, s) := s.takeWord
    let (hi, s) := s.takeWord
    ((s.sramWr (a / 8 * 8) lo).sramWr (a / 8 * 8 + 4) hi).sramSpoil a

/-- What an access finds: 0 good, 1 a corrected error, 2 an uncorrectable word; a word that is uncorrectable stays so
(R326, R328). The result says whether it is uncorrectable. -/
def sramCheck (s : State) (mem index off ecc master : Nat) : Bool × State :=
  let a := sramAt mem index off
  if ecc = 2 ∨ s.sramBadAt a then (true, (s.sramDamage a).sbUe mem index off master)
  else if ecc = 1 then (false, s.sbCe mem index off)
  else (false, s)

/-! ## Diapause (R335 to R338) -/

/-- An array is in Diapause, or wakes from it. -/
def sleeping (s : State) (mem index : Nat) : Bool := (s.arrSt mem index).dia

/-- A wake begins, unless one has begun. -/
def wakeArr (s : State) (mem index : Nat) : State :=
  s.setArr mem index (fun A => if A.dia then { A with wakeAt := some (A.wakeAt.getD s.tb.count) } else A)

/-- A march test runs on an array. -/
def mtOn (s : State) (mem index : Nat) : Bool :=
  (List.finRange 4).any (fun p => s.mt[p].busy && s.mt[p].mem == mem && s.mt[p].index == index)

/-- A bank holds what R335 keeps awake: resident pages of a queue that is ON or draining, the event store, an image working store in
use, or a handler-resident region. -/
def bankHeld (s : State) (b : Nat) : Bool :=
  let p := s.pmap.bank[Fin.ofNat 32 b]
  (s.bankUse b == 1 && ((s.poolBanks p).head? == some b ||
    s.obsQueues.any (fun q => s.qType q == 1 && s.qBusy q && s.qPart q == p && (s.qSt q).place.any (fun e => e.1 == b)))) ||
  (s.bankUse b == 3 && (match s.sc.load with | some l => l.full || l.part == p | none => false)) || s.resident.any (fun r => r.1 == 0 && r.2.1 == b)

/-- SB_DIA_REFUSED (R335, R336), in the partition of the request. -/
def diaRefused (s : State) (p : Fin 4) (index : Nat) : State := s.sbEvent p 6 index []

/-- A one in SB_DIA_ENTER for a bank of the writer's partition (R335). -/
def diaEnter (s : State) (b : Nat) : State :=
  if s.bankHeld b || s.mtOn 0 b then s.diaRefused (s.arrPart 0 b) b
  else s.setArr 0 b (fun A => { A with dia := true, wakeAt := none })

/-- A one in SB_DIA_SP_ENTER for an engine of the writer's partition (R336). A march test that runs there wakes it again (R337). -/
def diaSpEnter (s : State) (e : Fin 256) : State :=
  if s.eng[e].st = 2 ∨ s.eng[e].st = 3 then s.diaRefused (s.arrPart 1 e) e
  else
    let t := s.setArr 1 e (fun A => { A with dia := true, wakeAt := none })
    if s.mtOn 1 e then t.wakeArr 1 e else t

/-! ## Repair (R349 to R351) -/

/-- Spare rows and columns of an array (R349). -/
def spareRows (mem : Nat) : Nat := if mem = 0 then 32 else if mem ≤ 4 then 4 else 2
def spareCols (mem : Nat) : Nat := if mem = 0 then 16 else if mem ≤ 4 then 2 else 1

/-- An array is out of service (R351). An engine whose scratchpad it is goes OFF. -/
def arrOffline (s : State) (mem index off : Nat) : State :=
  let s := (s.setArr mem index (fun A => { A with offline := true }) off).faultNote 0x40 (arrNo mem index off)
  let s := if mem = 1 then s.setEng (Fin.ofNat 256 index) (fun _ => {}) else s
  s.sbEvent (s.arrPart mem index) 7 index [(1, mem)]

/-- A failing row of an array is mapped onto a spare (R350): the row onto a spare row, or the failing column onto a spare column, which of
the two and the number of the column being open (log entry 154). When no spare is left the array is out of service (R351). -/
def repairAt (s : State) (mem index row : Nat) : State :=
  let off := 64 * row
  let A := s.arrSt mem index off
  let rows := (A.spares.filter (fun e => !e.2.1)).length
  let cols := (A.spares.filter (fun e => e.2.1)).length
  let (pick, s) := s.takeBit
  let (w, s) := s.takeWord
  let take (n : Nat) (col : Bool) (target : Nat) : State :=
    (s.setArr mem index (fun A => { A with spares := A.spares ++ [(n, col, target)] }) off).sbEvent (s.arrPart mem index) 5 index
      [(1, mem), (4, target)]
  if A.offline then s
  else if cols < spareCols mem ∧ (pick = true ∨ spareRows mem ≤ rows) then take cols true (w.toNat % 2 ^ 30)
  else if rows < spareRows mem then take rows false (if mem = 2 then row % 4096 else row)
  else s.arrOffline mem index off

/-- What SB_REP_DATA shows for SB_REP_SEL; arrays of another partition read zero. -/
def repData (s : State) (p : Fin 4) : Word :=
  let mem := s.f R.SB_REP_SEL 21 20
  let index := s.f R.SB_REP_SEL 19 12
  let spare := s.f R.SB_REP_SEL 5 0
  if arrExists mem index && s.arrPart mem index == p then
    match (s.arrSt mem index).spares.find? (fun e => (if e.2.1 then spareRows mem + e.1 else e.1) == spare) with
    | some e => word (2147483648 + 1073741824 * b2n e.2.1 + e.2.2)
    | none => 0#32
  else 0#32

/-! ## March tests (R341 to R348) -/

/-- The march engine skips a slice: it holds a handler-resident region or code (R342). `resident` entries are memory,
index, slice. -/
def mtSkips (s : State) (mem index n : Nat) : Bool :=
  s.resident.any (fun r => r.1 == mem && r.2.1 == index && r.2.2 == n) ||
  (mem == 1 && decide (4096 * n < s.f (engReg R.ME_CODE (Fin.ofNat 256 index)) 16 0))

def setMt (s : State) (p : Fin 4) (h : MtSt → MtSt) : State := { s with mt := s.mt.set p (h s.mt[p]) }

/-- The test of a partition ends (R347): 1 PASS, 2 FAIL, 3 ABORTED. -/
def mtEnd (s : State) (p : Fin 4) (result : Nat) : State :=
  let M := s.mt[p]
  let s := s.wr (R.SB_MT_STATUS p) (word (result * 536870912 + M.defers % 1024))
  let s := s.wr (R.SB_MT_RESULT p) (word (M.tested % 1024 * 1048576 + M.failed % 1024 * 1024 + M.skipped % 1024))
  let s := s.wr (R.SB_MT_FAIL_ADDR p) (word (M.failAt.getD 0 / 8 * 8))
  let s := if M.mem = 2 then s.setGrp (Fin.ofNat 16 M.index) (fun G => { G with calAt := none }) else s
  (s.setMt p (fun _ => {})).sbEvent p 3 p [(1, result), (2, M.tested), (2, M.failed), (2, M.skipped)]

/-- Skip the slices that must not be tested; when none is left the test ends. -/
def mtNext (s : State) (p : Fin 4) : Nat → State
  | 0 => s
  | n + 1 =>
    let M := s.mt[p]
    match M.slices with
    | [] => s.mtEnd p (if M.failed = 0 then 1 else 2)
    | (k, _) :: r =>
      if s.mtSkips M.mem M.index k then mtNext (s.setMt p (fun M => { M with slices := r, skipped := M.skipped + 1 })) p n
      else s.wrF (R.SB_MT_STATUS p) 24 16 k

/-- The cause of a refused request (R341), in the order of its table. -/
def mtCause (s : State) (p : Fin 4) : Option Nat :=
  let c := s.rd (R.SB_MT_CTL p)
  let mem := fld c 9 8
  let index := fld c 7 0
  let first := s.f (R.SB_MT_RANGE p) 8 0
  let last := s.f (R.SB_MT_RANGE p) 24 16
  if s.mt[p].busy then some 0
  else if !arrExists mem index || s.arrPart mem index != p then some 1
  else if mem ≠ 2 ∧ (last < first ∨ arrSize mem / 4096 ≤ last) then some 2
  else if mem = 2 ∧ !s.groupIdle (Fin.ofNat 16 index) then some 3
  else none

/-- GO of SB_MT_CTL (R341, R343). -/
def mtGo (s : State) (p : Fin 4) : State :=
  match s.mtCause p with
  | some c => s.sbEvent p 4 p [(1, c)]
  | none =>
    let c := s.rd (R.SB_MT_CTL p)
    let mem := fld c 9 8
    let index := fld c 7 0
    let first := if mem = 2 then 0 else s.f (R.SB_MT_RANGE p) 8 0
    let last := if mem = 2 then 511 else s.f (R.SB_MT_RANGE p) 24 16
    let s := s.setMt p (fun _ => { ({} : MtSt) with
      busy := true, mem := mem, index := index, destr := bit c 17, repair := bit c 16,
      slices := (List.range (last + 1 - first)).map (fun k => (first + k, 0)) })
    let s := s.wr (R.SB_MT_STATUS p) 0#32
    let s := if mem = 2 then s.setGrp (Fin.ofNat 16 index) (fun G => { G with calAt := some s.tb.count }) else s.wakeArr mem index
    s.mtNext p 1024

/-- Bytes of which some, in places the spec does not lay out, have become zero. -/
def zeroSome (s : State) (l : List Byte) : List Byte × State :=
  (l.mapIdx (fun i b => if Config.freeBit (s.free + i) then 0#8 else b), { s with free := s.free + l.length })

/-- What else a destructively tested slice held is lost (R345): records of the event store, which has the first 64 pages of a
partition's first pool bank, or of the resident pages placed in the bank; symbols of a slice half; fetched data of a generator, which lies behind
the 192 KiB of programs. Where in these areas a record lies is open (log entry 152). -/
def sliceLost (s : State) (mem index k : Nat) : State :=
  match mem with
  | 0 =>
    let p := s.pmap.bank[Fin.ofNat 32 index]
    if s.bankUse index ≠ 1 then s
    else if (s.poolBanks p).head? = some index ∧ k < 16 then
      let n := s.free
      ({ s with free := n + s.evt[p].recs.length }).setEvt p (fun e => { e with
        recs := e.recs.mapIdx (fun i (r : List Byte) => if Config.freeBit (n + i) then r.map (fun _ => 0#8) else r) })
    else
      forAll (s.obsQueues.filter (fun q => s.qBusy q && (s.qSt q).place.any (fun e => e.1 == index))) s (fun q s =>
        forAll ((s.qPages q).filter (fun g => !(s.qSt q).spilled.any (fun e => e.1 == g))) s (fun g s =>
          let (lost, s) := s.takeBit
          if lost then s.setQ q (fun Q => { Q with msgs := mapPage g (fun _ b => b.map (fun _ => 0#8)) Q.msgs }) else s))
  | 1 =>
    let e := Fin.ofNat 256 index
    if 16 ≤ k ∧ 1 < s.gangSize e then
      let n := s.free
      ({ s with free := n + s.eng[e].fifo.length }).setEng e (fun E => { E with
        fifo := E.fifo.mapIdx (fun i y => if Config.freeBit (n + i) then { stamp := 0, data := 0, info := 0 } else y) })
    else s
  | 3 =>
    if k < 48 then s
    else
      let g := Fin.ofNat 8 index
      let (b, s) := s.zeroSome s.sg[g].str.buf
      let s := forAll (List.range s.sg[g].fifo.length) s (fun i s =>
        let (x, s) := s.zeroSome (((s.sg[g].fifo[i]?).map (fun f => f.bytes)).getD [])
        s.setSg g (fun G => { G with fifo := G.fifo.modify i (fun f => { f with bytes := x }) }))
      s.setSg g (fun G => { G with str := { G.str with buf := b } })
  | _ => s

/-- The front slice of a partition's test leaves the list: tested, with its failing words, repaired on request (R345, R350). -/
def mtSliceDone (s : State) (p : Fin 4) (fails : List Nat) : State :=
  let M := s.mt[p]
  match M.slices with
  | [] => s
  | (k, _) :: r =>
    if M.busy && !s.sleeping M.mem M.index then
      let base := 4096 * k
      let s := if M.destr && M.mem != 2 then (s.sramZero (sramAt M.mem M.index base) 4096).sliceLost M.mem M.index k else s
      let bad := fails.filter (· < 4096)
      let s := s.setMt p (fun M => { M with
        slices := r, tested := M.tested + 1, failed := M.failed + (if bad.isEmpty then 0 else 1),
        failAt := match M.failAt with | some a => some a | none => bad.head?.map (fun o => base + o) })
      let s := if M.repair then forAll (bad.map (fun o => (base + o) / 64)).eraseDups s (fun row s => s.repairAt M.mem M.index row) else s
      s.mtNext p 1024
    else s

/-- A processor reaches the slice under a preserving test (R344): the slice is restored and deferred, or skipped after 16. -/
def mtTouch (s : State) (mem index off : Nat) : State :=
  forAll (List.finRange 4) s (fun p s =>
    let M := s.mt[p]
    match M.slices with
    | (k, n) :: r =>
      if M.busy && !M.destr && M.mem == mem && M.index == index && k == off / 4096 then
        let s := (s.setMt p (fun M => if 16 ≤ n + 1 then { M with slices := r, skipped := M.skipped + 1, defers := M.defers + 1 }
          else { M with slices := r ++ [(k, n + 1)], defers := M.defers + 1 }))
        (s.wrF (R.SB_MT_STATUS p) 9 0 (min 1023 s.mt[p].defers)).mtNext p 1024
      else s
    | [] => s)

/-- An access to an array stalls: its slice is under test, and the accessor is no processor or the test is destructive
(R344, R345). -/
def mtStalls (s : State) (mem index off : Nat) (processor : Bool) : Bool :=
  (List.finRange 4).any (fun p =>
    let M := s.mt[p]
    M.busy && M.mem == mem && M.index == index && (M.destr || !processor) &&
      (match M.slices with | (k, _) :: _ => k == off / 4096 | [] => false))

/-- ABORT, or a PERST# of the partition (R348). While the target sleeps no slice is in progress. -/
def mtAbort (s : State) (p : Fin 4) : State :=
  let M := s.mt[p]
  if M.busy then
    let s := match M.destr && M.mem != 2 && !s.sleeping M.mem M.index, M.slices with
      | true, (k, _) :: _ => (s.sramZero (sramAt M.mem M.index (4096 * k)) 4096).sliceLost M.mem M.index k
      | _, _ => s
    s.mtEnd p 3
  else s

/-! ## The Cocoon (R353, R354) -/

/-- A cause wipes the Cocoon (R353): the signing unit is cut off at once, and KEY_READY falls with R181 and R277. The
causes are 1 tamper, 2 life cycle, 3 ECC. -/
def cocoonWipe (s : State) (cause : Nat) : State :=
  let s := s.qSealSync
  let had := s.sealKey.isSome
  let s := { s with sealKey := none, sealQ := [], cocoon := { s.cocoon with wiping := true, cause := cause } }
  let s := if had then s.qSealLost else s
  forAll (List.finRange 16) s (fun g s =>
    if s.grp[g].sealed && had && (match s.grp[g].st with | .run => true | .drain => true | _ => false) then
      (s.setGrp g (fun G => { G with
        sealed := false, sealJob := false, sealWait := false, out := G.out.filter (fun b => !b.isSeal) })).event (s.grpPart g) (R.CH_CAP_EVT_CNT g 2) 0x0A 2 g (some s.now) []
    else s)

end State
end Sys2Proof.Machine
end

