-- ==== Sys2Proof/Machine/Groups.lean ====
section
/-! DEFINITION. The channel groups (file 03 of the spec): starting, running, stopping and draining, enabling channels, and
the receivers' first levels (R14, R539). -/

namespace Sys2Proof.Machine.State

open Bits

/-! ## Receivers (R11 to R15) -/

/-- The trip point of a receiver in microvolts, without hysteresis, times 4,095: DIFF_OFS (R11), or the DAC (R12). -/
def tripX (s : State) (c : Fin 128) : Int :=
  if s.fb (R.CH_CTL c) 1 then -300000 * 4095 + (s.f (R.CH_THR c) 11 0 : Nat) * 1800000
  else s.fs (R.CH_CTL c) 15 8 * 1000 * 4095

/-- What a receiver compares with its trip point, in microvolts: IN_P − IN_N, or IN_P alone. -/
def pinX (s : State) (c : Fin 128) (vp vn : Int) : Int := if s.fb (R.CH_CTL c) 1 then vp else vp - vn

/-- HYS in microvolts above and below the trip point (R14). -/
def hysX (s : State) (c : Fin 128) : Int := (s.f (R.CH_CTL c) 7 4 * 2000 : Nat)

/-- The output of a powered receiver for pin voltages, from its present output (R14). -/
def recvNext (s : State) (c : Fin 128) (vp vn : Int) : Bool :=
  let x := s.pinX c vp vn * 4095
  let h := s.hysX c * 4095
  if s.ch[c].out then decide (s.tripX c - h ≤ x) else decide (s.tripX c + h ≤ x)

/-- The threshold or DIFF_OFS error of R523 around the trip point, times 4,095,000. -/
def tripErrX (s : State) (c : Fin 128) : Int :=
  if s.fb (R.CH_CTL c) 1 then 3 * (s.tripX c).natAbs + 4000 * 4095 * 1000 else 3000 * 4095 * 1000

/-- An input lies within the error of R523 from the trip point, where a receiver may settle at either level (R14). -/
def nearTrip (s : State) (c : Fin 128) : Bool :=
  decide (((s.pinX c s.ch[c].vp s.ch[c].vn * 4095 - s.tripX c) * 1000).natAbs ≤ s.tripErrX c)

/-- A stamp below that of every edge that a TDC of the channel samples from the present TBCLK edge on (R23, R25). -/
def sinceStamp (s : State) (c : Fin 128) : Stamp :=
  let z (t : Fin 128) : Int := min (s.fs (R.CH_ZERO t) 15 0) (s.fs (R.CH_SPLIT_ZERO (t.val / 2)) 15 0)
  shift s.now (s.fs (R.CH_DESKEW c) 16 0 + z c / 64 - 1026)

/-- A receiver powers up and settles: its first level compares the input with the trip point itself, and within the error of
R523 it may be either (R14); the channel is tracked from there (R539). -/
def settleRecv (s : State) (c : Fin 128) : State :=
  let x := if s.nearTrip c then s.takeBit else (decide (s.tripX c < s.pinX c s.ch[c].vp s.ch[c].vn * 4095), s)
  let s := x.2.setCh c (fun C => { C with out := x.1, lastTrip := none })
  s.setCh c (fun C => { C with lvlLog := [(s.sinceStamp c, s.recvLevel c)] })

/-! ## Starting (R89 to R91) -/

/-- The clock channel of a STATE group. -/
def clkCh (s : State) (g : Fin 16) : Fin 128 := Fin.ofNat 128 (s.f (R.CH_GRP_STATE g) 22 16)

/-- The clock channel meets R101. -/
def clockOk (s : State) (g : Fin 16) : Bool :=
  let c := s.clkCh g
  let h := grpOf c
  (decide (h.val = g.val) || decide (h.val + 1 = g.val) || decide (g.val + 1 = h.val)) && s.grpPart h == s.grpPart g &&
    s.fb (R.CH_CTL c) 0 && (!s.splitG h || c.val % 2 == 0)

/-- The cause of a refused start (R89), but OWNER, in the order of its table. -/
def grpCause (s : State) (g : Fin 16) : Option Nat :=
  let m := s.modeG g
  let cmp := s.rd (R.CH_GRP_CMP g)
  if s.grp[g].st ≠ .idle then some 0
  else if !s.tb.ever then some 1
  else if m = 0 then some 2
  else if m = 3 ∧ !s.clockOk g then some 3
  else if s.packs g ∧ (s.rgnSize g = 0 ∨ (s.fb (R.CH_GRP_SEAL g) 31 ∧ s.linear g ∧ s.rgnSize g = 1)) then some 4
  else if bit cmp 0 ∧ (m ≠ 3 ∨ s.f (R.CH_GRP_FMAP_SIZE g) 31 0 = 0 ∨ s.pmap.sg[Fin.ofNat 8 (fld cmp 6 4)] ≠ s.grpPart g) then some 5
  else none

/-- GRP_REFUSED (R89, R92). -/
def grpRefused (s : State) (g : Fin 16) (cause : Nat) : State :=
  s.event (s.grpPart g) (R.CH_GRP_EVT_CNT g 3) 0x09 3 g none [(1, cause), (8, s.now.toNat)]

/-- Put an item into the flow. -/
def addFlow (s : State) (t : Stamp) (x : Flow) : State :=
  s.setTrg (fun T => { T with flow := insertBy (fun a b => upto a.1 b.1) (t, x) T.flow })

/-- A group enters WAIT (R90): its receivers, and that of a clock channel elsewhere (R101), power up and settle, and its start stamp is chosen, or waits for a SYNC. -/
def enterWait (s : State) (g : Fin 16) : State :=
  let s := forAll (List.range 8) s (fun j s =>
    let c := chOf g j
    let s := s.setCh c (fun C => { C with stg := [], ovf := none, ovfDone := [] })
    if (s.splitG g && j % 2 == 1) || s.powered c then s else s.settleRecv c)
  let s := if s.modeG g == 3 && grpOf (s.clkCh g) != g && !s.powered (s.clkCh g) then s.settleRecv (s.clkCh g) else s
  let sync := s.fb (R.CH_GRP_CTL g) 6
  let S := (s.cw + 20000#54).stamp
  let s := s.setGrp g (fun G => { ({} : GrpSt) with
    st := .wait, cw := s.cw, start := if sync then none else some S, runs := pastRun G,
    calAt := G.calAt, calValid := G.calValid, calDue := G.calDue })
  if sync then s else s.addFlow S (.open_ g)

/-- A start request for a group (R89, R90). -/
def groupGo (s : State) (g : Fin 16) : State :=
  match s.grpCause g with
  | some c => s.grpRefused g c
  | none => if s.calBusy g then s.setGrp g (fun G => { G with st := .held, cw := s.cw }) else s.enterWait g

/-- A group in HELD enters WAIT when CAL_BUSY has fallen (R31, R90). -/
def heldRelease (s : State) (g : Fin 16) : State :=
  match s.grp[g].st with
  | .held => if s.calBusy g then s else s.enterWait g
  | _ => s

/-- A SYNC acted on gives its stamp to the groups that wait for it (R90). -/
def syncStarts (s : State) (t : Stamp) : State :=
  forAll (List.finRange 16) s (fun g s =>
    match s.grp[g].st, s.grp[g].start with
    | .wait, none =>
      if upto (s.grp[g].cw + 20000#54).stamp t then
        (s.setGrp g (fun G => { G with start := some t })).addFlow t (.open_ g)
      else s
    | _, _ => s)

/-! ## Enabling channels (R95) -/

/-- A write changes CH_CTL.EN: it takes effect at the stamp (Cw + 32) × 1,024, at once in the record of stamps. -/
def chEnable (s : State) (c : Fin 128) (en : Bool) : State :=
  let t := s.stamp32
  (s.setCh c (fun C => { C with enLog := (t, en) :: C.enLog, enPend := C.enPend ++ [(t, en)] })).addFlow t (.chEn c en)

/-- The stamp at which the disabled stretch that ends at `t` began: the last change before it, or S (R95). -/
def disabledFrom (s : State) (c : Fin 128) (S t : Stamp) : Stamp :=
  match logBelow s.ch[c].enLog t with
  | some (u, false) => if before u S then S else u
  | _ => S

/-- The gap markers of one change of EN (R95, R163). -/
def enMark (s : State) (c : Fin 128) (t : Stamp) (en : Bool) : State :=
  let g := grpOf c
  let j := c.val % 8
  match s.grp[g].start with
  | some S =>
    let was := ((logBelow s.ch[c].enLog t).map (·.2)).getD false
    if s.packs g && !s.grp[g].ended && s.inRun g t && before S t && was != en && (s.dataBits g).contains j then
      s.addMark g t (.gap 2 (!en) false (2 ^ j) 0 (if en then s.disabledFrom c S t else t) 0)
    else s
  | none => s

/-- The changes of a channel's EN whose stamp the counter has reached (R95). -/
def enSync (s : State) (c : Fin 128) : State :=
  let due := s.ch[c].enPend.filter (fun e => s.reached e.1)
  let s := s.setCh c (fun C => { C with enPend := C.enPend.filter (fun e => !s.reached e.1) })
  forAll due s (fun e s => s.enMark c e.1 e.2)

/-! ## RUN (R90, R181, R182, R228) -/

/-- The start record of R182. -/
def startRecord (s : State) (g : Fin 16) (S : Stamp) (gen : Nat) : List Byte :=
  leBytes 2 0x5846 ++ leBytes 1 1 ++ leBytes 1 (s.gmByte g false) ++ padTo 4 [] ++ leBytes 8 S.toNat
    ++ leBytes 8 (Config.keyId gen).toNat ++ padTo 16 s.sc.fuse.device ++ padTo 24 []

/-- The run is sealed, or says that it cannot be (R181). -/
def sealStart (s : State) (g : Fin 16) (S : Stamp) : State :=
  if s.packs g && s.fb (R.CH_GRP_SEAL g) 31 then
    match s.sealKey with
    | some gen => s.setGrp g (fun G => { G with sealed := true, chain := Config.sha384 (s.startRecord g S gen) })
    | none => s.event (s.grpPart g) (R.CH_CAP_EVT_CNT g 2) 0x0A 2 g (some S) []
  else s

/-- The extractors of a group that enters RUN in PROTOCOL (R214, R225, R228). ME_X_BIND_CNT restarts at a start with which no other
PROTOCOL group has entered RUN before (R253; log entry 147). -/
def xtStart (s : State) (g : Fin 16) (S : Stamp) : State :=
  if s.modeG g = 4 then
    let along := (List.finRange 16).any (fun h => h != g && s.modeG h == 4 && s.grp[h].st == .run && s.grp[h].start == some S)
    let s := if along then s else s.wr R.ME_X_BIND_CNT 0#32
    forAll (s.dataBits g) s (fun j s =>
      let x := chOf g j
      let s := s.wr (R.ME_X_SYM_CNT x) 0#32
      if s.xtKind x = 0 then s
      else
        let rules := s.xtClockOk x
        let ok := s.xtBound x && rules
        let s := s.setXt x (fun X => { ({} : XtSt) with
          run := true, active := ok && s.enAt x S, bindErr := !rules, out := X.out, prev := X.prev })
        if ok then s else s.event (s.grpPart g) R.ME_X_BIND_CNT 0x40 4 x none [(1, (s.xtTarget x).val)])
  else s

/-- The group enters RUN at S (R90): GRP_START carries S and the mode; channels disabled at S open their gaps there (R95),
and S is the arm stamp of the sequencers that wait for it (R137). -/
def groupRun (s : State) (g : Fin 16) : State :=
  match s.grp[g].st, s.grp[g].start with
  | .wait, some S =>
    if s.reached S then
      let s := forAll (List.range 8) s (fun j s => s.enSync (chOf g j))
      let s := s.wr64 (R.CH_GRP_START_LO g) (R.CH_GRP_START_HI g) S
      let s := ((s.wr (R.CH_GRP_BLK_CNT g) 0#32).wr (R.CH_GRP_CMP_ITEM_CNT g) 0#32).wr (R.CH_GRP_CMP_FAIL_CNT g) 0#32
      let s := s.wr64 (R.CH_GRP_WPTR_LO g) (R.CH_GRP_WPTR_HI g) 0
      let s := s.setGrp g (fun G => { G with
        st := .run, running := S, qualPos := S - 1, coast := s.coastAt S })
      let s := if s.packs g then
          forAll (s.dataBits g) s (fun j s =>
            if s.enAt (chOf g j) S then s else s.addMark g S (.gap 2 true false (2 ^ j) 0 S 0))
        else s
      let s := s.event (s.grpPart g) (R.CH_GRP_EVT_CNT g 0) 0x09 0 g (some S) [(1, s.modeG g)]
      let s := forAll (List.finRange 8) s (fun q s =>
        let w := s.rd (R.TRG_SEQ_CTL q)
        match s.trg.seq[q].st, s.trg.seq[q].arm with
        | .armed, none => if fld w 19 16 = g.val then s.setSeq q (fun Q => { Q with arm := some S }) else s
        | _, _ => s)
      (s.sealStart g S).xtStart g S
    else s
  | _, _ => s

/-! ## Stopping (R92 to R94) -/

/-- A stop request for a group (R92). A pending stop of R139 that lies earlier stands. -/
def groupHalt (s : State) (g : Fin 16) : State :=
  match s.grp[g].st with
  | .idle | .drain => s.grpRefused g 0
  | .held => s.setGrp g (fun G => { G with st := .idle })
  | .wait =>
    let s := s.setGrp g (fun G => { G with st := .idle, start := none })
    s.setTrg (fun T => { T with flow := T.flow.filter (fun x => x.2 != .open_ g.val) })
  | .run =>
    if s.grp[g].pendStops.any (fun e => before e.2 s.stamp32) then s else s.grpStop g s.stamp32

/-- The group's extractors are told that it no longer runs. -/
def xtStop (s : State) (g : Fin 16) : State :=
  forAll (List.range 8) s (fun j s => s.setXt (chOf g j) (fun X => { X with run := false, active := false }))

/-- DRAIN is over (R93): everything below E is packed and written, with the last seal block of a sealed run. A group that
packs nothing is done when the counter has passed E. -/
def drainDone (s : State) (g : Fin 16) : Bool :=
  let G := s.grp[g]
  if s.packs g then G.ended && G.blk.isNone && G.out.isNone && !G.sealJob
  else (G.stop.map (fun e => s.passed (e + 204800#64))).getD true

/-- GRP_DRAINED: the group enters IDLE (R93). -/
def grpDrained (s : State) (g : Fin 16) : State :=
  match s.grp[g].st with
  | .drain =>
    if s.drainDone g then
      (s.setGrp g (fun G => { G with st := .idle })).event (s.grpPart g) (R.CH_GRP_EVT_CNT g 2) 0x09 2 g none
        [(4, s.grp[g].writes % 4294967296)]
    else s
  | _ => s

/-- An item of the flow belongs to a group: its start and stop, its edge events, its samples. -/
def flowOf (g : Fin 16) (x : Flow) : Bool :=
  match x with
  | .open_ h | .close h | .winEnd h | .clk h _ | .sample h _ _ => h == g.val
  | .edge e => e.tdc / 8 == g.val
  | _ => false

/-- A PERST# of its partition, or a fault, moves a group to IDLE at once (R94): staged events are discarded. -/
def grpKill (s : State) (g : Fin 16) : State :=
  let s := forAll (List.range 8) s (fun j s => s.setCh (chOf g j) (fun C => { C with stg := [], ovf := none, ovfDone := [] }))
  let s := s.setTrg (fun T => { T with flow := T.flow.filter (fun x => !flowOf g x.2) })
  let s := s.xtStop g
  let s := { s with sealQ := s.sealQ.filter (fun j => match j with | .block h _ _ _ => h != g | _ => true) }
  let s := s.setTrg (fun T => { T with lvl := T.lvl &&& ~~~(0xFF#128 <<< (8 * g.val)) })
  s.setGrp g (fun G => { G with
    st := .idle, stop := some (G.stop.getD s.now), start := match G.st with | .wait => none | _ => G.start, pendStops := [],
    marks := [], blk := none, out := none, samples := [], winDone := [], expect := [], trun := none, ended := true,
    sealJob := false, sealWait := false })

end Sys2Proof.Machine.State
end

