-- ==== Sys2Proof/Machine/Mtg.lean ====
section
/-! DEFINITION. The memory-test generator (R314 to R319): its operations, their addresses and values, and the expected items
it gives the STATE groups. -/

namespace Sys2Proof.Machine

open Bits

/-- One operation of a march: its element, the count of its address, and its op code (0 r0, 1 r1, 2 w0, 3 w1). -/
structure MtOp where
  elem : Nat
  idx  : Nat
  code : Nat
  deriving DecidableEq, Repr

namespace State

/-- The operation `i` of the elements in a list (R317). -/
def mtFind (s : State) (g : Fin 8) : List Nat → Nat → Option MtOp
  | [], _ => none
  | e :: r, i =>
    let n := s.mtNops g e
    let size := n * 2 ^ s.mtAW g
    if i < size then some ⟨e, i / n, s.mtElem g e >>> (2 + 2 * (i % n)) % 4⟩ else mtFind s g r (i - size)

/-- The linear address of an operation (R314): ORDER sets the fastest counter; DOWN visits in the exact reverse. -/
def mtLinear (s : State) (g : Fin 8) (o : MtOp) : Nat :=
  let n := 2 ^ s.mtAW g
  let i := if (s.mtElem g o.elem).testBit 10 then n - 1 - o.idx else o.idx
  let rw := 2 ^ s.mtRW g
  let cw := 2 ^ s.mtCW g
  let bw := 2 ^ s.mtBW g
  let mk (bank row col : Nat) : Nat := bank * (rw * cw) + row * cw + col
  match s.f (R.SG_MT_CTL g) 19 18 with
  | 0 => mk (i / (rw * cw)) (i / cw % rw) (i % cw)
  | 1 => mk (i / (rw * cw)) (i % rw) (i / rw % cw)
  | _ => mk (i % bw) (i / (bw * cw)) (i / bw % cw)

/-- The physical address (R315). -/
def mtPhys (s : State) (g : Fin 8) (a : Nat) : Nat :=
  ((List.range 32).map (fun i =>
    let scr := s.f (R.SG_MT_SCR g (i / 4)) (8 * (i % 4) + 4) (8 * (i % 4))
    if a.testBit scr != s.fb (R.SG_MT_XOR g) i then 2 ^ i else 0)).sum

/-- The value of an operation, written or expected (R316). -/
def mtValue (s : State) (g : Fin 8) (o : MtOp) : Nat :=
  let p := s.mtPhys g (s.mtLinear g o)
  let pr := p / 2 ^ s.mtCW g % 2 ^ s.mtRW g
  let pc := p % 2 ^ s.mtCW g
  let d0 := match s.f (R.SG_MT_CTL g) 21 20 with
    | 0 => 0
    | 1 => if (pr + pc) % 2 = 0 then 0x55 else 0xAA
    | 2 => if pr % 2 = 0 then 0 else 0xFF
    | _ => if pc % 2 = 0 then 0 else 0xFF
  (if o.code % 2 = 0 then d0 else 255 - d0) &&& s.f (R.SG_MT_CTL g) 31 24

/-- The level of bundle lane `l` at op position `pos` of an operation (R318). -/
def mtLane (s : State) (g : Fin 8) (o : MtOp) (l pos : Nat) : Bool :=
  let a := s.rd (R.SG_MT_LANE_A g l)
  let b := s.rd (R.SG_MT_LANE_B g l)
  let inside (w : Word) : Bool := decide (fld w 24 19 ≤ pos ∧ pos < fld w 31 25)
  let src (w : Word) : Bool :=
    let v := match fld w 10 8 with
      | 0 => false
      | 1 => true
      | 2 => (s.mtPhys g (s.mtLinear g o)).testBit (fld w 18 14)
      | 3 => (s.mtValue g o).testBit (fld w 18 14)
      | 4 => decide (2 ≤ o.code)
      | _ => decide (o.code < 2)
    v != bit w 13
  if inside a then src a else if inside b then src b else bit a 12

/-- The STATE groups that take the items of a generator at a launch stamp (R319). -/
def mtgTakers (s : State) (g : Fin 8) (l : Stamp) : List (Fin 16) :=
  (List.finRange 16).filter (fun h =>
    let cmp := s.rd (R.CH_GRP_CMP h)
    s.modeG h == 3 && bit cmp 0 && fld cmp 6 4 == g.val && s.grpPart h == s.pmap.sg[g] && s.inRun h l)

/-- The item of an operation goes to the groups that take it (R106, R319). -/
def mtgItem (s : State) (g : Fin 8) (o : MtOp) (l : Stamp) : State :=
  if o.code < 2 then
    let x : Expected := ⟨l, s.mtValue g o, s.f (R.SG_MT_CTL g) 31 24, s.mtLinear g o⟩
    forAll (s.mtgTakers g l) s (fun h s => s.setGrp h (fun G => { G with expect := G.expect ++ [x] }))
  else s

/-- The items of the present MTG segment with launch stamps at or below `lim` are delivered; at most `fuel` operations. -/
def mtgFeed (s : State) (g : Fin 8) (lim : Stamp) : Nat → State
  | 0 => s
  | n + 1 =>
    let G := s.sg[g]
    match s.mtFind g (s.mtElems g G.entry) G.opNext with
    | none => s
    | some o =>
      let l := s.launch (G.segAt + G.opNext * s.opLen g + s.f (R.SG_MT_CTL g) 15 10)
      if upto l lim then mtgFeed ((s.mtgItem g o l).setSg g (fun G => { G with opNext := G.opNext + 1 })) g lim n else s

/-- The largest lead of CMP_DLY over the groups: an item with launch stamp L may meet samples from L + CMP_DLY on (R106). -/
def cmpLead (s : State) : Stamp :=
  stamp (((List.finRange 16).map (fun (h : Fin 16) => (-(s.fs (R.CH_GRP_CMP_DLY h) 31 0)).toNat)).foldl max 0)

/-- Every generator that plays an MTG segment delivers its items up to the present. -/
def mtgSync (s : State) : State :=
  forAll (List.finRange 8) s (fun g s =>
    if s.sg[g].st == .run && s.entSrc g s.sg[g].entry == 3 then
      let lim := s.now + s.cmpLead
      s.mtgFeed g lim (s.idxCount lim - s.sg[g].segAt + 1)
    else s)

end State
end Sys2Proof.Machine
end

