-- ==== Sys2Proof/Machine/Flow.lean ====
section
/-! DEFINITION. Edge events in stamp order: what the comparators, the qualifiers, the STATE samplers and the extractors take
(R84, R102 to R107, R117, R119, R214, R226). An item is taken once the counter has passed its stamp by 32 ns, when no edge
with a smaller stamp can still come (R27). -/

namespace Sys2Proof.Machine.State

open Bits

/-- 32 ns in tu. -/
def lagTu : Stamp := 65536#64

/-! ## Resources (R117) -/

/-- The changes of resource EN whose stamp the counter has reached take their place in the flow (R117). -/
def resSync (s : State) (pick : ResKind → Nat → Bool) : State :=
  let due := s.trg.enPend.filter (fun e => s.reached e.1 && pick e.2.1 e.2.2.1)
  let s := s.setTrg (fun T => { T with enPend := T.enPend.filter (fun e => !(s.reached e.1 && pick e.2.1 e.2.2.1)) })
  forAll due s (fun e s =>
    match e.2.1 with
    | .ct => s.setCt (Fin.ofNat 32 e.2.2.1) (fun C => { C with enLog := (e.1, e.2.2.2) :: C.enLog })
    | .mm => s
    | k => s.addFlow e.1 (.enable k e.2.2.1 e.2.2.2))

/-- A write changes the EN of a resource: it takes effect at (Cw + 32) × 1,024 (R117), for a matcher by the stamps of the messages. -/
def resEnable (s : State) (k : ResKind) (n : Nat) (en : Bool) : State :=
  match k with
  | .mm => s.setTrg (fun T => { T with mmLog := T.mmLog.set (Fin.ofNat 64 n) ((s.stamp32, en) :: T.mmLog[Fin.ofNat 64 n]) })
  | k => s.setTrg (fun T => { T with enPend := T.enPend ++ [(s.stamp32, k, n, en)] })

/-! ## Margins (R104, R105) -/

/-- The stamps of a channel's edge events above `a` and at or below `b`, oldest first. -/
def edgesIn (s : State) (c : Fin 128) (a b : Stamp) : List Stamp :=
  ((s.ch[c].lvlLog.map (·.1)).filter (fun t => before a t && upto t b)).reverse

/-- The TDCs that stamp a signal (R85). -/
def tdcsOf (s : State) (c : Fin 128) : List (Fin 128) := if s.splitG (grpOf c) then [c, Fin.ofNat 128 (c.val + 1)] else [c]

/-- A gap or a relock boundary lies across [a, b] for a channel (R104). -/
def across (s : State) (c : Fin 128) (a b : Stamp) : Bool :=
  s.blind c a b || s.tb.jlog.any (fun e => upto a e.1 && upto e.1 b) ||
  (s.tdcsOf c).any (fun c => s.ch[c].ovfs.any (fun e => upto e.1 b && upto a e.2) || (s.ch[c].ovf.map (fun o => upto o.first b)).getD false)

/-- The smaller of two measured values, where both are measured. -/
def minOpt (a b : Option Nat) : Option Nat :=
  match a, b with
  | some x, some y => some (min x y)
  | none, y => y
  | x, none => x

/-- Setup of a channel at instant `t` (R104), none when unmeasurable. -/
def setupAt (s : State) (g : Fin 16) (c : Fin 128) (t : Stamp) : Option Nat :=
  match logUpto s.ch[c].lvlLog t, s.grp[g].start with
  | some (u, _), some S => if before u S || s.across c u t then none else some (min 65534 (t - u).toNat)
  | _, _ => none

/-- Hold of a channel at instant `t` (R104): not yet known, unmeasurable, or its value. -/
def holdAt (s : State) (c : Fin 128) (t lim : Stamp) : Option (Option Nat) :=
  match (s.edgesIn c t lim).head? with
  | some u => some (if s.across c t (if (u - t).toNat ≤ 65534 then u else t + 65534) then none else some (min 65534 (u - t).toNat))
  | none =>
    if 65534 ≤ diff t lim then some (if s.across c t (t + 65534) then none else some 65534) else none

/-- The holds of a window's last sample that an edge up to `lim`, or 65,534 tu without one, decides. -/
def winHolds (s : State) (g : Fin 16) (w : Win) (lim : Stamp) : Win :=
  (List.range 8).foldl (fun w j =>
    if w.wait.getD j false then
      match s.holdAt (chOf g j) w.lastT lim with
      | some v => { w with hold := w.hold.set j (minOpt (w.hold.getD j none) v), wait := w.wait.set j false }
      | none => w
    else w) w

/-- The samples of a margin window (R105). -/
def winLen (s : State) (g : Fin 16) : Nat := 2 ^ min 24 (max 4 (s.f (R.CH_GRP_MARGIN g) 4 0))

/-- A sample enters the margin window (R105). -/
def marginSample (s : State) (g : Fin 16) (c t : Stamp) : State :=
  if !s.fb (R.CH_GRP_MARGIN g) 8 then s
  else
    let w := s.winHolds g s.grp[g].win t
    let bits := s.dataBits g
    let w := { w with
      n := w.n + 1, lastC := c, lastT := t,
      setup := (List.range 8).map (fun j => if bits.contains j then minOpt (w.setup.getD j none) (s.setupAt g (chOf g j) t) else none),
      wait := (List.range 8).map (fun j => bits.contains j) }
    if s.winLen g ≤ w.n then s.setGrp g (fun G => { G with win := {}, winDone := G.winDone ++ [w] })
    else s.setGrp g (fun G => { G with win := w })

/-- The margin entries of the oldest finished window, once its last hold is known (R105, R172). -/
def marginEmit (s : State) (g : Fin 16) : State :=
  match s.grp[g].winDone with
  | [] => s
  | w :: r =>
    let w := s.winHolds g w (s.now - lagTu)
    if w.wait.any id then s
    else
      let s := s.setGrp g (fun G => { G with winDone := r })
      if s.grp[g].ended then s
      else forAll (s.dataBits g) s (fun j s =>
        s.addMark g w.lastC (.margin j ((w.setup.getD j none).getD 65535) ((w.hold.getD j none).getD 65535) w.n))

/-! ## Comparison (R106, R107) -/

/-- CMP_DLY and CMP_WIN of a group. -/
def cmpFrom (s : State) (g : Fin 16) (L : Stamp) : Stamp := shift L (s.fs (R.CH_GRP_CMP_DLY g) 31 0)
def cmpTo (s : State) (g : Fin 16) (L : Stamp) : Stamp := s.cmpFrom g L + stamp (max 1 (s.f (R.CH_GRP_CMP_WIN g) 15 0))

/-- The oldest expected item is missing (R106). -/
def cmpLost (s : State) (g : Fin 16) (x : Expected) : State :=
  (s.setGrp g (fun G => { G with expect := G.expect.drop 1 })).event (s.grpPart g) (R.CH_GRP_EVT_CNT g 7) 0x09 7 g
    (some x.launch) [(4, x.addr)]

/-- Items whose windows end at or below `t` without a sample are missing; at most `fuel` of them. -/
def cmpMiss (s : State) (g : Fin 16) (t : Stamp) : Nat → State
  | 0 => s
  | n + 1 =>
    match s.grp[g].expect with
    | x :: _ => if upto (s.cmpTo g x.launch) t then cmpMiss (s.cmpLost g x) g t n else s
    | [] => s

/-- A paired item fails (R107): the fail map takes the failing bits. -/
def cmpFail (s : State) (g : Fin 16) (c : Stamp) (addr bits : Nat) : State :=
  let p := s.grpPart g
  let s := s.bump (R.CH_GRP_CMP_FAIL_CNT g)
  let s := if addr < s.f (R.CH_GRP_FMAP_SIZE g) 31 0 then
      let a := (s.rd (R.CH_GRP_FMAP_BASE_HI g)).toNat * 4294967296 + s.f (R.CH_GRP_FMAP_BASE_LO g) 31 12 * 4096 + addr
      s.acqWrite p g a [s.memGet a ||| BitVec.ofNat 8 bits]
    else s
  if s.grp[g].cmpFailed then s
  else (s.setGrp g (fun G => { G with cmpFailed := true })).event p (R.CH_GRP_EVT_CNT g 6) 0x09 6 g (some c)
    [(4, addr), (1, bits)]

/-- A sample meets the expected items (R106, R107). -/
def cmpSample (s : State) (g : Fin 16) (c : Stamp) (value : Nat) : State :=
  let cmp := s.rd (R.CH_GRP_CMP g)
  if !bit cmp 0 then s
  else
    let s := s.cmpMiss g c s.grp[g].expect.length
    match s.grp[g].expect with
    | [] => s
    | x :: r =>
      if upto (s.cmpFrom g x.launch) c then
        let s := (s.setGrp g (fun G => { G with expect := r })).bump (R.CH_GRP_CMP_ITEM_CNT g)
        let bits := (Nat.xor value x.byte) &&& x.mask &&& fld cmp 15 8 &&& (if s.splitG g then 15 else 255)
        if bits = 0 then s else s.cmpFail g c x.addr bits
      else s

/-! ## STATE samples (R102) -/

/-- SAMPLE_OFS, and the selected clock edges. -/
def sampleOfs (s : State) (g : Fin 16) : Int := s.fs (R.CH_GRP_STATE g) 15 0
def clkSelects (s : State) (g : Fin 16) (e : EdgeRec) : Bool :=
  let w := s.f (R.CH_GRP_STATE g) 25 24
  let w := if w = 0 then 1 else w
  if e.rise then w.testBit 0 else w.testBit 1

/-- A STATE sample for the clock edge with stamp `c` (R102, R104 to R107, R171). -/
def stateSample (s : State) (g : Fin 16) (c : Stamp) : State :=
  let t := shift c (s.sampleOfs g)
  let levels := ((s.dataBits g).map (fun j => if s.lvlUpto (chOf g j) t then 2 ^ j else 0)).sum
  let value := s.sampleValue g levels
  let errs := (s.grp[g].edgeErr.filter (fun e =>
    upto e.2 t && (logUpto s.ch[s.signal (chOf g e.1)].lvlLog t).map (·.1) == some e.2)).map (·.1)
  let s := s.setGrp g (fun G => { G with
    samples := if G.ended then G.samples else G.samples ++ [⟨c, value, errs⟩], edgeErr := G.edgeErr.filter (fun e => before t e.2) })
  (s.marginSample g c t).cmpSample g c value

/-- An edge of the clock channel of a running STATE group (R101, R102). -/
def clockEdge (s : State) (g : Fin 16) (e : EdgeRec) : State :=
  if s.clkSelects g e && s.enAt (s.clkCh g) e.stamp then
    s.addFlow (shift e.stamp (max 0 (s.sampleOfs g))) (.sample g e.stamp e)
  else s

/-! ## Extractors -/

/-- The extractors that use a channel: its own, and those that name it as clock, select or data lane (R225, R226). -/
def xtUsers (s : State) (c : Fin 128) : List (Fin 128) :=
  (List.finRange 128).filter (fun x => s.xt[x].active &&
    (x == c || s.xtLane x c || (s.xtClocked x && s.xtClkCh x == c) || (s.xtSelEn x && s.xtSelCh x == c)))

/-- An edge event reaches the extractors (R84, R214, R225). -/
def xtTake (s : State) (sig : Fin 128) (e : EdgeRec) : State :=
  forAll (s.xtUsers sig) s (fun x s =>
    let s := if x == sig then s.xtEdge x e else if s.xtLane x sig then s.laneEdge x e else s
    let ofs := max 0 (s.xtOfs x)
    let used := if e.rise then (s.xtEdges x).testBit 0 else (s.xtEdges x).testBit 1
    let s := if s.xtSelEn x && s.xtSelCh x == sig then s.addFlow (shift e.stamp ofs) (.xsel x e) else s
    match s.xtKind x with
    | 4 => if s.xtClkCh x == sig && used then s.addFlow (shift e.stamp ofs) (.xsample x e.stamp e) else s
    | 5 => if s.xtClkCh x == sig then s.twoWireClock x e else s
    | _ => s)

/-- EN of a channel changes at `t` (R214, R226). -/
def xtEn (s : State) (c : Fin 128) (t : Stamp) (en : Bool) : State :=
  if en then
    let s := s.setXt c (fun X => { X with active := X.run && !s.xtBindErr c })
    forAll (s.xtUsers c) s (fun x s => s.xtSelInit x t)
  else
    let s := forAll (s.xtUsers c) s (fun x s => s.xtGap x t 0)
    s.setXt c (fun X => { X with active := false })

/-! ## The levels of the trigger block (R119) -/

/-- Set the level of a channel. -/
def setLvl (s : State) (c : Nat) (b : Bool) : State :=
  s.setTrg (fun T => { T with lvl := if b then T.lvl ||| (1#128 <<< c) else T.lvl &&& ~~~(1#128 <<< c) })

/-- The start stamp of a group: its channels take their levels at S (R119, R539), and so does its packer. -/
def openGroup (s : State) (g : Fin 16) (t : Stamp) : State :=
  let s := s.groupRun g
  match s.grp[g].st with
  | .run | .drain =>
    let s := forAll (s.dataBits g) s (fun j s => s.setLvl (chOf g j) (s.lvlBelow (chOf g j) t))
    let lv := s.levelsBelow g t
    let s := s.setGrp g (fun G => { G with levels := lv, vals := lv })
    forAll (s.dataBits g) s (fun j s => s.xtSelInit (chOf g j) t)
  | _ => s

/-- The samples of the clock edges below E have been taken: the last margin window ends (R105). -/
def lastWin (s : State) (g : Fin 16) : State :=
  s.setGrp g (fun G => { G with win := {}, winDone := if G.win.n = 0 then G.winDone else G.winDone ++ [G.win] })

/-- The stop stamp of a group (R92, R119, R226). Samples of clock edges below it may still come (R102). -/
def closeGroup (s : State) (g : Fin 16) (t : Stamp) : State :=
  let s := s.setTrg (fun T => { T with lvl := T.lvl &&& ~~~(0xFF#128 <<< (8 * g.val)) })
  let s := s.addFlow (shift t (max 0 (s.sampleOfs g))) (.winEnd g)
  let s := forAll ((List.finRange 128).filter (fun x => s.xt[x].active && (grpOf x == g ||
      (s.xtClocked x && grpOf (s.xtClkCh x) == g) || (s.xtSelEn x && grpOf (s.xtSelCh x) == g)))) s (fun x s => s.xtGap x t 2)
  s.xtStop g

/-! ## Taking the flow -/

/-- A change that acts before the edges of its stamp. -/
def flowFirst (t : Stamp) (x : Flow) (s : State) : State :=
  match x with
  | .enable .pc n en => s.setPc (Fin.ofNat 64 n) (fun P => { P with en := en })
  | .enable .iq n en => (s.iqTmoDue (Fin.ofNat 32 n) t).setIq (Fin.ofNat 32 n) (fun I => { I with en := en, lastA := none, lastB := none, tmo := if en then I.tmo else [] })
  | .open_ g => s.openGroup (Fin.ofNat 16 g) t
  | .close g => s.closeGroup (Fin.ofNat 16 g) t
  | .level c b =>
    let c := Fin.ofNat 128 c
    if s.inRun (grpOf c) t && s.enAt c t then s.setLvl c b else s
  | .chEn c en =>
    let s := s.xtEn (Fin.ofNat 128 c) t en
    if en && s.inRun (grpOf (Fin.ofNat 128 c)) t then s.setLvl c (s.lvlBelow (Fin.ofNat 128 c) t) else s
  | .relock v1 =>
    forAll ((List.finRange 128).filter (fun x => s.xt[x].active)) s (fun x s =>
      ((s.xtGap x (t - 1) 1).setXt x (fun X => { X with floor := some v1 })).xtSelInit x v1)
  | _ => s

/-- A comparator is disabled by an item. -/
def flowDisables (p : Fin 64) (x : Flow) : Bool :=
  match x with
  | .enable .pc n false => n == p.val
  | _ => false

/-- An edge event among the items of one stamp. -/
def flowEdge (x : Flow) : Option EdgeRec := match x with | .edge e => some e | _ => none

/-- What acts after the edges of its stamp. -/
def flowLast (x : Flow) (s : State) : State :=
  match x with
  | .clk g e => s.clockEdge (Fin.ofNat 16 g) e
  | .xsel x e => s.clockedSelect (Fin.ofNat 128 x) e
  | .sample g c _ => s.stateSample (Fin.ofNat 16 g) c
  | .winEnd g => s.lastWin (Fin.ofNat 16 g)
  | .xsample x c e => s.clockedSample (Fin.ofNat 128 x) c e
  | _ => s

/-- The order among the items that act last: clock edges, selects, samples, the end of the last margin window. -/
def flowRank (x : Flow) : Nat := match x with | .clk _ _ => 0 | .xsel _ _ => 1 | .winEnd _ => 3 | _ => 2

/-- Everything with one stamp (R117, R119, R120): changes, then all edges together, then the samples. -/
def flowAt (s : State) (t : Stamp) (l : List Flow) : State :=
  let s := forAll l s (flowFirst t)
  let es := (l.filterMap flowEdge).map (fun e => (e, (s.signal (Fin.ofNat 128 e.tdc)).val))
  let s := forAll es s (fun x s =>
    if s.inRun (grpOf (Fin.ofNat 128 x.2)) t then s.setLvl x.2 (x.1.coll.getD x.1.rise) else s)
  let coast := if es.isEmpty then s.coastAt t else es.any (fun x => x.1.coast)
  let s := forAll (List.finRange 64) s (fun p s =>
    s.pcUpdate p t coast (es.any (fun x => x.1.err && (s.pcBits (R.TRG_PC_MASK p)).getLsbD x.2)) (l.any (flowDisables p)))
  let s := forAll es s (fun x s =>
    let s := forAll (List.finRange 64) s (fun p s => s.pcClocked p x.1 x.2)
    let g := grpOf (Fin.ofNat 128 x.2)
    if s.modeG g = 3 ∧ x.1.err then s.setGrp g (fun G => { G with edgeErr := G.edgeErr ++ [(x.1.tdc % 8, t)] }) else s)
  let s := if es.isEmpty then s else forAll (List.finRange 32) s (fun q s => s.iqEdges q t es)
  let s := forAll es s (fun x s => if s.modeG (grpOf (Fin.ofNat 128 x.2)) = 5 then s.iuEdge x.2 x.1 else s)
  let s := forAll es s (fun x s => s.xtTake (Fin.ofNat 128 x.2) x.1)
  forAll (l.foldl (fun acc x => insertBy (fun a b => flowRank a ≤ flowRank b) x acc) []) s flowLast

/-- Take what lies at or below a stamp, in order; at most `fuel` different stamps. -/
def flowTo (s : State) (lim : Stamp) : Nat → State
  | 0 => s
  | n + 1 =>
    match s.trg.flow with
    | [] => s
    | (t, _) :: _ =>
      if upto t lim then
        let now := s.trg.flow.filter (fun e => e.1 == t)
        let s := s.setTrg (fun T => { T with flow := T.flow.filter (fun e => e.1 != t) })
        flowTo (s.flowAt t (now.map (·.2))) lim n
      else s

/-- Bring the consumers that work in stamp order up to the present (R27, R84). -/
def settle (s : State) : State :=
  let s := s.mtgSync.resSync (fun _ _ => true)
  s.flowTo (s.now - lagTu) (3 * s.trg.flow.length + 3)

end Sys2Proof.Machine.State
end

