-- ==== Sys2Proof/WellFormed.lean ====
section
/-! DEFINITION. Which commands are well formed: the operands that lists and numbers alone do not bound. -/

namespace Sys2Proof

/-- What a calibration measures in the eight channels of a group: histograms over 256 raw bins with 4,194,304 hits in all (R28),
and twin-line lengths. -/
def calWf (hists : List (List Nat)) (lens : List Nat) : Bool :=
  hists.length == 8 && lens.length == 8 && hists.all (fun h => h.length == 256 && h.sum == 4194304)

/-- The twin-line lengths of the 128 channels, none of them 0 (R33). -/
def linesWf (lens : List Nat) : Bool := lens.length == 128 && lens.all (fun n => decide (0 < n))

/-- The span in tu from the last edge of the old TBCLK to the first of the new (R62). -/
def relockWf (d : Nat) : Bool := decide (512 ≤ d ∧ d ≤ 1536)

/-- The command is well formed. -/
def Instr.wf (i : Instr) : Bool :=
  match i with
  | .tdcCalDone _ hists lens => calWf hists lens
  | .lineLengthMeasure lens => linesWf lens
  | .relockBoundary d => relockWf d
  | _ => true

end Sys2Proof
end

