-- ==== Sys2Proof/Machine/Front.lean ====
section
/-! DEFINITION. Receivers, TDCs, auto-threshold and calibration (file 01 of the spec). -/

namespace Sys2Proof.Machine

open Bits

namespace State

/-! ## Stamps (R23 to R27) -/

/-- The TDC that stamps an edge of a signal (R85). -/
def tdcFor (s : State) (c : Fin 128) (rise : Bool) : Fin 128 :=
  if s.splitG (grpOf c) && !rise then Fin.ofNat 128 (c.val + 1) else c

/-- Entry `b` of a TDC's bin-width table (R24). -/
def tableAt (s : State) (tdc : Fin 128) (b : Nat) : Nat :=
  let w := s.rd (R.TDC_TABLE (tdc.val / 8) (tdc.val % 8) (b / 2))
  if b % 2 = 0 then fld w 15 0 else fld w 31 16

/-- The travel time of raw bin `b` in 1/64 tu (R25). -/
def travel (s : State) (tdc : Fin 128) (b : Nat) : Nat :=
  let lam := s.f (R.TDC_LLM_RATIO tdc) 31 0
  let t := if b < 255 then (s.tableAt tdc b * lam + 0x8000) / 65536
    else ((s.f (R.TDC_B254 tdc) 15 0 * lam + 0x8000) / 65536 + 65536) / 2
  min t 65535

/-- DESKEW in tu and ZERO in 1/64 tu of a signal's TDC (R23, R86). -/
def deskewOf (s : State) (c : Fin 128) : Int := s.fs (R.CH_DESKEW c) 16 0
def zeroOf (s : State) (tdc : Fin 128) : Int :=
  if s.splitG (grpOf tdc) && tdc.val % 2 == 1 then s.fs (R.CH_SPLIT_ZERO (tdc.val / 2)) 15 0 else s.fs (R.CH_ZERO tdc) 15 0

/-- The stamp of R25. -/
def stampEdge (count : Count) (t : Nat) (deskew zero : Int) : Stamp :=
  let x := ((count.toNat * 65536 : Nat) - (t : Int) + deskew * 64 + zero) % (2 ^ 70)
  BitVec.ofInt 64 ((x + 32) / 64)

/-- The travel times between which those of raw bin `b` lie: the centres of the neighbouring bins, and the ends of the period
(R20, R24; log entry 122). -/
def travelMin (s : State) (tdc : Fin 128) (b : Nat) : Nat := if b = 0 then 0 else s.travel tdc (b - 1)
def travelMax (s : State) (tdc : Fin 128) (b : Nat) : Nat := if b < 255 then s.travel tdc (b + 1) else 65536

/-- An instant `t` before a sampling edge, without the offsets, in 1/64 tu modulo 2^70 (R25). -/
def tripAt (count : Count) (t : Nat) : BitVec 70 := BitVec.ofInt 70 ((count.toNat * 65536 : Nat) - (t : Int))

/-- An edge sampled at `count` in raw bin `b` lies in the dead time of its TDC (R20): less than 250 ps after the last stamped
edge, even at the latest instant of its bin. -/
def inDeadTime (s : State) (tdc : Fin 128) (count : Count) (b : Nat) : Bool :=
  match s.ch[tdc].lastTrip with
  | none => false
  | some u => decide ((tripAt count (s.travelMin tdc b) - u + 131072#70).toNat < 131072 + 32768)

/-- The table word that raw bin `b` uses (R38); word 64 is that of B254. -/
def wordUsed (b : Nat) : Nat := if b < 255 then b / 4 else 64

/-! ## Calibration state (R34) -/

/-- CAL_DUE of a group follows its temperature and CAL_VALID (R34): an event when it rises. -/
def calDueUpdate (s : State) (g : Fin 16) : State :=
  let w := s.rd (R.TDC_CAL_TEMP g)
  let due := !s.grp[g].calValid || decide (64 < (signed 16 (fld w 31 16) - signed 16 (fld w 15 0)).natAbs)
  let rise := due && !s.grp[g].calDue
  let s := s.setGrp g (fun G => { G with calDue := due })
  if rise then s.event (s.grpPart g) (R.GLB_CT_EVT_CNT (s.grpPart g) 2) 0x10 1 g none [] else s

/-- What the entries of an uncorrectable table word hold: free values, until a calibration replaces them (R38; log entry
130). -/
def spoilWord (s : State) (tdc : Fin 128) (w : Nat) : State :=
  if w < 64 then
    let a := s.takeWord
    let b := a.2.takeWord
    (b.2.wr (R.TDC_TABLE (tdc.val / 8) (tdc.val % 8) (2 * w)) a.1).wr (R.TDC_TABLE (tdc.val / 8) (tdc.val % 8) (2 * w + 1)) b.1
  else s.takeWord.2.wrF (R.TDC_B254 tdc) 15 0 s.takeWord.1.toNat

/-- The read of the table word that raw bin `b` uses (R38). `ecc`: 0 good, 1 corrected, 2 uncorrectable. Records name the
signal (R86). -/
def tableRead (s : State) (sig tdc : Fin 128) (b ecc : Nat) : State :=
  let p := s.grpPart (grpOf tdc)
  if ecc = 1 then (s.bump (R.TDC_ECC_CNT tdc)).event p (R.GLB_CT_EVT_CNT p 4) 0x10 3 sig none []
  else if ecc = 2 ∧ !s.ch[tdc].badWords.contains (wordUsed b) then
    let s := (s.setCh tdc (fun C => { C with badWords := wordUsed b :: C.badWords })).spoilWord tdc (wordUsed b)
    ((s.setGrp (grpOf tdc) (fun G => { G with calValid := false })).faultNote 0x10 (grpOf tdc)).calDueUpdate (grpOf tdc)
  else s

/-- The residue check of a stamp (R37). `res`: 0 right, 1 right on the retry, 2 wrong twice. -/
def residueCheck (s : State) (sig tdc : Fin 128) (res : Nat) : State :=
  let p := s.grpPart (grpOf tdc)
  let s := if res = 0 then s else s.bump (R.TDC_RES_CNT tdc)
  if res = 2 then s.event p (R.GLB_CT_EVT_CNT p 3) 0x10 2 sig none [] else s

/-- The checks of an edge's stamp (R37, R38): whether it carries ERR. -/
def edgeChecks (s : State) (sig tdc : Fin 128) (b res ecc : Nat) : Bool × State :=
  let s := (s.residueCheck sig tdc res).tableRead sig tdc b ecc
  (decide (res = 2) || s.ch[tdc].badWords.contains (wordUsed b), s)

/-! ## Delivery (R26, R63, R84, R101, R539) -/

/-- The level of a channel takes an edge event, in stamp order (R539). -/
def trackLevel (s : State) (c : Fin 128) (t : Stamp) (level : Bool) : State :=
  s.setCh c (fun C => { C with lvlLog := insertBy (fun a b => before b.1 a.1) (t, level) C.lvlLog })

/-- The running STATE groups whose clock is this channel take the edge (R101). -/
def clockTake (s : State) (sig : Fin 128) (e : EdgeRec) : State :=
  forAll (List.finRange 16) s (fun h s =>
    if s.modeG h == 3 && s.clkCh h == sig && s.inRun h e.stamp &&
        !(grpOf sig == h && s.ch[Fin.ofNat 128 e.tdc].ovf.isSome) then s.addFlow e.stamp (.clk h e) else s)

/-- An edge event reaches its consumers (R84). -/
def deliver (s : State) (sig : Fin 128) (e : EdgeRec) : State :=
  let g := grpOf sig
  let s := s.trackLevel sig e.stamp (e.coll.getD e.rise)
  let s :=
    if s.inRun g e.stamp && s.enAt sig e.stamp then
      let s := s.bump (if e.coll.isSome then R.CH_COLLAPSE_CNT e.tdc else R.CH_EDGE_CNT e.tdc)
      let s := s.addFlow e.stamp (.edge e)
      if s.packs g then s.stageEdge e else s
    else s
  s.clockTake sig e

/-- The input of a TDC is not its receiver: its group is calibrated (R29), or a skew calibration loops a lane into it (R320). -/
def tdcInCal (s : State) (tdc : Fin 128) : Bool :=
  s.grp[grpOf tdc].calAt.isSome || (s.skewUses (grpOf tdc) && tdc.val % 2 == 0)

/-- A receiver has tripped: the first edge of the event was sampled at `count` in raw bin `b` (R20, R25, R63). It is not stamped
in the dead time. -/
def stampAndDeliver (s : State) (sig : Fin 128) (rise : Bool) (coll : Option Bool) (count : Count) (b res ecc : Nat) : State :=
  let tdc := s.tdcFor sig rise
  if s.inDeadTime tdc count b || s.ch[sig].at_.isSome || s.tdcInCal tdc then s
  else
    let trip := tripAt count (s.travelMax tdc b)
    let x := (s.setCh tdc (fun C => { C with lastTrip := some trip })).edgeChecks sig tdc b res ecc
    let s := x.2
    let ts := stampEdge count (s.travel tdc b) (s.deskewOf sig) (s.zeroOf tdc)
    if s.tb.gaps.any (fun e => before e.1 ts && before ts e.2) then s
    else s.deliver sig ⟨ts, tdc, rise, coll, s.coastAt ts, x.1⟩

end State

/-- EDGE_EVENT: the pins of a channel take new voltages, in microvolts; a receiver that trips makes one edge event, sampled
at the present TBCLK edge in raw bin `b` (R11 to R15, R20, R25). -/
def execEdgeEvent (c : Fin 128) (vp vn : Int) (b : Fin 256) (res ecc : Fin 3) (s : State) : Host.Outcome State Fault Refusal :=
  let next := s.recvNext c vp vn
  let t := s.setCh c (fun C => { C with vp := vp, vn := vn })
  if !s.powered c || next = s.ch[c].out then .next t
  else
    let t := t.setCh c (fun C => { C with out := next })
    .next (t.stampAndDeliver c (t.recvLevel c) none s.tb.count b res ecc).settle

/-- COLLAPSE_ENTRY: at the end of the dead time the transition latch has caught transitions (R21, R22): one collapse entry,
stamped at the first edge, which was sampled `back` TBCLK edges ago, with the level that the pins then give. -/
def execCollapseEntry (c : Fin 128) (back : Fin 2) (b : Fin 256) (vp vn : Int) (res ecc : Fin 3) (s : State) :
    Host.Outcome State Fault Refusal :=
  if !s.powered c then .next (s.setCh c (fun C => { C with vp := vp, vn := vn }))
  else
    let t := s.setCh c (fun C => { C with out := !s.ch[c].out })
    let rise := t.recvLevel c
    let t := t.setCh c (fun C => { C with vp := vp, vn := vn, out := t.recvNext c vp vn })
    .next (t.stampAndDeliver c rise (some (t.recvLevel c)) (s.tb.count - BitVec.ofNat 54 back.val) b res ecc).settle

namespace State

/-! ## Auto-threshold (R16 to R19) -/

/-- STEP, DWELL and FRAC, with their zero values (R17, R18). -/
def atStep (cfg : Word) : Nat := max 1 (fld cfg 5 0)
def atDwell (cfg : Word) : Nat := max 1 (fld cfg 15 8)
def atFrac (cfg : Word) : Nat := if fld cfg 19 16 = 0 then 8 else fld cfg 19 16

/-- The points of a sweep (R17). -/
def atPoints (cfg : Word) : Nat := 4095 / atStep cfg + 1

/-- The widest run of open points, at lower codes when equal: first and last point (R18). `cur` is the run in progress. -/
def widest : List Bool → Nat → Option (Nat × Nat) → Option (Nat × Nat) → Option (Nat × Nat)
  | [], _, _, best => best
  | o :: r, i, cur, best =>
    if o then
      let now := match cur with | some (a, _) => (a, i) | none => (i, i)
      let best := match best with
        | some (a, z) => if z - a < now.2 - now.1 then some now else some (a, z)
        | none => some now
      widest r (i + 1) (some now) best
    else widest r (i + 1) none best

/-- The tracked level of a channel after an auto-threshold run (R539), or an unpowered receiver. -/
def atEnd (s : State) (c : Fin 128) : State :=
  let s := s.setCh c (fun C => { C with at_ := none })
  if s.powered c then
    let log := s.ch[c].lvlLog
    let s := s.settleRecv c
    let t := s.sinceStamp c
    (s.setCh c (fun C => { C with lvlLog := C.lvlLog ++ log })).addFlow t (.level c (s.recvLevel c))
  else s

/-- A one in a channel's bit of CH_AT_GO (R16). The receiver powers up for the run (R14). A run that goes on is not restarted;
with SE = 0 it ends there. -/
def atGo (s : State) (c : Part) (n : Fin 128) : State :=
  if s.fb (R.CH_CTL n) 0 then s.ignored c
  else if !s.fb (R.CH_CTL n) 1 then
    (if s.ch[n].at_.isSome then s.atEnd n else s).wrF (R.CH_AT_RESULT n) 26 24 4
  else if s.ch[n].at_.isSome then s
  else
    let s := if s.powered n then s else s.settleRecv n
    s.setCh n (fun C => { C with at_ := some ⟨s.tb.count, s.rd (R.CH_AT_CFG (n.val / 8))⟩ })

end State

/-- CH_AT_DONE: the sweep ends with the rising edges counted at each point, in order of code, none where the list ends
(R17 to R19). -/
def execChAtDone (c : Fin 128) (counts : List Nat) (s : State) : Host.Outcome State Fault Refusal :=
  match s.ch[c].at_ with
  | none => .next s
  | some r =>
    let counts := (List.range (State.atPoints r.cfg)).map (fun i => counts.getD i 0)
    if !s.since r.start (State.atPoints r.cfg * (400 + State.atDwell r.cfg * 2000)) then .next s
    else
      let m := counts.foldl max 0
      let p := s.grpPart (State.grpOf c)
      let s := if m < 16 then s.wrF (R.CH_AT_RESULT c) 26 24 2
        else match State.widest (counts.map (fun n => decide (m * State.atFrac r.cfg ≤ n * 16))) 0 none none with
          | some (a, z) =>
            let lo := a * State.atStep r.cfg
            let hi := z * State.atStep r.cfg
            (s.wrF (R.CH_THR c) 11 0 ((lo + hi) / 2)).wr (R.CH_AT_RESULT c) (word (lo + hi * 4096 + 16777216))
          | none => s
      .next ((s.atEnd c).event p (R.GLB_CT_EVT_CNT p 0) 0x08 0 c none [])

namespace State

/-! ## TDC calibration (R28 to R34) -/

/-- Calibration of a group starts, if the group is idle (R29). -/
def calStart (s : State) (g : Fin 16) : State := s.setGrp g (fun G => { G with calAt := some s.tb.count })

/-- A one in a group's bit of TDC_CAL_GO (R29). -/
def calGo (s : State) (c : Part) (g : Fin 16) : State := if s.groupIdle g then s.calStart g else s.ignored c

/-- A value in a 16-bit field. The spec gives no value for one that does not fit: it is free, at or above `low` (R24). -/
def fit16 (s : State) (low v : Nat) : Nat × State :=
  if v < 65536 then (v, s) else let x := s.takeWord; (low + x.1.toNat % (65536 - low), x.2)

/-- Store the table of one TDC from its histogram (R28), two entries a word, `acc` the hits of the bins before and `low` the
entry before. -/
def storeTable (tdc : Fin 128) : List Nat → Nat → Nat → Nat → State → State
  | n0 :: n1 :: r, w, acc, low, s =>
    let a := s.fit16 low ((2 * acc + n0 + 64) / 128)
    let b := a.2.fit16 a.1 ((2 * (acc + n0) + n1 + 64) / 128)
    let s := b.2.wr (R.TDC_TABLE (tdc.val / 8) (tdc.val % 8) w) (word (a.1 + b.1 * 65536))
    storeTable tdc r (w + 1) (acc + n0 + n1) b.1 s
  | _, _, _, _, s => s

/-- The new table, B254, reference length and λ of one TDC. -/
def calChannel (s : State) (tdc : Fin 128) (hist : List Nat) (len : Nat) : State :=
  let s := storeTable tdc hist 0 0 0 s
  let b := s.fit16 0 (((hist.take 255).sum + 32) / 64)
  let s := b.2.wr (R.TDC_B254 tdc) (word b.1)
  (s.wr (R.TDC_LLM_RATIO tdc) (word 65536)).setCh tdc (fun C => { C with lcal := len, badWords := [] })

end State

/-- TDC_CAL_AUTO: the system controller calibrates an idle group whose calibration is due (R29). -/
def execTdcCalAuto (g : Fin 16) (s : State) : Host.Outcome State Fault Refusal :=
  if s.fb (R.TDC_CAL_CTL g) 0 && s.grp[g].calDue && s.groupIdle g && decide (s.phase ≠ 15) then .next (s.calStart g) else .next s

/-- TDC_CAL_DONE: calibration of a group completes with the histogram and the twin-line length of each of its channels
(R28, R29). -/
def execTdcCalDone (g : Fin 16) (hists : List (List Nat)) (lens : List Nat) (s : State) : Host.Outcome State Fault Refusal :=
  if !calWf hists lens then .fault .illFormed
  else match s.grp[g].calAt with
  | none => .next s
  | some _ =>
    let s := forAll (List.range 8) s (fun j s => s.calChannel (State.chOf g j) (hists.getD j []) (lens.getD j 0))
    let temp := s.f (R.TDC_CAL_TEMP g) 31 16
    let s := s.wrF (R.TDC_CAL_TEMP g) 15 0 temp
    let s := s.setGrp g (fun G => { G with calAt := none, calValid := true })
    let p := s.grpPart g
    let s := s.event p (R.GLB_CT_EVT_CNT p 1) 0x10 0 g none [(2, temp)]
    let s := if s.phase = 3 ∧ (List.finRange 16).all (fun (h : Fin 16) => s.grp[h].calValid) then s.scNote 1 else s
    .next (s.calDueUpdate g)

/-- LINE_LENGTH_MEASURE: the twin lines of all channels have been measured (R33). Before the first calibration there is no
recorded length, and λ is free, as it is where it does not fit 32 bits. -/
def execLineLengthMeasure (lens : List Nat) (s : State) : Host.Outcome State Fault Refusal :=
  if !linesWf lens then .fault .illFormed
  else .next (forAll (List.finRange 128) s (fun c s =>
    let now := lens.getD c.val 1
    let cal := s.ch[c].lcal
    let v := (2 * 65536 * cal + now) / (2 * now)
    if cal = 0 ∨ 4294967296 ≤ v then (s.takeWord.2).wr (R.TDC_LLM_RATIO c) s.takeWord.1
    else s.wr (R.TDC_LLM_RATIO c) (word v)))

end Sys2Proof.Machine
end

