-- ==== Sys2Proof/Machine/Engine.lean ====
section
/-! DEFINITION. The Moth engines (R229 to R252): fetching and decoding, operands, memory, faults, ports, timers, gangs,
starting and stopping. The meaning of each instruction stands in Instructions.lean. -/

namespace Sys2Proof.Machine

open Bits

/-- An instruction word, field by field (R242). -/
structure EngWord where
  op  : Nat
  d   : Nat
  a   : Nat
  b   : Nat
  imm : Nat

/-- The fields of an instruction word (R242). -/
def EngWord.of (w : Word) : EngWord := ⟨fld w 31 26, fld w 25 22, fld w 21 18, fld w 17 14, fld w 17 0⟩

/-- IMM sign-extended, OFF of format B, OFF of format J, in bytes for branches (R242). -/
def EngWord.simm (i : EngWord) : Int := signed 18 i.imm
def EngWord.jump (i : EngWord) : Int := 4 * signed 22 (i.a * 262144 + i.imm)

/-- The CSR numbers of R237, and those software may write. -/
def csrKnown (n : Nat) : Bool := decide (n ≤ 6) || decide (8 ≤ n ∧ n ≤ 15)
def csrWritable (n : Nat) : Bool := n == 0 || n == 1 || n == 4 || decide (8 ≤ n ∧ n ≤ 15)

/-- A word is a legal instruction for a gang of `n` members (R242, R243). -/
def EngWord.legal (i : EngWord) (n : Nat) : Bool :=
  let low : Nat := i.imm % 16384
  if 0x01 ≤ i.op ∧ i.op ≤ 0x0B then low == 0
  else if 0x10 ≤ i.op ∧ i.op ≤ 0x13 then true
  else if 0x14 ≤ i.op ∧ i.op ≤ 0x16 then decide (i.imm < 32)
  else if i.op = 0x17 then i.a == 0 && decide (i.imm < 65536)
  else if i.op = 0x18 ∨ i.op = 0x19 then decide (i.imm < 1024)
  else if i.op = 0x1A then decide (i.imm < 32)
  else if i.op = 0x1B then decide (i.imm < 128)
  else if 0x20 ≤ i.op ∧ i.op ≤ 0x25 then true
  else if 0x28 ≤ i.op ∧ i.op ≤ 0x2F then true
  else match i.op with
    | 0x30 => i.a == 0 && decide (i.imm < 4)
    | 0x31 => i.a == 0 && decide (i.imm < 8)
    | 0x32 => decide (i.a < 4) && decide (i.b < 4) && low == 0
    | 0x33 => i.imm == 0
    | 0x34 => i.d == 0 && decide (i.imm < 60)
    | 0x35 => decide (i.d < 4) && decide (i.imm / 256 ≤ 240)
    | 0x36 => i.d == 0 && decide (i.imm < 16) && decide (i.imm < n)
    | 0x37 => i.a == 0 && i.imm == 0
    | 0x38 => decide (i.imm < 8192) && decide (i.imm / 256 % 16 = 0) && csrKnown (i.imm % 256) &&
        (decide (i.imm / 4096 = 0) || csrWritable (i.imm % 256))
    | 0x39 => i.d == 0 && i.a == 0 && i.imm == 0
    | 0x3A => i.d == 0 && i.a == 0 && i.imm == 0
    | _ => false

namespace State

/-- Register `n` of an engine: g0 reads zero (R229). -/
def gpr (s : State) (e : Fin 256) (n : Nat) : Word := if n % 16 = 0 then 0#32 else s.eng[e].regs[Fin.ofNat 16 n]

/-- Write register `n`: writes to g0 are discarded. -/
def setGpr (s : State) (e : Fin 256) (n : Nat) (w : Word) : State :=
  if n % 16 = 0 then s else s.setEng e (fun E => { E with regs := E.regs.set (Fin.ofNat 16 n) w })

/-- CODE_SIZE and the entry address of an engine (ME_CODE, ME_ENTRY). -/
def codeSize (s : State) (e : Fin 256) : Nat :=
  let n := s.f (engReg R.ME_CODE e) 16 0
  if n = 0x1FFFF then 131072 else n
def entryPc (s : State) (e : Fin 256) : Nat := s.f (engReg R.ME_ENTRY e) 16 0

/-- An address lies in the data region (R232): above the code, and below the slice buffer in a gang member. -/
def inData (s : State) (e : Fin 256) (a n : Nat) : Bool :=
  decide (s.codeSize e ≤ a ∧ a + n ≤ (if 1 < s.gangSize e then 65536 else 131072))

/-- A word of an engine's scratchpad. -/
def padRd (s : State) (e : Fin 256) (a : Nat) : Word := s.sramRd (sramAt 1 e a)
def padWr (s : State) (e : Fin 256) (a : Nat) (w : Word) : State := s.sramWr (sramAt 1 e a) w

/-- The instruction at the engine's pc. -/
def engWord (s : State) (e : Fin 256) : EngWord := EngWord.of (s.padRd e s.eng[e].pc)

/-- The pc lies in the code region (R232). -/
def pcOk (s : State) (e : Fin 256) : Bool := decide (s.eng[e].pc + 4 ≤ s.codeSize e ∧ s.eng[e].pc % 4 = 0)

/-- Event `k` of an engine (R251). -/
def meEvent (s : State) (e : Fin 256) (k : Nat) (t : Option Stamp) (items : List (Nat × Nat)) : State :=
  s.event (s.pmap.me[e]) (R.ME_EVT_CNT (e.val / 64) (e.val % 64) k) 0x40 k e t items

/-- The members of an engine's gang, itself among them (R249). -/
def gangOf (s : State) (e : Fin 256) : List (Fin 256) :=
  (List.range (s.gangSize e)).map (fun k => Fin.ofNat 256 ((s.gangFirst e).val + k))

/-- One engine enters FAULT (R246). -/
def engStop (s : State) (e : Fin 256) (cause : Nat) : State :=
  let pc := s.eng[e].pc
  let s := (s.wr (engReg R.ME_PC e) (word pc)).wr (engReg R.ME_CAUSE e) (word cause)
  ((s.setEng e (fun E => { E with st := 5 })).faultNote 0x30 e).meEvent e 0 (some s.eng[e].slot[0].stamp) [(1, cause), (4, pc)]

/-- A fault of an engine, and of its gang (R246). -/
def engFault (s : State) (e : Fin 256) (cause : Nat) : State :=
  let s := s.engStop e cause
  forAll ((s.gangOf e).filter (fun m => m ≠ e)) s (fun m s =>
    if s.eng[m].st = 2 ∨ s.eng[m].st = 3 then s.engStop m 6 else s)

/-- The instruction at pc is done: its steps are counted, ME_PC shows it, and the engine goes on at `next` (R243, R247). -/
def retire (s : State) (e : Fin 256) (steps next : Nat) : State :=
  let lo := engReg R.ME_STEP_LO e
  let hi := engReg R.ME_STEP_HI e
  let s := s.wr64 lo hi (s.rd64 lo hi + BitVec.ofNat 64 steps)
  (s.wr (engReg R.ME_PC e) (word s.eng[e].pc)).setEng e (fun E => { E with pc := next })

/-- The engine waits at the present instruction (R230). -/
def block (s : State) (e : Fin 256) : State := s.setEng e (fun E => { E with st := 3 })

/-- An engine executes the instruction at its pc, if it is in RUN, awake, and the word there is the legal instruction `op`.
The fetch may be uncorrectable (R245), a checked result may fail its residue check (R244); else `run` gives the effect. -/
def engRun (s : State) (e : Fin 256) (op : Nat) (checked : Bool) (h : Haz) (run : EngWord → State → State) : State :=
  let i := s.engWord e
  let pc := s.eng[e].pc
  if s.eng[e].st ≠ 2 ∨ !s.pcOk e ∨ i.op ≠ op ∨ !i.legal (s.gangSize e) ∨ s.sleeping 1 e ∨ s.mtStalls 1 e pc true then s
  else
    let s := s.mtTouch 1 e pc
    let (bad, s) := s.sramCheck 1 e pc h.fetch 0
    if bad then s.engFault e 5
    else if checked ∧ h.res = 2 then s.engFault e 4
    else
      let s := if checked ∧ h.res = 1 then s.bump (engReg R.ME_RES_CNT e) else s
      run i s

/-- The read of the head symbol of a gang member's slice buffer (R245, R327): a corrected error, or an uncorrectable word, with
which the symbol is delivered with ERR. The spec does not lay out the buffer: the word address is free. -/
def sliceCheck (s : State) (e : Fin 256) (ecc : Nat) : State :=
  match s.eng[e].fifo with
  | y :: r =>
    if s.gangSize e ≤ 1 ∨ ecc = 0 then s
    else
      let (w, s) := s.takeWord
      let off := 65536 + w.toNat % 65536
      if ecc = 1 then s.sbCe 1 e off
      else (s.setEng e (fun E => { E with fifo := { y with info := y.info ||| 0x80000000#32 } :: r })).sbUe 1 e off 6
  | [] => s

/-- An instruction that writes a register and goes on (R243). -/
def engAlu (s : State) (e : Fin 256) (op : Nat) (checked : Bool) (steps : Nat) (h : Haz) (val : EngWord → Word) : State :=
  s.engRun e op checked h (fun i s => (s.setGpr e i.d (val i)).retire e steps (s.eng[e].pc + 4))

/-- A branch (R242, R243). -/
def engBranch (s : State) (e : Fin 256) (op : Nat) (h : Haz) (test : Word → Word → Bool) : State :=
  s.engRun e op true h (fun i s =>
    let pc := s.eng[e].pc
    if test (s.gpr e i.d) (s.gpr e i.a) then s.retire e 2 (BitVec.ofInt 32 ((pc : Int) + 4 * i.simm)).toNat else s.retire e 1 (pc + 4))

/-- A load or store of `n` bytes (R232, R243, R245): misaligned, out of the data region, stalled, or served. -/
def engMem (s : State) (e : Fin 256) (op n : Nat) (load rmw : Bool) (h : Haz) (serve : EngWord → Nat → State → State) : State :=
  s.engRun e op true h (fun i s0 =>
    let a := (s0.gpr e i.a + BitVec.ofInt 32 i.simm).toNat
    if a % n ≠ 0 then s0.engFault e 2
    else if !s0.inData e a n then s0.engFault e 3
    else if s0.mtStalls 1 e a true then s
    else
      let s1 := s0.mtTouch 1 e a
      if load || rmw then
        let (bad, s2) := s1.sramCheck 1 e a h.data 0
        if bad then s2.engFault e 5 else (serve i a s2).retire e 1 (s2.eng[e].pc + 4)
      else (serve i a s1).retire e 1 (s1.eng[e].pc + 4))

/-- The `n` bytes at an address of the scratchpad, within one word. -/
def padLoad (s : State) (e : Fin 256) (a n : Nat) : Word :=
  word ((s.padRd e a).toNat / 2 ^ (8 * (a % 4)) % 2 ^ (8 * n))

/-- Store the low `n` bytes of a word. -/
def padStore (s : State) (e : Fin 256) (a n : Nat) (w : Word) : State :=
  let lo := 8 * (a % 4)
  s.padWr e a (setFld (s.padRd e a) (lo + 8 * n - 1) lo w.toNat)

/-! ## Symbols (R233 to R235, R249) -/

/-- The capacity of the stream FIFO, or of a slice buffer. -/
def fifoCap (s : State) (e : Fin 256) : Nat := if 1 < s.gangSize e then 4096 else 64

/-- An engine takes symbols: it is in RUN or WAIT (R231). -/
def engOn (s : State) (e : Fin 256) : Bool := s.eng[e].st == 2 || s.eng[e].st == 3

/-- The LOSS symbol of R235: COAST, EPOCH, ROLE and CHANNEL are those of the first dropped symbol, whose stamp it carries. -/
def lossSym (l : SymLoss) : Sym := ⟨l.stamp, word l.count, setFld (l.info &&& 0x60C0007F#32) 21 16 0x10, false⟩

/-- When room returns, a LOSS symbol goes to the tail (R235). -/
def lossRoom (s : State) (e : Fin 256) : State :=
  match s.eng[e].loss with
  | some l => if s.eng[e].fifo.length < s.fifoCap e then s.setEng e (fun E => { E with fifo := E.fifo ++ [lossSym l], loss := none }) else s
  | none => s

/-- A symbol reaches the FIFO or the slice buffer (R235, R249). -/
def pushSym (s : State) (e : Fin 256) (y : Sym) : State :=
  let s := s.lossRoom e
  if s.eng[e].loss.isNone && decide (s.eng[e].fifo.length < s.fifoCap e) then s.setEng e (fun E => { E with fifo := E.fifo ++ [y] })
  else
    let l : SymLoss := match s.eng[e].loss with
      | some l => { l with count := l.count + 1 }
      | none => ⟨y.stamp, 1, y.info⟩
    let s := (s.setEng e (fun E => { E with loss := some l })).bump (engReg R.ME_LOSS_CNT e)
    if s.eng[e].lossSeen then s else (s.setEng e (fun E => { E with lossSeen := true })).meEvent e 1 (some l.stamp) []

/-- A symbol reaches a gang member, or is discarded (R231). -/
def toMember (s : State) (e : Fin 256) (y : Sym) : State :=
  if s.engOn e then s.pushSym e y else s.bump (engReg R.ME_DISC_CNT e)

/-- A symbol with its ROLE (R216). -/
def Sym.role (y : Sym) (r : Nat) : Sym := { y with info := setFld y.info 23 22 r }


/-- The distributor of a gang (R249). -/
def gangSt (s : State) (e : Fin 256) : GangSt := Tab.get (fun _ => {}) s.gang e
def setGang (s : State) (e : Fin 256) (g : GangSt) : State := { s with gang := Tab.set (fun _ => {}) s.gang e g }

/-- The member that takes a slice. -/
def sliceMember (s : State) (e : Fin 256) (n : Nat) : Fin 256 := Fin.ofNat 256 (e.val + n % s.gangSize e)

/-- A symbol of slice `n` goes to the slice's member (R249): it waits while an earlier slice of that member is not complete. -/
def toSlice (s : State) (e : Fin 256) (n : Nat) (y : Sym) : State :=
  let G := s.gangSt e
  let earlier (m : Nat) : Bool := decide (m < n) && s.sliceMember e m == s.sliceMember e n
  if G.ahead.any (fun a => earlier a.1) || G.held.any (fun h => earlier h.1) then s.setGang e { G with held := G.held ++ [(n, y)] }
  else s.toMember (s.sliceMember e n) y

/-- Slice `n` is complete: its SLICE_END follows symbol `y`, then what waited for it (R217, R249). The spec gives SLICE_END no stamp: a
free value. -/
def sliceEnd (s : State) (e : Fin 256) (y : Sym) (n : Nat) : State :=
  let (hi, s) := s.takeWord
  let (lo, s) := s.takeWord
  let t : Stamp := hi ++ lo
  let info := symInfo (fld y.info 6 0) 0x14 0 0 false (s.coastAt t) (s.epochBetween y.stamp t) false false
  let s := s.toSlice e n ⟨t, word n, info, false⟩
  let G := s.gangSt e
  forAll G.held (s.setGang e { G with ahead := G.ahead.filter (fun a => a.1 ≠ n), held := [] }) (fun h s => s.toSlice e h.1 h.2)

/-- The slices that take look-ahead take one symbol (R249). -/
def lookAhead (s : State) (e : Fin 256) (y : Sym) : State :=
  forAll (s.gangSt e).ahead s (fun a s =>
    let s := s.toSlice e a.1 (Sym.role y 2)
    if a.2 ≤ 1 then s.sliceEnd e y a.1
    else
      let G := s.gangSt e
      s.setGang e { G with ahead := G.ahead.map (fun b => if b.1 = a.1 then (b.1, b.2 - 1) else b) })

/-- The distributor takes one symbol of its extractor (R249). `stop` says that the group's stop cuts the slice short. -/
def distribute (s : State) (e : Fin 256) (y : Sym) (slice ovl : Nat) (stop : Bool) : State :=
  let s := s.lookAhead e y
  let G := s.gangSt e
  let n := G.slice
  let s := if G.own = 0 ∧ n ≠ 0 then forAll G.hist s (fun h s => s.toSlice e n (Sym.role h 1)) else s
  let s := s.toSlice e n y
  let G := s.gangSt e
  let hist := (G.hist ++ [y]).drop (G.hist.length + 1 - ovl)
  if stop then
    let s := (forAll G.ahead s (fun a s => s.sliceEnd e y a.1)).sliceEnd e y n
    s.setGang e { s.gangSt e with slice := n + 1, own := 0, hist := [] }
  else if slice ≤ G.own + 1 then
    if ovl = 0 then
      let s := s.sliceEnd e y n
      s.setGang e { s.gangSt e with slice := n + 1, own := 0, hist := hist }
    else s.setGang e { G with slice := n + 1, own := 0, hist := hist, ahead := G.ahead ++ [(n, ovl)] }
  else s.setGang e { G with own := G.own + 1, hist := hist }

/-- An extractor delivers its oldest symbol to its port (R227): to the engine that merges it (R233), or to the gang. -/
def deliverSym (s : State) (x : Fin 128) : State :=
  match s.xt[x].out with
  | [] => s
  | y :: r =>
    let s := (s.setXt x (fun X => { X with out := r })).bump (R.ME_X_SYM_CNT x)
    let e := s.xtTarget x
    if 1 < s.gangSize e then
      s.distribute e y (max 1 (s.f (R.ME_X_TGT x) 23 12)) (s.f (R.ME_X_TGT x) 31 24) (fld y.info 21 16 == 0x12 && y.data == 2#32)
    else if s.engOn e then
      let key (z : Sym) : Nat := fld z.info 6 0
      s.setEng e (fun E => { E with
        merge := insertBy (fun a b => if a.stamp = b.stamp then key a ≤ key b else before a.stamp b.stamp) y E.merge })
    else s.bump (engReg R.ME_DISC_CNT e)

/-- The extractors bound to an engine or its gang that are active, or have symbols left to deliver. -/
def boundXts (s : State) (e : Fin 256) : List (Fin 128) :=
  (List.finRange 128).filter (fun x => (s.xt[x].active || !s.xt[x].out.isEmpty) && s.xtTarget x == s.gangFirst e)

/-- An extractor has produced everything that the edges up to 32 ns ago decide. -/
def xtNow (s : State) (x : Fin 128) : State := s.xtAdvance x (s.now - lagTu)

/-- Every extractor of a port has produced what is known by now. -/
def portFed (s : State) (e : Fin 256) : State := forAll (s.settle.boundXts e) s.settle (fun x s => s.xtNow x)

/-- The stream horizon of a port (R233). -/
def portHorizon (s : State) (e : Fin 256) : Stamp :=
  (earliest ((s.boundXts e).map s.xtHorizon)).getD (s.now - 307200#64)

/-- The port releases a symbol into the FIFO (R233). -/
def releaseSym (s : State) (e : Fin 256) : State :=
  match s.eng[e].merge with
  | y :: r => if before y.stamp (s.portHorizon e) then (s.setEng e (fun E => { E with merge := r })).pushSym e y else s
  | [] => s

/-- The deadline of a timer whose event is pending (R236): the port's stream horizon has passed it, and no symbol at or below it is
left. -/
def timerPend (s : State) (e : Fin 256) (t : Fin 2) : Option Stamp :=
  s.eng[e].timer[t].at_.filter (fun d => s.eng[e].timer[t].pend ||
    (before d (s.portHorizon e) && (s.eng[e].fifo ++ s.eng[e].merge).all (fun y => before d y.stamp)))

/-- A timer's event has become pending: it stays so until it is taken or cancelled. -/
def timerDue (s : State) (e : Fin 256) (t : Fin 2) : State :=
  if (s.timerPend e t).isSome then s.setEng e (fun E => { E with timer := E.timer.set t { E.timer[t] with pend := true } }) else s

/-- The event WAIT takes, among those enabled and pending (R238): its code. -/
def takeEvent (s : State) (e : Fin 256) : Option Nat :=
  let E := s.eng[e]
  let on (k : Nat) : Bool := E.emask.testBit k
  let sym := if on 0 then (E.fifo.head?.map (fun y => (y.stamp, 0))).toList else []
  let tim (k : Nat) (t : Fin 2) : List (Stamp × Nat) := if on k then ((s.timerPend e t).map (fun d => (d, k))).toList else []
  let l := sym ++ tim 1 0 ++ tim 2 1
  match l.foldl (fun b x => match b with
      | none => some x
      | some y => if before x.1 y.1 then some x else some y) (none : Option (Stamp × Nat)) with
  | some x => some x.2
  | none => if on 3 && !E.link.isEmpty then some 3 else if on 4 && E.kicked then some 4 else none

/-! ## Messages (R239, R250) -/

/-- Every slice below `n` of a gang is done: its member has gone on. -/
def sliceDone (s : State) (e : Fin 256) (n : Nat) : Bool := decide (n < s.eng[s.sliceMember (s.gangFirst e) n].work)

/-- The message may leave for the port: an engine alone sends at once, a gang member in slice order (R250). -/
def mayRelease (s : State) (e : Fin 256) (m : OutMsg) : Bool :=
  s.gangSize e == 1 || ((m.slice == 0 || s.sliceDone e (m.slice - 1)) &&
    (s.gangOf e).all (fun k => s.eng[k].hold.all (fun o => decide (m.slice ≤ o.slice))))

/-- The port of a gang member waits while another member's port holds a message of an earlier slice (R250). -/
def portTurn (s : State) (e : Fin 256) (m : OutMsg) : Bool :=
  s.gangSize e == 1 || (s.gangOf e).all (fun k => s.eng[k].port.all (fun o => decide (m.slice ≤ o.slice)))

/-- MSND finds room (R239, R250). -/
def msgRoom (s : State) (e : Fin 256) : Bool :=
  if 1 < s.gangSize e then decide (s.eng[e].hold.length < 64) else decide (s.eng[e].port.length < 4)

/-- A message enters the output port, and the matchers see it (R239). -/
def toPort (s : State) (e : Fin 256) (m : OutMsg) : State :=
  let s := s.setEng e (fun E => { E with port := E.port ++ [m] })
  s.setQm (fun Q => { Q with mm := Q.mm ++ [⟨s.pmap.me[e], m.queue, m.type, m.stamp, m.src.testBit 8, m.src.testBit 9,
    BitVec.ofNat 64 (leAt m.bytes 0 8)⟩] })

/-- A waiting message of a gang member is released (R250). -/
def gangRelease (s : State) (e : Fin 256) : State :=
  match s.eng[e].hold with
  | m :: r => if s.mayRelease e m && decide (s.eng[e].port.length < 4) then (s.setEng e (fun E => { E with hold := r })).toPort e m else s
  | [] => s

/-- The 16-bit SRC value of a message of a port (R257). -/
def OutMsg.srcWord (m : OutMsg) : Nat := m.src + 2048 * ((m.bytes.length - 16 + 31) / 32)

/-- Among the messages that wait in ports for one queue, the one with the smallest SRC is first (R261). -/
def srcTurn (s : State) (e : Fin 256) (m : OutMsg) : Bool :=
  (List.finRange 256).all (fun k => match s.eng[k].port with
    | [] => true
    | o :: _ => k == e || o.queue != m.queue || decide (OutMsg.srcWord m ≤ OutMsg.srcWord o) || !s.portTurn k o)

/-- The oldest message of a port reaches the queue manager (R239, R260): it leaves the port unless it is held back. -/
def portSend (s : State) (e : Fin 256) : State :=
  match s.eng[e].port with
  | [] => s
  | m :: r =>
    if !s.portTurn e m || !s.srcTurn e m then s else
    let (ans, s) := s.qAccept (s.pmap.me[e]) m.queue ⟨m.stamp, m.type, m.bytes, m.src⟩
    match ans with
    | .held => s
    | .accepted => s.setEng e (fun E => { E with port := r })
    | .refused =>
      let s := (s.setEng e (fun E => { E with port := r })).bump (engReg R.ME_MDROP_CNT e)
      if s.eng[e].dropSeen then s else (s.setEng e (fun E => { E with dropSeen := true })).meEvent e 2 none [(2, m.queue)]

/-! ## Starting and stopping (R231) -/

/-- The counters that restart at each start of an engine. -/
def engCounters (e : Fin 256) : List Nat :=
  [R.ME_STEP_LO, R.ME_STEP_HI, R.ME_MSG_CNT, R.ME_LOSS_CNT, R.ME_DISC_CNT, R.ME_RES_CNT, R.ME_ECC_CNT, R.ME_MDROP_CNT].map
    (fun r => engReg r e) ++ [0, 1, 2, 3].map (fun k => R.ME_EVT_CNT (e.val / 64) (e.val % 64) k)

/-- The slice that an engine works on first: the first that its gang's distributor has still to fill or finish for it (R249). -/
def firstWork (s : State) (e : Fin 256) : Nat :=
  let n := s.gangSize e
  let m := (s.gangSt (s.gangFirst e)).slice
  m + (e.val - (s.gangFirst e).val + n - m % n) % n

/-- A start of an engine (R231). -/
def engStart (s : State) (e : Fin 256) : State :=
  let s := forAll (engCounters e) s (fun a s => s.wr a 0#32)
  let work := s.firstWork e
  s.setEng e (fun E => { E with
    st := 2, pc := s.entryPc e, regs := Vector.replicate 16 0, slot := Vector.replicate 4 {}, latch := none, sflags := 0,
    buf := Vector.replicate 60 0, timer := Vector.replicate 2 {}, link := [], emask := 0, vbase := 0, merge := [], fifo := [],
    loss := none, lossSeen := false, dropSeen := false, work := work, goWait := none })

/-- One engine of a ME_GO (R231, R336): started, woken first, or ignored and logged. -/
def engGo (s : State) (c : Part) (e : Fin 256) : State :=
  if s.eng[e].st = 1 ∨ s.eng[e].st = 4 ∨ s.eng[e].st = 5 then
    if s.sleeping 1 e then (s.wakeArr 1 e).setEng e (fun E => { E with goWait := some (E.goWait.getD s.tb.count) }) else s.engStart e
  else s.ignored c

/-- The engines that some bits of ME_GO or ME_STOP name, with their gangs (R231). -/
def namedEngs (s : State) (l : List (Fin 256)) : List (Fin 256) := (l.flatMap (fun e => s.gangOf e)).eraseDups

/-- One engine of a ME_STOP (R231). -/
def engHalt (s : State) (e : Fin 256) : State := if s.engOn e then s.setEng e (fun E => { E with st := 4 }) else s

/-- A PERST# of the partition (R252). -/
def engPerst (s : State) (e : Fin 256) : State :=
  if s.eng[e].st = 0 then s
  else
    let E := s.eng[e]
    (s.setEng e (fun _ => { ({} : EngSt) with st := 1, prot := E.prot })).wr (engReg R.ME_PC e) 0#32

/-! ## ME_SPD (R232) -/

/-- A read of ME_SPD: the word, and the state after it. -/
def spdRead (s : State) (c : Part) (e : Fin 256) (ecc : Nat) : Word × State :=
  let a := s.f (engReg R.ME_SPA e) 16 2 * 4
  let step (s : State) : State := s.wrF (engReg R.ME_SPA e) 16 2 (a / 4 + 1)
  if s.eng[e].st = 0 then (0#32, s)
  else if s.inData e a 4 then
    let s := (s.sramCheck 1 e a ecc 1).2
    (s.padRd e a, step s)
  else (0#32, step (s.ignored c))

/-- A write of ME_SPD (R328: the merged word of a damaged word stays damaged). -/
def spdWrite (s : State) (c : Part) (e : Fin 256) (w : Word) (ecc : Nat) : State :=
  let a := s.f (engReg R.ME_SPA e) 16 2 * 4
  if s.eng[e].st = 1 ∨ s.eng[e].st = 4 ∨ s.eng[e].st = 5 then
    let step (s : State) : State := s.wrF (engReg R.ME_SPA e) 16 2 (a / 4 + 1)
    if s.inData e a 4 then step ((s.sramCheck 1 e a ecc 1).2.padWr e a w) else step (s.ignored c)
  else s.ignored c

end State
end Sys2Proof.Machine
end

