-- ==== Sys2Proof/Machine/Instructions.lean ====
section
/-! DEFINITION. The meanings of the 48 instructions of the Moth engines (R243), of an illegal fetch (R242), and of an
engine that goes on after it has waited (R230). Each executes at engine `e` only if the word at its pc is that
instruction. -/

namespace Sys2Proof.Machine

open Bits State

/-- A word that is 1 or 0. -/
def wordOf (b : Bool) : Word := if b then 1#32 else 0#32

/-- ADD: d = a + b. -/
def execAdd (e : Fin 256) (h : Haz) (s : State) : Host.Outcome State Fault Refusal := .next <|
  s.engAlu e 0x01 true 1 h (fun i => s.gpr e i.a + s.gpr e i.b)

/-- SUB: d = a − b. -/
def execSub (e : Fin 256) (h : Haz) (s : State) : Host.Outcome State Fault Refusal := .next <|
  s.engAlu e 0x02 true 1 h (fun i => s.gpr e i.a - s.gpr e i.b)

/-- AND: d = a & b. -/
def execAnd (e : Fin 256) (h : Haz) (s : State) : Host.Outcome State Fault Refusal := .next <|
  s.engAlu e 0x03 true 1 h (fun i => s.gpr e i.a &&& s.gpr e i.b)

/-- OR: d = a | b. -/
def execOr (e : Fin 256) (h : Haz) (s : State) : Host.Outcome State Fault Refusal := .next <|
  s.engAlu e 0x04 true 1 h (fun i => s.gpr e i.a ||| s.gpr e i.b)

/-- XOR: d = a ^ b. -/
def execXor (e : Fin 256) (h : Haz) (s : State) : Host.Outcome State Fault Refusal := .next <|
  s.engAlu e 0x05 true 1 h (fun i => s.gpr e i.a ^^^ s.gpr e i.b)

/-- SLL: d = a << (b & 31). -/
def execSll (e : Fin 256) (h : Haz) (s : State) : Host.Outcome State Fault Refusal := .next <|
  s.engAlu e 0x06 true 1 h (fun i => s.gpr e i.a <<< ((s.gpr e i.b).toNat % 32))

/-- SRL: d = a >> (b & 31), logical. -/
def execSrl (e : Fin 256) (h : Haz) (s : State) : Host.Outcome State Fault Refusal := .next <|
  s.engAlu e 0x07 true 1 h (fun i => s.gpr e i.a >>> ((s.gpr e i.b).toNat % 32))

/-- SRA: d = a >> (b & 31), arithmetic. -/
def execSra (e : Fin 256) (h : Haz) (s : State) : Host.Outcome State Fault Refusal := .next <|
  s.engAlu e 0x08 true 1 h (fun i => (s.gpr e i.a).sshiftRight ((s.gpr e i.b).toNat % 32))

/-- MUL: d = the low 32 bits of a × b. -/
def execMul (e : Fin 256) (h : Haz) (s : State) : Host.Outcome State Fault Refusal := .next <|
  s.engAlu e 0x09 true 2 h (fun i => s.gpr e i.a * s.gpr e i.b)

/-- SLT: d = (a < b, signed). -/
def execSlt (e : Fin 256) (h : Haz) (s : State) : Host.Outcome State Fault Refusal := .next <|
  s.engAlu e 0x0A true 1 h (fun i => wordOf ((s.gpr e i.a).slt (s.gpr e i.b)))

/-- SLTU: d = (a < b, unsigned). -/
def execSltu (e : Fin 256) (h : Haz) (s : State) : Host.Outcome State Fault Refusal := .next <|
  s.engAlu e 0x0B true 1 h (fun i => wordOf ((s.gpr e i.a).ult (s.gpr e i.b)))

/-- ADDI: d = a + sext(IMM). -/
def execAddi (e : Fin 256) (h : Haz) (s : State) : Host.Outcome State Fault Refusal := .next <|
  s.engAlu e 0x10 true 1 h (fun i => s.gpr e i.a + BitVec.ofInt 32 i.simm)

/-- ANDI: d = a & zext(IMM). -/
def execAndi (e : Fin 256) (h : Haz) (s : State) : Host.Outcome State Fault Refusal := .next <|
  s.engAlu e 0x11 true 1 h (fun i => s.gpr e i.a &&& word i.imm)

/-- ORI: d = a | zext(IMM). -/
def execOri (e : Fin 256) (h : Haz) (s : State) : Host.Outcome State Fault Refusal := .next <|
  s.engAlu e 0x12 true 1 h (fun i => s.gpr e i.a ||| word i.imm)

/-- XORI: d = a ^ zext(IMM). -/
def execXori (e : Fin 256) (h : Haz) (s : State) : Host.Outcome State Fault Refusal := .next <|
  s.engAlu e 0x13 true 1 h (fun i => s.gpr e i.a ^^^ word i.imm)

/-- SLLI: d = a << IMM[4:0]. -/
def execSlli (e : Fin 256) (h : Haz) (s : State) : Host.Outcome State Fault Refusal := .next <|
  s.engAlu e 0x14 true 1 h (fun i => s.gpr e i.a <<< (i.imm % 32))

/-- SRLI: d = a >> IMM[4:0], logical. -/
def execSrli (e : Fin 256) (h : Haz) (s : State) : Host.Outcome State Fault Refusal := .next <|
  s.engAlu e 0x15 true 1 h (fun i => s.gpr e i.a >>> (i.imm % 32))

/-- SRAI: d = a >> IMM[4:0], arithmetic. -/
def execSrai (e : Fin 256) (h : Haz) (s : State) : Host.Outcome State Fault Refusal := .next <|
  s.engAlu e 0x16 true 1 h (fun i => (s.gpr e i.a).sshiftRight (i.imm % 32))

/-- LUI: d = IMM[15:0] << 16. -/
def execLui (e : Fin 256) (h : Haz) (s : State) : Host.Outcome State Fault Refusal := .next <|
  s.engAlu e 0x17 false 1 h (fun i => word (i.imm % 65536 * 65536))

/-- EXT: d = bits [p + m : p] of a, with p = IMM[4:0] and m = IMM[9:5]; bits above 31 read zero. -/
def execExt (e : Fin 256) (h : Haz) (s : State) : Host.Outcome State Fault Refusal := .next <|
  s.engAlu e 0x18 true 1 h (fun i => word ((s.gpr e i.a).toNat / 2 ^ (i.imm % 32) % 2 ^ (i.imm / 32 % 32 + 1)))

/-- INS: bits [p + m : p] of d take the low bits of a; bits above 31 are dropped. -/
def execIns (e : Fin 256) (h : Haz) (s : State) : Host.Outcome State Fault Refusal := .next <|
  s.engAlu e 0x19 true 1 h (fun i =>
    let p := i.imm % 32
    let m : Word := BitVec.ofNat 32 ((2 ^ (i.imm / 32 % 32 + 1) - 1) * 2 ^ p)
    (s.gpr e i.d &&& ~~~m) ||| ((s.gpr e i.a <<< p) &&& m))

/-- REV: d = the low IMM[4:0] + 1 bits of a in reverse order. -/
def execRev (e : Fin 256) (h : Haz) (s : State) : Host.Outcome State Fault Refusal := .next <|
  s.engAlu e 0x1A false 1 h (fun i =>
    let n := i.imm % 32 + 1
    word (((List.range n).map (fun k => if (s.gpr e i.a).getLsbD k then 2 ^ (n - 1 - k) else 0)).sum))

/-- One step of R241 for one data bit. -/
def crcStep (msbf : Bool) (w : Nat) (poly : Word) (d : Word) (b : Bool) : Word :=
  if msbf then
    let fb := b != d.getLsbD (w - 1)
    let d' := word ((d.toNat * 2) % 2 ^ w)
    if fb then d' ^^^ poly else d'
  else
    let fb := b != d.getLsbD 0
    let d' := d >>> 1
    if fb then d' ^^^ poly else d'

/-- CRC: d is updated with IMM[4:0] + 1 bits of a, using slot IMM[6:5] (R241). -/
def execCrc (e : Fin 256) (h : Haz) (s : State) : Host.Outcome State Fault Refusal := .next <|
  s.engRun e 0x1B false h (fun i t =>
    let n := i.imm % 32 + 1
    let j := Fin.ofNat 4 (i.imm / 32)
    let ctl := s.eng[e].crcc[j]
    let msbf := ctl.testBit 5
    let a := s.gpr e i.a
    let bits := (List.range n).map (fun k => a.getLsbD (if msbf then n - 1 - k else k))
    let v := bits.foldl (crcStep msbf (ctl % 32 + 1) s.eng[e].crcp[j]) (s.gpr e i.d)
    (t.setGpr e i.d v).retire e (1 + i.imm % 32 / 8) (t.eng[e].pc + 4))

/-- LW: d = the word at a + sext(IMM). -/
def execLw (e : Fin 256) (h : Haz) (s : State) : Host.Outcome State Fault Refusal := .next <|
  s.engMem e 0x20 4 true false h (fun i a t => t.setGpr e i.d (t.padLoad e a 4))

/-- SW: the word at a + sext(IMM) = d. A write of half an ECC word is a read-modify-write (R325, R327, R328). -/
def execSw (e : Fin 256) (h : Haz) (s : State) : Host.Outcome State Fault Refusal := .next <|
  s.engMem e 0x21 4 false true h (fun i a t => t.padStore e a 4 (t.gpr e i.d))

/-- LHU: d = the halfword, zero-extended. -/
def execLhu (e : Fin 256) (h : Haz) (s : State) : Host.Outcome State Fault Refusal := .next <|
  s.engMem e 0x22 2 true false h (fun i a t => t.setGpr e i.d (t.padLoad e a 2))

/-- SH: the halfword = the low 16 bits of d, by read-modify-write (R325, R327). -/
def execSh (e : Fin 256) (h : Haz) (s : State) : Host.Outcome State Fault Refusal := .next <|
  s.engMem e 0x23 2 false true h (fun i a t => t.padStore e a 2 (t.gpr e i.d))

/-- LBU: d = the byte, zero-extended. -/
def execLbu (e : Fin 256) (h : Haz) (s : State) : Host.Outcome State Fault Refusal := .next <|
  s.engMem e 0x24 1 true false h (fun i a t => t.setGpr e i.d (t.padLoad e a 1))

/-- SB: the byte = the low 8 bits of d, by read-modify-write (R325, R327). -/
def execSb (e : Fin 256) (h : Haz) (s : State) : Host.Outcome State Fault Refusal := .next <|
  s.engMem e 0x25 1 false true h (fun i a t => t.padStore e a 1 (t.gpr e i.d))

/-- BEQ: branch if a = b. -/
def execBeq (e : Fin 256) (h : Haz) (s : State) : Host.Outcome State Fault Refusal :=
  .next <| s.engBranch e 0x28 h (fun a b => a == b)

/-- BNE: branch if a ≠ b. -/
def execBne (e : Fin 256) (h : Haz) (s : State) : Host.Outcome State Fault Refusal :=
  .next <| s.engBranch e 0x29 h (fun a b => a != b)

/-- BLT: branch if a < b, signed. -/
def execBlt (e : Fin 256) (h : Haz) (s : State) : Host.Outcome State Fault Refusal :=
  .next <| s.engBranch e 0x2A h (fun a b => a.slt b)

/-- BGE: branch if a ≥ b, signed. -/
def execBge (e : Fin 256) (h : Haz) (s : State) : Host.Outcome State Fault Refusal :=
  .next <| s.engBranch e 0x2B h (fun a b => !a.slt b)

/-- BLTU: branch if a < b, unsigned. -/
def execBltu (e : Fin 256) (h : Haz) (s : State) : Host.Outcome State Fault Refusal :=
  .next <| s.engBranch e 0x2C h (fun a b => a.ult b)

/-- BGEU: branch if a ≥ b, unsigned. -/
def execBgeu (e : Fin 256) (h : Haz) (s : State) : Host.Outcome State Fault Refusal :=
  .next <| s.engBranch e 0x2D h (fun a b => !a.ult b)

/-- JAL: d = pc + 4; jump to pc + 4 × OFF. -/
def execJal (e : Fin 256) (h : Haz) (s : State) : Host.Outcome State Fault Refusal := .next <|
  s.engRun e 0x2E true h (fun i t =>
    let pc := t.eng[e].pc
    (t.setGpr e i.d (word (pc + 4))).retire e 2 (BitVec.ofInt 32 ((pc : Int) + i.jump)).toNat)

/-- JALR: d = pc + 4; pc = (a + sext(IMM)) & ~3. -/
def execJalr (e : Fin 256) (h : Haz) (s : State) : Host.Outcome State Fault Refusal := .next <|
  s.engRun e 0x2F true h (fun i t =>
    let pc := t.eng[e].pc
    let to_ := (t.gpr e i.a + BitVec.ofInt 32 i.simm) &&& 0xFFFFFFFC#32
    (t.setGpr e i.d (word (pc + 4))).retire e 2 to_.toNat)

/-- SPOP: pop the head symbol (R234), or wait for one. A gang member that pops a SLICE_END is done with its slice (R250). -/
def execSpop (e : Fin 256) (h : Haz) (s : State) : Host.Outcome State Fault Refusal := .next <|
  s.engRun e 0x30 false h (fun i t =>
    let t := t.sliceCheck e h.data
    match t.eng[e].fifo with
    | [] => t.block e
    | y :: r =>
      let err := bit y.info 31
      let coast := bit y.info 30
      let type := fld y.info 21 16
      let t := t.setEng e (fun E => { E with
        fifo := r, latch := some y, slot := E.slot.set (Fin.ofNat 4 i.imm) ⟨y.stamp, coast, err⟩,
        sflags := E.sflags ||| (b2n coast + 2 * b2n err + 4 * b2n (type == 0x10)),
        work := if type = 0x14 then y.data.toNat + t.gangSize e else E.work })
      ((t.lossRoom e).setGpr e i.d y.data).retire e 1 (t.eng[e].pc + 4))

/-- The bits of `data` whose mask bit is 0, packed from bit 0 upward (R234, field 5). -/
def destuff (data mask : Nat) : Nat :=
  ((List.range 16).foldl (fun (acc : Nat × Nat) k =>
    if mask.testBit k then acc else (acc.1 + (if data.testBit k then 2 ^ acc.2 else 0), acc.2 + 1)) (0, 0)).1

/-- A field of a symbol (R234, fields 0 to 6). -/
def symField (y : Sym) (n : Nat) : Word :=
  let d := y.data.toNat
  let nbits := fld y.info 15 8
  match n with
  | 0 => y.data
  | 1 => y.info
  | 2 => lo32 y.stamp
  | 3 => hi32 y.stamp
  | 4 => if y.stuffed then word (d / 65536) else 0#32
  | 5 => if y.stuffed then word (destuff (d % 65536) (d / 65536)) else y.data
  | _ => if y.stuffed then word (nbits - ((List.range 16).filter (fun k => (d / 65536).testBit k)).length) else word nbits

/-- SGET: a field of the latched symbol, or INFO of the head symbol (R234). -/
def execSget (e : Fin 256) (h : Haz) (s : State) : Host.Outcome State Fault Refusal := .next <|
  s.engRun e 0x31 false h (fun i t =>
    if i.imm = 7 then
      let t := t.sliceCheck e h.data
      match t.eng[e].fifo with
      | [] => t.block e
      | y :: _ => (t.setGpr e i.d y.info).retire e 1 (t.eng[e].pc + 4)
    else
      let v := match t.eng[e].latch with | some y => symField y i.imm | none => 0#32
      (t.setGpr e i.d v).retire e 1 (t.eng[e].pc + 4))

/-- SDIF: d = slot A − slot B, saturated to signed 32 bits. -/
def execSdif (e : Fin 256) (h : Haz) (s : State) : Host.Outcome State Fault Refusal := .next <|
  s.engAlu e 0x32 true 1 h (fun i =>
    let x := diff s.eng[e].slot[Fin.ofNat 4 i.b].stamp s.eng[e].slot[Fin.ofNat 4 i.a].stamp
    iword (clamp (-2147483648) 2147483647 x))

/-- TSET: arm or cancel a timer (R236). -/
def execTset (e : Fin 256) (h : Haz) (s : State) : Host.Outcome State Fault Refusal := .next <|
  s.engRun e 0x33 true h (fun i t =>
    let k := Fin.ofNat 2 (i.d / 4)
    let tm : TimerSt := if i.d.testBit 3 then {} else
      ⟨some (t.eng[e].slot[Fin.ofNat 4 i.d].stamp + stamp (t.gpr e i.a).toNat), false⟩
    (t.setEng e (fun E => { E with timer := E.timer.set k tm })).retire e 1 (t.eng[e].pc + 4))

/-- MWR: message buffer word IMM[5:0] = a (R239). -/
def execMwr (e : Fin 256) (h : Haz) (s : State) : Host.Outcome State Fault Refusal := .next <|
  s.engRun e 0x34 false h (fun i t =>
    (t.setEng e (fun E => { E with buf := E.buf.set (Fin.ofNat 60 i.imm) (t.gpr e i.a) })).retire e 1 (t.eng[e].pc + 4))

/-- MSND: hand a message to the output port (R239, R250), or wait for room. -/
def execMsnd (e : Fin 256) (h : Haz) (s : State) : Host.Outcome State Fault Refusal := .next <|
  s.engRun e 0x35 false h (fun i t =>
    if !t.msgRoom e then t.block e
    else
      let E := t.eng[e]
      let sl := E.slot[Fin.ofNat 4 i.d]
      let bytes := (E.buf.toList.flatMap wordBytes).take (i.imm / 256)
      let src := e.val + 256 * b2n (sl.coast || E.sflags.testBit 0) + 512 * b2n (sl.err || E.sflags.testBit 1)
        + 1024 * b2n (E.sflags.testBit 2)
      let m : OutMsg := ⟨E.work, (t.gpr e i.a).toNat % 16384, sl.stamp, i.imm % 256, bytes, src⟩
      let t := (t.setEng e (fun E => { E with sflags := 0 })).bump (engReg R.ME_MSG_CNT e)
      let t := if 1 < t.gangSize e then t.setEng e (fun E => { E with hold := E.hold ++ [m] }) else t.toPort e m
      t.retire e 2 (t.eng[e].pc + 4))

/-- LSND: append a to the link FIFO of a gang member, or wait for room. -/
def execLsnd (e : Fin 256) (h : Haz) (s : State) : Host.Outcome State Fault Refusal := .next <|
  s.engRun e 0x36 false h (fun i t =>
    let m := Fin.ofNat 256 ((t.gangFirst e).val + i.imm)
    if 8 ≤ t.eng[m].link.length then t.block e
    else
      let v := t.gpr e i.a
      (t.setEng m (fun E => { E with link := E.link ++ [v] })).retire e 2 (t.eng[e].pc + 4))

/-- LGET: d = the oldest word of the own link FIFO, or wait for one. -/
def execLget (e : Fin 256) (h : Haz) (s : State) : Host.Outcome State Fault Refusal := .next <|
  s.engRun e 0x37 false h (fun i t =>
    match t.eng[e].link with
    | [] => t.block e
    | w :: r => ((t.setEng e (fun E => { E with link := r })).setGpr e i.d w).retire e 2 (t.eng[e].pc + 4))

/-- The value of a CSR (R237). -/
def csrRead (e : Fin 256) (s : State) (n : Nat) : Word :=
  let E := s.eng[e]
  match n with
  | 0 => word E.emask
  | 1 => E.vbase
  | 2 => word E.ecause
  | 3 => word (e.val + 256 * (e.val - (s.gangFirst e).val) + 4096 * s.gangLog e)
  | 4 => word E.sflags
  | 5 => E.kick
  | 6 => word (s.pmap.me[e]).val
  | _ => if n % 2 = 0 then E.crcp[Fin.ofNat 4 ((n - 8) / 2)] else word E.crcc[Fin.ofNat 4 ((n - 8) / 2)]

/-- Write a CSR (R237). -/
def csrWrite (e : Fin 256) (s : State) (n : Nat) (w : Word) : State :=
  s.setEng e (fun E => match n with
    | 0 => { E with emask := w.toNat % 32 }
    | 1 => { E with vbase := w }
    | 4 => { E with sflags := w.toNat % 8 }
    | _ => if n % 2 = 0 then { E with crcp := E.crcp.set (Fin.ofNat 4 ((n - 8) / 2)) w }
        else { E with crcc := E.crcc.set (Fin.ofNat 4 ((n - 8) / 2)) (w.toNat % 64) })

/-- CSR: d = the CSR, which takes a when IMM[12] = 1. Reading KICK clears the HOST event (R237). -/
def execCsr (e : Fin 256) (h : Haz) (s : State) : Host.Outcome State Fault Refusal := .next <|
  s.engRun e 0x38 false h (fun i t =>
    let n := i.imm % 256
    let old := csrRead e t n
    let new := t.gpr e i.a
    let t := if n = 5 then t.setEng e (fun E => { E with kicked := false }) else t
    let t := if i.imm / 4096 = 1 then csrWrite e t n new else t
    (t.setGpr e i.d old).retire e 1 (t.eng[e].pc + 4))

/-- WAIT: wait for an enabled event and continue at its handler (R238); bits [3:0] of VBASE count as zero (R237). -/
def execWait (e : Fin 256) (h : Haz) (s : State) : Host.Outcome State Fault Refusal := .next <|
  s.engRun e 0x39 true h (fun _ t =>
    let t := t.portFed e
    match t.takeEvent e with
    | none => t.block e
    | some k =>
      let t := t.setEng e (fun E => { E with
        ecause := k,
        timer := if k = 1 then E.timer.set 0 {} else if k = 2 then E.timer.set 1 {} else E.timer })
      t.retire e 3 ((t.eng[e].vbase &&& 0xFFFFFFF0#32) + word (16 * k)).toNat)

/-- HALT: enter HALTED, with an ME_HALT record (R251). -/
def execHalt (e : Fin 256) (h : Haz) (s : State) : Host.Outcome State Fault Refusal := .next <|
  s.engRun e 0x3A false h (fun _ t =>
    let pc := t.eng[e].pc
    ((t.retire e 1 (pc + 4)).setEng e (fun E => { E with st := 4 })).meEvent e 3 none [(4, pc)])

/-- A fetch outside the code region, or a word that is no legal instruction, faults (R232, R242, R246). -/
def execIllegalInstruction (e : Fin 256) (s : State) : Host.Outcome State Fault Refusal := .next <|
  if s.eng[e].st ≠ 2 ∨ s.sleeping 1 e then s
  else if s.codeSize e < s.eng[e].pc + 4 then s.engFault e 3
  else if s.eng[e].pc % 4 ≠ 0 then s.engFault e 2
  else if (s.engWord e).legal (s.gangSize e) then s
  else s.engFault e 1

/-- What a waiting engine waits for has come (R230). -/
def canResume (e : Fin 256) (s : State) : Bool :=
  let i := s.engWord e
  match i.op with
  | 0x30 => !s.eng[e].fifo.isEmpty
  | 0x31 => !s.eng[e].fifo.isEmpty
  | 0x35 => s.msgRoom e
  | 0x36 => decide (s.eng[Fin.ofNat 256 ((s.gangFirst e).val + i.imm)].link.length < 8)
  | 0x37 => !s.eng[e].link.isEmpty
  | 0x39 => (s.takeEvent e).isSome
  | _ => true

/-- ENGINE_UNBLOCK: a waiting engine goes back to RUN at the same instruction (R230). -/
def execEngineUnblock (e : Fin 256) (s : State) : Host.Outcome State Fault Refusal := .next <|
  let t := s.portFed e
  if t.eng[e].st = 3 ∧ canResume e t then t.setEng e (fun E => { E with st := 2 }) else s

end Sys2Proof.Machine
end

