-- ==== Sys2Proof/Machine/Cpl.lean ====
section
/-! DEFINITION. Command descriptors and completions (R418 to R422): the front command of a CMD ring, its completion, and the
duplicate cache. -/

namespace Sys2Proof.Machine

open Bits

/-- The command opcodes of R423 end at 0x0E. -/
def lastOpcode : Nat := 0x0E

/-- SEQ of a descriptor (R418). -/
def descSeq (d : List Byte) : Nat := leAt d 2 2

/-- Reserved bytes of a descriptor are zero (R418). -/
def descClean (d : List Byte) : Bool := (leAt d 1 1 == 0) && (leAt d 4 12 == 0)

/-- A completion (R419). -/
def cplBytes (q : Nat) (d : List Byte) (status orig : Nat) (result : BitVec 64) : List Byte :=
  leBytes 2 (descSeq d) ++ leBytes 1 status ++ leBytes 1 orig ++ leBytes 2 q ++ leBytes 1 (leAt d 0 1) ++ leBytes 1 0
    ++ leBytes 8 result.toNat

namespace State

/-- The command at the front of a CMD ring that executes next, or now (R420). -/
def cmdHead (s : State) (q : Nat) : Option (List Byte) := (s.ringSt q).fetched.head?

/-- The front command leaves, and its completion enters the paired CPL ring (R276, R419). -/
def cplPut (s : State) (q : Nat) (d : List Byte) (status orig : Nat) (result : BitVec 64) : State :=
  (s.setRing q (fun G => { G with fetched := G.fetched.drop 1, busy := false, lastSeq := descSeq d })).setRing (q + 1)
    (fun G => { G with cpl := G.cpl ++ [(cplBytes q d status orig result, false)] })

/-- An executed command completes; the duplicate cache keeps its last 64 (R421). -/
def cplKeep (s : State) (q : Nat) (d : List Byte) (status : Nat) (result : BitVec 64) : State :=
  (s.cplPut q d status 0 result).setRing q (fun G => { G with cache := (⟨descSeq d, status, result⟩ :: G.cache).take 64 })

/-- Commands at the front that complete without being executed: duplicates (R421), malformed ones and unknown opcodes (R418,
R423); at most `fuel` of them. -/
def cmdSweep (s : State) (q : Nat) : Nat → State
  | 0 => s
  | n + 1 =>
    match s.cmdHead q with
    | none => s
    | some d =>
      if (s.ringSt q).busy then s
      else match (s.ringSt q).cache.find? (fun e => e.seq == descSeq d) with
        | some e => cmdSweep (s.cplPut q d 6 e.status e.result) q n
        | none =>
          if !descClean d || decide (lastOpcode < leAt d 0 1) then cmdSweep (s.cplKeep q d 2 0) q n else s

/-- The front command of a ring completes with a status and a result, and those behind it that need no execution follow. -/
def cmdDone (s : State) (q : Nat) (status : Nat) (result : BitVec 64) : State :=
  match s.cmdHead q with
  | none => s
  | some d => let s := s.cplKeep q d status result; s.cmdSweep q ((s.ringSt q).fetched.length)

/-- The front command of a ring has an opcode and waits for its end. -/
def cmdRuns (s : State) (q op : Nat) : Bool :=
  (s.ringSt q).busy && (match s.cmdHead q with | some d => leAt d 0 1 == op | none => false)

/-- A waiting front command with that opcode completes. -/
def cmdEnd (s : State) (q op status : Nat) (result : BitVec 64) : State := if s.cmdRuns q op then s.cmdDone q status result else s

/-- The front command of a ring waits for a device happening (R420). -/
def cmdHold (s : State) (q : Nat) : State := s.setRing q (fun G => { G with busy := true })

/-- The shadow of a CMD ring tells the HEAD it has reached (R272), once the port may write (R274). -/
def cmdShadow (s : State) (q : Nat) : State :=
  let p := s.qPart q
  let n := (s.ringHead q - (s.ringSt q).shown).toNat
  if s.mayIssue p && n != 0 then ((s.writeShadow p q []).setRing q (fun G => { G with shown := s.ringHead q })).ringInterrupt p q n else s

/-- A descriptor read for index `i` has come (R276, R271): HEAD moves on, and the shadow tells (R272). -/
def cmdFetched (s : State) (q : Nat) (d : List Byte) : State :=
  let s := s.setRing q (fun G => { G with fetched := G.fetched ++ [d] })
  let s := s.wr (qd q 1) (s.ringHead q + 1#32)
  let s := s.cmdShadow q
  s.cmdSweep q ((s.ringSt q).fetched.length)

end State
end Sys2Proof.Machine
end

