-- ==== Sys2Proof/Machine/Timebase.lean ====
section
/-! DEFINITION. The timebase (file 02 of the spec): the reference monitor, coasting, relock boundaries, the counter, the
ramp, SYNC and PTM. -/

namespace Sys2Proof.Machine

open Bits

namespace State

/-- Event `k` of the TB block, for every partition (R80). -/
def tbEvent (s : State) (k index : Nat) (t : Option Stamp) (items : List (Nat × Nat)) : State :=
  s.eventAll (R.TB_EVT_CNT k) 0x04 k index t items

/-- TB_STALE (R78). -/
def tbStale (s : State) (off gen : Nat) : State := s.tbEvent 12 0 none [(4, off), (2, gen)]

/-- The reference period in fifths of a TBCLK period, by FREQ (R44). -/
def refFifths (freq : Nat) : Nat := match freq with | 0 => 1000 | 1 => 400 | 2 => 100 | _ => 64

/-! ## Locking (R48, R53) -/

/-- LOCK_N and LOCK_WIN of a TB_LOCK_CTL word, with their floors (R48). -/
def lockN (w : Word) : Nat := max 16 (fld w 23 8)
def lockWin (w : Word) : Nat := max 10 (fld w 7 0)

/-- A DPLL (0 to 3) or SGPLL (4) starts to lock at the present edge, with the LOCK_N that TB_LOCK_CTL holds (R47, R48). -/
def acquire (s : State) (k : Fin 5) : State :=
  s.setTb (fun t => { t with acq := t.acq.set k (some ⟨t.count, lockN (s.rd R.TB_LOCK_CTL)⟩) })

/-- LOCK_N cycles of 125 MHz fit since a DPLL or SGPLL started to lock (R48). -/
def acquired (s : State) (k : Fin 5) : Bool :=
  match s.tb.acq[k] with
  | some a => s.since a.from_ (16 * a.n)
  | none => false

/-- The spare starts to lock at the present edge, with the values that the last accepted apply staged (R48, R61). -/
def acquireSpare (s : State) : State :=
  s.setTb (fun t => { t with spare := false, spareAcq := some ⟨t.count, lockN t.inForce.lockCtl⟩ })

/-- LOCK_N cycles of REF_IN fit since the spare started to lock, TBCLK and REF_IN being at most 1,000 ppm off (R46, R48; log
entry 131). -/
def acquiredSpare (s : State) : Bool :=
  match s.tb.spareAcq with
  | some a => decide (999 * a.n * refFifths s.tb.monFreq ≤ 5000 * (s.tb.count - a.from_).toNat)
  | none => false

/-- RATE of a quadrant, with 3 treated as 0 (R75). -/
def dpllRate (s : State) (q : Fin 4) : Nat := let r := s.f (R.TB_DPLL_CTL q) 1 0; if r = 3 then 0 else r

/-- One step of the dither LFSR: Galois, polynomial x^32 + x^22 + x^2 + x + 1, shifting towards the high powers (R53; log entry
37). -/
def lfsrStep (x : Word) : Word := if x.getLsbD 31 then (x <<< 1) ^^^ 0x00400007#32 else x <<< 1

/-- The dither LFSR goes on to the present count, where the dither is on (R53). -/
def ditherTick (t : TimeSt) : TimeSt :=
  if bit t.inForce.refCtl 2 then { t with lfsr := Nat.repeat lfsrStep (Config.ditherSteps t.count.toNat) t.lfsr } else t

/-! ## Long spans (R534) -/

/-- A log, newest first, of what holds from a stamp on: the newest entry at or below `lim` counts from `lim`, older ones go. -/
def ageLog {α : Type} (lim : Stamp) : List (Stamp × α) → List (Stamp × α)
  | [] => []
  | e :: r => if before lim e.1 then e :: ageLog lim r else [(lim, e.2)]

/-- Stamps that are more than 2^61 tu old are brought up to that age, and what ended before it is dropped, so that every comparison
stays exact (R534; log entry 142). -/
def age (s : State) : State :=
  let lim := s.now - 2305843009213693952#64
  let newer {α : Type} (l : List (Stamp × α)) : List (Stamp × α) := l.filter (fun e => before lim e.1)
  let up (t : Stamp) : Stamp := if before t lim then lim else t
  let s := s.gridRebase
  { s with
    tb := { s.tb with
      coastLog := ageLog lim s.tb.coastLog, jlog := newer s.tb.jlog,
      gaps := s.tb.gaps.filter (fun e => before lim e.2), window := s.tb.window.filter (fun e => before lim e.2) }
    ch := s.ch.map (fun C => { C with lvlLog := ageLog lim C.lvlLog, enLog := ageLog lim C.enLog })
    grp := s.grp.map (fun G => { G with
      start := G.start.map up, runs := G.runs.filter (fun e => before lim e.2),
      collEnds := G.collEnds.filter (fun e => before lim e.2.1), lastEdge := G.lastEdge.map (fun (e : Option Stamp) => e.map up) })
    trg := { s.trg with
      seq := s.trg.seq.map (fun Q => { Q with
        sqLog := ageLog lim Q.sqLog, armLog := ageLog lim Q.armLog, evLog := newer Q.evLog })
      pc := s.trg.pc.map (fun P => { P with log := ageLog lim P.log })
      mmLog := s.trg.mmLog.map (fun (l : List (Stamp × Bool)) => ageLog lim l)
      ct := s.trg.ct.map (fun C => { C with enLog := ageLog lim C.enLog }) }
    sg := s.sg.map (fun G => { G with jLast := G.jLast.filter (fun t => before lim t) }) }

/-! ## The counter (R54, R56) -/

/-- The counter passes to 0 (R56). -/
def wrap (s : State) : State :=
  ((s.addMarkAll 0 (.epoch 0 0)).qEpochAll 0 0 0).tbEvent 4 0 (some 0) []

/-- The count advances by one (R54, R56), and the queues whose enable stamp it reaches are ON (R277). Every 2^60 tu the old stamps are aged (R534). -/
def advance (s : State) : State :=
  let s := s.setTb (fun t => { t with count := t.count + 1#54 })
  let s := if s.tb.count.toNat % 2 ^ 50 = 0 then s.age else s
  let s := s.qSealSync
  if s.tb.count = 0#54 then s.wrap else s

/-- One TBCLK edge. -/
def tick (s : State) : State := s.advance.setTb ditherTick

/-! ## Coasting (R57 to R60) -/

/-- COAST rises at the present edge (R57, R59). -/
def coastBegin (s : State) : State :=
  let s := s.setTb (fun t => { t with coast := true, lock := false, coastFrom := t.count, coastLog := (s.now, true) :: t.coastLog })
  s.addMarkAll s.now .coastBegin

/-- The monitor declares loss of reference (R46, R57, R61). While an accepted TB_APPLY waits for qualification it declares
none (R537). -/
def lossOfRef (s : State) : State :=
  if !s.tb.refOk || s.tb.applyAt.isSome then s
  else
    let s := s.setTb (fun t => { t with refOk := false, relocking := false, spare := false, spareAcq := none })
    let s := if s.tb.ever && !s.tb.coast then s.coastBegin else s
    s.tbEvent 0 0 (some s.now) []

/-! ## Relock (R61 to R66) -/

/-- The offsets of R63: of every TDC that delivers edges at the present edge, and of every TRIG_IO input. -/
def relockOffsets (s : State) : List Int :=
  let half (z : Int) : Int := (z + 32).fdiv 64
  (List.finRange 128).flatMap (fun c =>
    let g := grpOf c
    let clocks := (List.finRange 16).any (fun h => s.modeG h == 3 && s.clkCh h == c && s.inRun h s.now)
    if (s.inRun g s.now || clocks) && s.enAt c s.now && !(s.splitG g && c.val % 2 == 1) then
      let d := s.deskewOf c
      if s.splitG g then [d + half (s.fs (R.CH_ZERO c) 15 0), d + half (s.fs (R.CH_SPLIT_ZERO (c.val / 2)) 15 0)]
      else [d + half (s.fs (R.CH_ZERO c) 15 0)]
    else [])
  ++ (List.finRange 16).filterMap (fun k =>
    if fld s.trg.route[k] 1 0 = 1 then some (-(Int.ofNat (s.f R.TRG_IO_IN_DLY 15 0))) else none)

/-- The smallest and largest of some offsets, 0 when there are none. -/
def offsetRange : List Int → Int × Int
  | [] => (0, 0)
  | x :: r => (r.foldl min x, r.foldl max x)

/-- The markers of a relock boundary in one stream (R63, R64, R163). -/
def relockMarks (s : State) (g : Fin 16) (v0 v1 : Stamp) (coast : Bool) (j : Int) : State :=
  if !s.streamActive g || (s.grp[g].stop.map (fun e => upto e v0)).getD false then s
  else
    let mask := s.enabledIn g v0 v0
    let s := (s.addMark g v0 (.gap 3 true false mask 0 v0 0)).addMark g v1 (.gap 3 false false mask 0 v0 0)
    let s := if coast then s.addMark g v1 .coastEnd else s
    s.addMark g v1 (.epoch 1 j)

/-- A counter takes back one event. -/
def unbump (s : State) (a : Nat) : State :=
  if s.rd a = 0#32 ∨ s.rd a = BitVec.allOnes 32 then s else s.wr a (s.rd a - 1#32)

/-- An edge event counted in the relock window is no delivered one. -/
def uncount (s : State) (e : EdgeRec) : State := s.unbump (if e.coll.isSome then R.CH_COLLAPSE_CNT e.tdc else R.CH_EDGE_CNT e.tdc)

/-- No edge and no TRIG_IO hit sampled before the boundary is delivered with a stamp strictly inside the relock window (R63): none of
them has reached a consumer yet. The level a receiver settled at stays. -/
def retract (s : State) (v0 v1 : Stamp) : State :=
  let inside (t : Stamp) : Bool := before v0 t && before t v1
  let gone (x : Stamp × Flow) : Bool := inside x.1 && (match x.2 with | .edge _ => true | .clk _ _ => true | _ => false)
  let s := forAll (s.trg.flow.filter gone) s (fun x s => match x.2 with | .edge e => s.uncount e | _ => s)
  let s := forAll (List.finRange 128) s (fun c s =>
    forAll ((s.ch[c].ovf.map (·.drops)).getD [] |>.filter (fun d => inside d.1)) s (fun _ s => s.unbump (R.CH_GRP_OVF_CNT (grpOf c))))
  { s with
    trg := { s.trg with
      flow := s.trg.flow.filter (fun x => !gone x)
      hits := s.trg.hits.filter (fun h => !(inside h.stamp && decide (0xC0 ≤ h.src))) }
    ch := s.ch.map (fun C => { C with
      stg := C.stg.filter (fun e => !inside e.stamp)
      lvlLog := C.lvlLog.dropLast.filter (fun e => !inside e.1) ++ C.lvlLog.getLast?.toList
      ovf := C.ovf.map (fun (o : Ovf) => { o with drops := o.drops.filter (fun d => !inside d.1) }) })
    grp := s.grp.map (fun G => { G with
      marks := G.marks.filter (fun m => !(inside m.stamp && (match m.kind with | .ovf _ => true | _ => false))) }) }

/-- TBCLK switches to the spare (R62 to R66): the boundary edge comes `d` tu after the present edge. The coast lasted from
the declaring edge to the boundary edge, in whole ns of TBCLK (log entry 123). -/
def relock (s : State) (d : Nat) : State :=
  let j : Int := d - 1024
  let r := offsetRange s.relockOffsets
  let c0 := s.now
  let was := s.tb.coast
  let ns := ((s.tb.count - s.tb.coastFrom).toNat * 1024 + d) / 2048
  let s := (s.gridJump c0 d j).advance
  let v0 := shift c0 r.1
  let v1 := shift s.now r.2
  let s := s.retract v0 v1
  let s := forAll (List.finRange 16) s (fun g s => s.relockMarks g v0 v1 was j)
  let s := s.setTb (fun t => { t with
    coast := false, lock := true, relocking := false, spare := false, spareAcq := none, vcoB := !t.vcoB, freq := t.monFreq,
    acq := t.acq.map (fun (a : Option Acq) => a.map (fun (a : Acq) => { a with from_ := t.count })),
    jlog := (v1, j) :: t.jlog, gaps := (v0, v1) :: t.gaps, window := some (v0, v1), lolSusp := some t.count,
    coastLog := if was then (v1, false) :: t.coastLog else t.coastLog })
  let s := s.addFlow (v0 + 1) (.relock v1)
  let s := forAll ((List.finRange 128).filter (fun c => s.powered c && s.ch[c].at_.isNone)) s (fun c s =>
    (s.trackLevel c (v1 - 1) (s.recvLevel c)).addFlow v1 (.level c (s.recvLevel c)))
  let s := s.qEpochAll v1 1 j
  let s := s.wr R.TB_LAST_JUMP (iword j)
  s.tbEvent 3 0 (some s.now) [(2, (BitVec.ofInt 16 j).toNat), (8, if was then ns else 0)]

/-! ## Apply writes (R78, R536, R537) -/

/-- A write to TB_APPLY, or a SHARED action. -/
def tbApply (s : State) (off gen : Nat) : State :=
  if gen ≠ s.f R.TB_PLL_GEN 15 0 ∨ s.tb.coast ∨ s.tb.relocking then s.tbStale off gen
  else
    let s := s.wrF R.TB_PLL_GEN 15 0 (gen + 1)
    s.setTb (fun t => { t with
      inForce := ⟨s.rd R.TB_LOCK_CTL, s.rd R.TB_REF_CTL, s.rd R.TB_DITHER_SEED⟩, monFreq := s.f R.TB_REF_CTL 1 0,
      applyAt := some t.count, relocking := true, lock := false, spare := false, spareAcq := none })

/-- OUT_MODE with 3 used as 0 (R74). -/
def syncMode (s : State) : Nat := let m := s.f R.TB_SYNC_CTL 2 1; if m = 3 then 0 else m

/-- A write to TB_SYNC_FIRE, or a SHARED FIRE (R536). -/
def syncFire (s : State) (off gen : Nat) : State :=
  if gen ≠ s.f R.TB_SYNC_GEN 15 0 then s.tbStale off gen
  else
    let s := s.wrF R.TB_SYNC_GEN 15 0 (gen + 1)
    if s.syncMode = 2 then
      if s.tb.refOk then s.setTb (fun t => { t with ownPulse := true })
      else s.tbEvent 11 0 (some s.now) []
    else s

/-! ## The ramp (R69 to R71) -/

/-- NPTS, DELTA and DUR of the ramp. -/
def rampPts (s : State) : Nat := min 64 (max 1 (s.f R.TB_RAMP_CTL 6 0))
def rampDelta (s : State) (k : Nat) : Int := s.fs (R.TB_RAMP_DELTA k) 31 0
def rampDur (s : State) (k : Nat) : Nat := s.f (R.TB_RAMP_DUR k) 15 0

/-- Change the ramp. -/
def setRamp (s : State) (h : Ramp → Ramp) : State := s.setTb (fun t => { t with ramp := h t.ramp })

/-- A segment begins from offset `v`: segments of duration 0 are steps and pass at once; at most `fuel` of them (R69). -/
def rampEnter (s : State) (k : Nat) (v : Int) : Nat → State
  | 0 => s.setRamp (fun r => { r with seg := k, upd := 0, from_ := v, num := v, den := 1 })
  | n + 1 =>
    if s.rampPts ≤ k then
      if s.fb R.TB_RAMP_CTL 8 then rampEnter s 0 v n
      else s.setRamp (fun r => { r with seg := s.rampPts - 1, held := true, num := v, den := 1 })
    else if s.rampDur k = 0 then rampEnter s (k + 1) (s.rampDelta k) n
    else s.setRamp (fun r => { r with seg := k, upd := 0, from_ := v, num := v, den := 1 })

/-- The ramp stops and its offset returns to 0 (R71, R78): TB_RAMP_STOP, with cause 0 for STOP and 1 for R71. -/
def rampStop (s : State) (cause : Nat) : State :=
  if s.tb.ramp.run then
    let k := s.tb.ramp.seg
    (s.setRamp (fun _ => {})).gridRebase.tbEvent 9 0 none [(1, cause), (1, k)]
  else s

/-- The first segment begins at a count (R69). -/
def rampFirst (s : State) (c : Count) : State :=
  ((s.setRamp (fun r => { r with waitSync := false, at_ := c })).rampEnter 0 0 130).gridRebase

/-- The ramp starts (R69), or starts to wait for SYNC; RAMP_RUN reads 1 in both (log entry 141). -/
def rampStart (s : State) : State :=
  if s.tb.ramp.run then s
  else
    let s := s.setRamp (fun _ => { ({} : Ramp) with run := true, waitSync := s.fb R.TB_RAMP_CTL 9 })
    if s.tb.ramp.waitSync then s else s.rampFirst s.tb.count

/-- A write to TB_RAMP_GO, or a SHARED RAMP_GO or RAMP_STOP (R69, R71, R78). -/
def rampGo (s : State) (off gen : Nat) (stop go : Bool) : State :=
  if gen ≠ s.f R.TB_SG_GEN 15 0 then s.tbStale off gen
  else
    let s := s.wrF R.TB_SG_GEN 15 0 (gen + 1)
    let s := if stop then s.rampStop 0 else s
    if go then s.rampStart else s

/-! ## SYNC (R72, R73) -/

/-- A SYNC that would be acted on is ignored (R72). -/
def syncBlocked (s : State) : Bool := s.tb.coast || s.tb.relocking || !s.tb.sgLock

/-- A SYNC sampled `phase` fifths of a TBCLK period after the present edge: the dividers restart 64 ns and DELAY reference
periods later, on a TBCLK edge (R73). -/
def syncAct (s : State) (phase : Nat) : State :=
  if s.syncBlocked then s.tbEvent 11 0 (some s.now) []
  else
    let n := ceilDiv (phase + 640 + s.f R.TB_SYNC_CTL 7 4 * refFifths s.tb.freq) 5
    s.setTb (fun t => { t with syncAt := t.syncAt ++ [(t.count + BitVec.ofNat 54 n).stamp] })

end State

/-! ## Steps -/

/-- LOSS_OF_REFERENCE: two reference periods have passed without a REF_IN edge (R46, R57). -/
def execLossOfReference (s : State) : Host.Outcome State Fault Refusal := .next s.lossOfRef

/-- REF_FREQ_WINDOW: 1,024 reference periods have taken `n` TBCLK periods (R46): a frequency
that is more than 1,000 ppm off the nominal one declares loss. -/
def execRefFreqWindow (n : Nat) (s : State) : Host.Outcome State Fault Refusal :=
  let nominal := 1024 * State.refFifths s.tb.monFreq
  if 5 * n < ((5 * n : Int) - nominal).natAbs * 1000 then .next s.lossOfRef else .next s

/-- REF_QUALIFIED: 1,024 good periods qualify the reference (R46, R61, R537). -/
def execRefQualified (s : State) : Host.Outcome State Fault Refusal :=
  if s.tb.refOk && s.tb.applyAt.isNone then .next s
  else
    let s := s.setTb (fun t => { t with refOk := true, applyAt := none, relocking := t.ever })
    let s := if s.tb.ever then s.acquireSpare else s
    .next (s.tbEvent 1 0 (some s.now) [])

/-- APPLY_QUALIFY_TIMEOUT: 10 ms after an accepted TB_APPLY the reference is not qualified (R537). -/
def execApplyQualifyTimeout (s : State) : Host.Outcome State Fault Refusal :=
  match s.tb.applyAt with
  | some c =>
    if s.since c 20000000 then
      let s := s.setTb (fun t => { t with refOk := false, applyAt := none, relocking := false, spare := false, spareAcq := none })
      .next (s.coastBegin.tbEvent 0 0 (some s.now) [])
    else .next s
  | none => .next s

/-- TBPLL_LOSS_OF_LOCK: TBPLL loses lock with the reference present (R60). -/
def execTbpllLossOfLock (s : State) : Host.Outcome State Fault Refusal :=
  if s.tb.lock && s.tb.refOk then
    let s := (s.coastBegin.setTb (fun t => { t with relocking := true })).acquireSpare
    .next (s.tbEvent 2 0 (some s.now) [])
  else .next s

/-- RELOCK_BOUNDARY: TBCLK switches to the locked spare, whose edge comes `d` tu after the last one (R62 to R64). -/
def execRelockBoundary (d : Nat) (s : State) : Host.Outcome State Fault Refusal :=
  if !relockWf d then .fault .illFormed
  else if s.tb.relocking && s.tb.spare then .next (s.relock d)
  else .next s

/-- LOL_SUSPEND_END: 2 µs after a boundary, loss-of-lock detection restarts (R66). -/
def execLolSuspendEnd (s : State) : Host.Outcome State Fault Refusal :=
  match s.tb.lolSusp with
  | some c => if s.since c 4000 then .next (s.setTb (fun t => { t with lolSusp := none })) else .next s
  | none => .next s

/-- COUNTER_WRAP: the counter passes from 2^54 − 1 to 0 (R56). -/
def execCounterWrap (s : State) : Host.Outcome State Fault Refusal :=
  if s.tb.ever && s.tb.count == BitVec.allOnes 54 then .next s.tick else .next s

/-- RAMP_UPDATE: the ramp moves its offset along the profile, 8 ns after its last update (R69). -/
def execRampUpdate (s : State) : Host.Outcome State Fault Refusal :=
  let r := s.tb.ramp
  if !r.run || r.waitSync || r.held || !s.since r.at_ 16 then .next s
  else
    let s := s.setRamp (fun r => { r with at_ := r.at_ + 16#54 })
    let d := s.rampDur r.seg
    let u := r.upd + 1
    if d ≤ u then .next (s.rampEnter (r.seg + 1) (s.rampDelta r.seg) 130).gridRebase
    else .next (s.setRamp (fun r => { r with upd := u, num := r.from_ * d + (s.rampDelta r.seg - r.from_) * u, den := d })).gridRebase

/-- SAMPLED_SYNC: a REF_IN edge, `phase` fifths of a TBCLK period after the present edge, samples a rise of SYNC_IN, or, with
`own`, serves the device's own pulse: a fired pulse leaves 2 ns after the edge, and is sampled at the edge that follows (R72,
R74). -/
def execSampledSync (own : Bool) (phase : Fin 5) (s : State) : Host.Outcome State Fault Refusal :=
  let edge := s.now + BitVec.ofNat 64 (phase.val * 1024 / 5 + 4096)
  if own then
    let out := s.tb.ownOut
    let s := if s.tb.ownPulse then s.setTb (fun t => { t with ownPulse := false, ownOut := true, syncOutAt := some edge })
      else s.setTb (fun t => { t with ownOut := false })
    if out then .next (s.syncAct phase) else .next s
  else
    let s := if s.syncMode = 1 then s.setTb (fun t => { t with syncOutAt := some edge }) else s
    if s.fb R.TB_SYNC_CTL 0 then .next (s.syncAct phase) else .next s

/-- PERIOD has gone by since a port's last PTM dialogue: PERIOD ms, 0 used as 1 (R79, R81). -/
def State.ptmDue (s : State) (p : Fin 4) : Bool :=
  match s.tb.ptmAt[p] with
  | some a => s.since a (max 1 (s.f (R.TB_PTM_CTL p) 15 8) * 2000000)
  | none => true

/-- PTM_DIALOGUE: a port sends a PTM request, whose departure lies `fine` tu after the present edge (R79). -/
def execPtmDialogue (p : Fin 4) (fine : Fin 1024) (s : State) : Host.Outcome State Fault Refusal :=
  if s.fb (R.TB_PTM_CTL p) 0 && s.port[p].link && s.ptmDue p then
    .next (s.setTb (fun t => { t with
      ptmT1 := t.ptmT1.set p (some (s.now + BitVec.ofNat 64 fine.val)), ptmAt := t.ptmAt.set p (some t.count) }))
  else .next s

/-- PTM_RESPONSE: the response brings the master time and the propagation delay in ns (R79). -/
def execPtmResponse (p : Fin 4) (master delay : BitVec 64) (s : State) : Host.Outcome State Fault Refusal :=
  match s.tb.ptmT1[p] with
  | none => .next s
  | some t1 =>
    let s := s.setTb (fun t => { t with ptmT1 := t.ptmT1.set p none })
    let s := s.wr64 (R.TB_PTM_DEV_LO p) (R.TB_PTM_DEV_HI p) t1
    let s := s.wr64 (R.TB_PTM_HOST_LO p) (R.TB_PTM_HOST_HI p) (master - delay)
    .next (s.wr (R.TB_PTM_SEQ p) (s.rd (R.TB_PTM_SEQ p) + 1#32))

end Sys2Proof.Machine
end

