-- ==== Sys2Proof/Machine/Stimulus.lean ====
section
/-! DEFINITION. The stimulus generators (file 09): starting, playing, jumping, starving and stopping; the prefetcher, the host
stream and skew calibration; what the lanes show. -/

namespace Sys2Proof.Machine

open Bits

namespace State

/-- The partition of a generator (R286). -/
def sgPart (s : State) (g : Fin 8) : Fin 4 := s.pmap.sg[g]

/-- Event `k` of a generator (R321). -/
def sgEvent (s : State) (g : Fin 8) (k : Nat) (t : Option Stamp) (items : List (Nat × Nat)) : State :=
  s.event (s.sgPart g) (R.SG_EVT_CNT g k) 0xC0 k g t items

/-- SG_REFUSED: a refused start, or a write ignored under R303, R307 or R320 (R305, R321). -/
def sgRefused (s : State) (g : Fin 8) (cause entry : Nat) : State :=
  s.sgEvent g 2 none [(1, cause), (2, entry), (8, s.now.toNat)]

/-- Every generator is in IDLE (R78, R304). -/
def sgQuiet (s : State) : Bool := (List.finRange 8).all (fun (g : Fin 8) => s.sg[g].st == .idle)

/-! ## Starting (R297, R305, R306) -/

/-- An entry fails R297. -/
def entBad (s : State) (g : Fin 8) (k : Nat) : Bool :=
  let w1 := s.entW g k 1
  let w3 := s.entW g k 3
  let flow := s.entFlow g k
  let src := s.entSrc g k
  let n := s.segLen g k
  let bytes := ceilDiv n 2
  let a := s.entAddr g k
  let ent := s.nent g
  decide (fld w1 31 26 ≠ 0) || bit w1 11 || decide (fld w3 31 26 ≠ 0) || decide (4 < flow) || decide (4 < src) ||
  decide (n = 0) ||
  ((flow == 1 || flow == 2 || flow == 3) && decide (ent ≤ s.entTarget g k)) ||
  (s.entJen g k && decide (ent ≤ s.entJtgt g k)) ||
  (decide (k + 1 = ent) && flow == 0) ||
  (src == 0 && (decide (s.f (R.SG_CFG g) 3 0 * 16384 < a + bytes) || decide (a % 32 ≠ 0))) ||
  (src == 1 && (!s.inShare (s.sgPart g) a bytes || decide (a % 32 ≠ 0))) ||
  (!s.deadRule g && (decide (n % 64 ≠ 0) || decide (n < 256)))

/-- The configuration breaks R314 to R319 for the entries that use the memory-test generator. -/
def mtgBad (s : State) (g : Fin 8) (ks : List Nat) : Bool :=
  let c := s.rd (R.SG_MT_CTL g)
  let span := s.spanG g
  let oplog := fld c 6 4
  let others := (List.finRange 8).filter (fun h => g.val < h.val ∧ h.val ≤ g.val + span)
  let badWord (w : Word) : Bool := decide (5 < fld w 10 8) || decide (2 ^ oplog < fld w 31 25)
  decide (4 < s.mtBW g) || decide (20 < s.mtRW g) || decide (14 < s.mtCW g) || decide (32 < s.mtAW g) ||
  decide (fld c 19 18 = 3) || decide (oplog < 2 ∨ 6 < oplog) || decide (2 ^ oplog ≤ fld c 15 10) ||
  decide (7 < g.val + span) || others.any (fun h => s.sg[h].st != .idle || s.sgPart h != s.sgPart g) ||
  (List.range (4 * (span + 1))).any (fun l => badWord (s.rd (R.SG_MT_LANE_A g l)) || badWord (s.rd (R.SG_MT_LANE_B g l))) ||
  ks.any (fun k => (s.mtElems g k).isEmpty || (s.mtElems g k).any (fun e => decide (2048 ≤ s.mtElem g e)))

/-- The cause of a refused start and the first failing entry (R305), but OWNER. -/
def sgCause (s : State) (g : Fin 8) : Option (Nat × Nat) :=
  let ks := List.range (s.nent g)
  if s.sg[g].st != .idle then some (0, 0)
  else if !s.grid.on then some (1, 0)
  else if s.nent g = 0 ∨ 1024 < s.nent g then some (2, 0)
  else match ks.find? (fun k => s.entBad g k) with
  | some k => some (2, k)
  | none =>
    let lim := s.f (R.SG_CFG g) 3 0
    if (ks.any (fun k => s.entSrc g k == 2) && !s.fb (R.SG_STR_CTL g) 31) || decide (12 < lim) ||
        decide (15 < lim + s.f (R.SG_CFG g) 11 8) then some (3, 0)
    else
      let ms := ks.filter (fun k => s.entSrc g k == 3)
      if !ms.isEmpty && s.mtgBad g ms then some (4, 0) else none

/-- The other generators of the bundle enter BOUND (R318). -/
def sgBind (s : State) (g : Fin 8) : State :=
  if (List.range (s.nent g)).any (fun k => s.entSrc g k == 3) then
    forAll ((List.finRange 8).filter (fun h => g.val < h.val ∧ h.val ≤ g.val + s.spanG g)) s (fun h s =>
      s.setSg h (fun G => { G with st := .bound, master := g.val }))
  else s

/-- The generators bound to one return to IDLE when it stops. -/
def sgUnbind (s : State) (g : Fin 8) : State :=
  forAll (List.finRange 8) s (fun h s =>
    if s.sg[h].st == .bound && s.sg[h].master == g.val then s.setSg h (fun G => { G with st := .idle }) else s)

/-- A start request (R305, R306): an accepted one enters WAIT, and the prefetcher starts at entry 0 (R294). -/
def sgGo (s : State) (g : Fin 8) : State :=
  match s.sgCause g with
  | some (c, e) => s.sgRefused g c e
  | none =>
    (s.setSg g (fun G => { ({} : SgSt) with st := .wait, cw := s.cw, jFrom := G.jFrom, jLast := G.jLast, str := G.str })).sgBind g

/-- The grid instant at which a generator in WAIT starts (R306). -/
def startIdx (s : State) (g : Fin 8) : Option Nat :=
  let G := s.sg[g]
  if !s.grid.on then none
  else if s.fb (R.SG_CTL g) 3 then G.syncAt
  else some (s.first64 (G.cw + 20000#54).stamp)

/-! ## Jump requests (R301 to R303) -/

/-- A jump request ends without being taken (R303): dropped (`busy`), or ignored outside RUN. -/
def jumpLost (s : State) (g : Fin 8) (j : JReq) (busy : Bool) : State :=
  let s := if busy then s.bump (R.SG_JDROP_CNT g) else s
  match j.src with
  | .cmd q => s.cmdDone q (if busy then 5 else 1) 0
  | src =>
    if busy then s.sgEvent g 6 (some j.at_) [(1, match src with | .write => 0 | .cmd _ => 1 | .seq => 2)]
    else s.sgRefused g 0 0

/-- The requests that arrived strictly before `lim` arrive (R301, R303). -/
def jumpsTo (s : State) (g : Fin 8) (lim : Stamp) : State :=
  let due := s.sg[g].jq.filter (fun j => before j.at_ lim)
  let s := s.setSg g (fun G => { G with jq := G.jq.filter (fun j => !before j.at_ lim) })
  forAll due s (fun j s =>
    match s.sg[g].st with
    | .run => if s.sg[g].jump.isSome then s.jumpLost g j true else s.setSg g (fun G => { G with jump := some j })
    | _ => s.jumpLost g j false)

/-- Every request a generator still has is ignored: its run has ended (R303). A pending request of a command completes
with STATE; others are discarded. -/
def jumpsEnd (s : State) (g : Fin 8) : State :=
  let s := match s.sg[g].jump with
    | some j => match j.src with
      | .cmd q => s.cmdDone q 1 0
      | _ => s
    | none => s
  let rest := s.sg[g].jq
  let s := s.setSg g (fun G => { G with jump := none, jq := [] })
  forAll rest s (fun j s => s.jumpLost g j false)

/-- The boundary of the present segment (R300), later by the starved periods so far while it starves under STRETCH (R312). -/
def boundaryIdx (s : State) (g : Fin 8) : Nat :=
  let late := match s.sg[g].starve, s.keepTime g with | some (i, _), false => s.firstIdx s.now - i | _, _ => 0
  s.sg[g].segAt + s.segLen g s.sg[g].entry + late

/-- The earlier of the present instant, just after the present edge, and the present boundary or the start of the run. -/
def arriveLim (s : State) (g : Fin 8) : Stamp :=
  let now := s.now + 1
  let b := match s.sg[g].st with
    | .run => some (s.boundaryIdx g)
    | .wait => s.startIdx g
    | _ => none
  match b with
  | some m => if before (s.launch m) now then s.launch m else now
  | none => now

/-- A jump request with its arrival stamp (R301). Outside RUN, and outside a WAIT that may reach RUN before it, it is
ignored. -/
def jumpAsk (s : State) (g : Fin 8) (j : JReq) : State :=
  match s.sg[g].st with
  | .run | .wait =>
    let s := match j.src with | .cmd q => s.cmdHold q | _ => s
    let s := s.setSg g (fun G => { G with jq := insertBy (fun a b => upto a.at_ b.at_) j G.jq })
    s.jumpsTo g (s.arriveLim g)
  | _ => s.jumpLost g j false

/-- The requests whose arrival stamps the present edge reaches arrive (R301, R303). -/
def jumpsArrive (s : State) : State :=
  forAll (List.finRange 8) s (fun g s => if s.sg[g].jq.isEmpty then s else s.jumpsTo g (s.arriveLim g))

/-- JPEND (R302): a request has arrived in RUN and is not yet taken. -/
def jpend (s : State) (g : Fin 8) : Bool :=
  s.sg[g].st == .run && (s.sg[g].jump.isSome || s.sg[g].jq.any (fun j => upto j.at_ s.now))

/-! ## The prefetcher (R294) -/

/-- The periods from the start of a visit to the start of the next. -/
def visitLen (s : State) (g : Fin 8) (k : Nat) : Nat := s.segLen g k + (if s.deadRule g then s.deadSamples else 0)

/-- The visit after one, on the path taken when no jump is pending, or after the jump latched for the present one. -/
def fetchNext (s : State) (g : Fin 8) (f : Fetch) : Option Fetch :=
  let at_ := f.at_ + s.visitLen g f.entry
  if f.vis = s.sg[g].vis ∧ s.sg[g].taken then some ⟨f.vis + 1, s.entJtgt g f.entry, 0, 0, 0, at_⟩
  else (s.nextEntry g f.entry f.inner f.outer).map (fun e => ⟨f.vis + 1, e.1, 0, e.2.1, e.2.2, at_⟩)

/-- The prefetcher passes what needs no DRAM data; at most `fuel` visits. -/
def fetchSeek (s : State) (g : Fin 8) (f : Fetch) : Nat → Fetch
  | 0 => f
  | n + 1 =>
    if s.entSrc g f.entry = 1 ∧ 2 * f.off < s.segLen g f.entry then f
    else match s.fetchNext g f with
      | some f => fetchSeek s g f n
      | none => f

/-- The prefetcher does not fetch skipped samples (R312). -/
def fetchSkip (s : State) (g : Fin 8) (f : Fetch) : Fetch :=
  let G := s.sg[g]
  if f.vis < G.vis then ⟨G.vis, G.entry, 0, s.sgInner g, s.sgOuter g, G.segAt - G.runAt⟩
  else if f.vis = G.vis ∧ G.starve.isSome ∧ s.keepTime g then { f with off := max f.off (s.segDone g s.now / 64 * 32) }
  else f

/-- SG_DATA_BAD for a sample at an offset from the start of the run (R321): produced once its launch stamp is known. -/
def dataBad (s : State) (g : Fin 8) (rel : Nat) : State :=
  match s.sg[g].st with
  | .run => s.sgEvent g 9 (some (s.launch (s.sg[g].runAt + rel))) []
  | _ => s.setSg g (fun G => { G with bad := G.bad ++ [rel] })

/-- Bytes join the DRAM FIFO. -/
def fifoPut (l : List FifoSeg) (vis off : Nat) (bs : List Byte) : List FifoSeg :=
  match l.getLast? with
  | some f =>
    if f.vis = vis ∧ f.from_ + f.bytes.length = off then l.dropLast ++ [{ f with bytes := f.bytes ++ bs }]
    else l ++ [⟨vis, off, bs⟩]
  | none => [⟨vis, off, bs⟩]

/-- The played bytes of the present visit leave the DRAM FIFO, but the last of them. -/
def fifoTrim (s : State) (g : Fin 8) : State :=
  let G := s.sg[g]
  let gone := match G.st, G.starve, s.keepTime g with
    | .run, some (_, o), false => (o - 1) / 2
    | .run, _, _ => (s.segDone g s.now - 1) / 2
    | _, _, _ => 0
  let cut (f : FifoSeg) : FifoSeg :=
    let n := min f.bytes.length (gone - f.from_)
    if f.vis = G.vis then { f with from_ := f.from_ + n, bytes := f.bytes.drop n } else f
  let left := (G.fifo.map cut).filter (fun f => !f.bytes.isEmpty)
  s.setSg g (fun G => { G with fifo := left })

/-- DRAM data arrives: up to `n` bytes at the prefetcher's place (R294, R364, R367). -/
def prefetch (s : State) (g : Fin 8) (n : Nat) : State :=
  let f := s.fetchSeek g (s.fetchSkip g s.sg[g].fetch) 4096
  let s := s.setSg g (fun G => { G with fetch := f })
  let bytes := ceilDiv (s.segLen g f.entry) 2
  let k := min (min n (bytes - f.off)) (s.fifoSize g - s.fifoLevel g)
  let a := s.entAddr g f.entry + f.off
  if s.entSrc g f.entry = 1 ∧ 0 < k ∧ s.dcActive a then
    let firstBad := (s.badIn a k).map (fun u => max a (64 * u) - a) |>.foldl min k
    let (bs, bad, s) := s.acqRead (s.sgPart g) (16 + g.val) 1 a k
    let s := s.fifoTrim g
    let s := s.setSg g (fun G => { G with fifo := fifoPut G.fifo f.vis f.off bs, fetch := { f with off := f.off + k } })
    if bad && decide (firstBad < k) then s.dataBad g (f.at_ + 2 * (f.off + firstBad)) else s
  else s

/-! ## Playing -/

/-- The words of a LOCAL segment are read (R326, R327): `hits` are the words, by offset in the local store, that meet an error, 1 corrected or 2
uncorrectable. Every uncorrectable word of the segment is reported, and the first one's sample (R321). -/
def localCheck (s : State) (g : Fin 8) (hits : List (Nat × Fin 3)) : State :=
  let G := s.sg[g]
  if s.entSrc g G.entry = 0 then
    let a := s.entAddr g G.entry
    let n := ceilDiv (s.segLen g G.entry) 2
    let base := sramAt 3 g 0
    let s := forAll (hits.filter (fun h => decide (a < h.1 / 8 * 8 + 8 ∧ h.1 / 8 * 8 < a + n))) s (fun h s =>
      if h.2 = 1 then s.sbCe 3 g h.1 else if h.2 = 2 then s.sramDamage (base + h.1) else s)
    let bad := (s.sramBad.filter (fun u => decide (base + a < 8 * u + 8 ∧ 8 * u < base + a + n))).map (fun u => 8 * u - base)
    let s := forAll bad s (fun off s => s.sbUe 3 g off 3)
    match bad with
    | off :: _ => s.sgEvent g 9 (some (s.launch (G.segAt + 2 * (off - a)))) []
    | [] => s
  else s

/-- SG_START: the start instant of a generator in WAIT is reached (R306). -/
def sgBegin (s : State) (g : Fin 8) (hits : List (Nat × Fin 3)) : State :=
  match s.sg[g].st, s.startIdx g with
  | .wait, some m =>
    let t := s.launch m
    if s.reached t then
      let s := s.jumpsTo g t
      let bad := s.sg[g].bad
      let s := s.setSg g (fun G => { G with
        st := .run, runAt := m, segAt := m, lastVal := s.f (R.SG_CTL g) 11 8, bad := [] })
      let s := s.wr64 (R.SG_START_LO g) (R.SG_START_HI g) t
      let s := ((s.wr (R.SG_LOOP g) 0#32).wr (R.SG_UNDER_CNT g) 0#32).wr (R.SG_JDROP_CNT g) 0#32
      let s := s.sgEvent g 0 (some t) []
      (forAll bad s (fun r s => s.dataBad g r)).localCheck g hits
    else s
  | _, _ => s

/-- The starved periods up to instant `m`. -/
def starvedTo (s : State) (g : Fin 8) (m : Nat) : Nat := match s.sg[g].starve with | some (i, _) => m - i | none => 0

/-- Starvation is over at instant `m` (R311): the starved periods are counted, and SG_RESUME carries them and the samples skipped,
those of KEEP-TIME. -/
def starveOver (s : State) (g : Fin 8) (m : Nat) : State :=
  match s.sg[g].starve with
  | none => s
  | some _ =>
    let n := s.starvedTo g m
    ((s.bump (R.SG_UNDER_CNT g) n).setSg g (fun G => { G with starve := none })).sgEvent g 4 none [(8, n), (8, if s.keepTime g then n else 0)]

/-- Starvation ends at instant `m` and the run goes on (R311, R312): under STRETCH the schedule moves by the starved periods, under KEEP-TIME
the samples of those periods were skipped. -/
def starveEnd (s : State) (g : Fin 8) (m : Nat) : State :=
  match s.sg[g].starve with
  | none => s
  | some (i, o) =>
    let n := m - i
    let s := s.starveOver g m
    if s.keepTime g then s.setSg g (fun G => { G with okFrom := m - G.segAt })
    else s.setSg g (fun G => { G with okFrom := o, segAt := G.segAt + n, runAt := G.runAt + n })

/-- SG_UNDERRUN: the sample due for launch has not arrived (R311). -/
def starveBegin (s : State) (g : Fin 8) : State :=
  let G := s.sg[g]
  match G.st, G.starve with
  | .run, none =>
    let o := s.availTo g G.okFrom
    let m := G.segAt + o
    if o < s.segLen g G.entry ∧ s.reached (s.launch m) then
      (s.setSg g (fun G => { G with starve := some (m, o) })).sgEvent g 3 (some (s.launch m)) [(8, G.played + o)]
    else s
  | _, _ => s

/-- SG_RESUME: the starved data is there, and playing resumes at the first grid instant not yet past (R312). -/
def starveStop (s : State) (g : Fin 8) : State :=
  let G := s.sg[g]
  match G.st, G.starve with
  | .run, some (_, o) =>
    let m := s.firstIdx s.now
    let x := if s.keepTime g then m - G.segAt else o
    if x < s.segLen g G.entry ∧ x < s.availTo g x then s.starveEnd g m else s
  | _, _ => s

/-- The sample `o` of the present segment (R287, R293, R318). -/
def sampleAt (s : State) (g : Fin 8) (o : Nat) : Nat :=
  let G := s.sg[g]
  let nib (b : Byte) (i : Nat) : Nat := if i % 2 = 0 then b.toNat % 16 else b.toNat / 16
  match s.entSrc g G.entry with
  | 0 =>
    let a := sramAt 3 g (s.entAddr g G.entry + o / 2)
    nib ((wordBytes (s.sramRd a)).getD (a % 4) 0) o
  | 1 =>
    match G.fifo.find? (fun f => f.vis = G.vis ∧ f.from_ ≤ o / 2 ∧ o / 2 < f.from_ + f.bytes.length) with
    | some f => nib (f.bytes.getD (o / 2 - f.from_) 0) o
    | none => G.lastVal
  | 2 => nib (G.str.buf.getD ((G.str.pos + o - G.str.base) / 2) 0) (G.str.pos + o)
  | 3 =>
    match s.mtFind g (s.mtElems g G.entry) (o / s.opLen g) with
    | some m => ((List.range 4).map (fun l => if s.mtLane g m l (o % s.opLen g) then 2 ^ l else 0)).sum
    | none => 0
  | _ => fld (s.entW g G.entry 0) 3 0

/-- The run of a generator ends (R303, R307): the lanes show REST, SG_STOP takes the stamp. Causes: 0 HALT, 1 STOP, 2 PLL,
3 REGRID. -/
def sgEnd (s : State) (g : Fin 8) (cause : Nat) (t : Stamp) : State :=
  let s := if s.entSrc g s.sg[g].entry = 3 then s.mtgFeed g (t - 1) (s.idxCount t - s.sg[g].segAt + 1) else s
  let s := forAll (List.finRange 16) s (fun h s =>
    if fld (s.rd (R.CH_GRP_CMP h)) 6 4 = g.val then
      s.setGrp h (fun G => { G with expect := G.expect.filter (fun x => before x.launch t) }) else s)
  let s := s.jumpsTo g t
  let play := s.playAt g t
  let s := s.starveOver g (s.firstIdx t)
  let e := s.sg[g].entry
  let s := s.wr64 (R.SG_STOP_LO g) (R.SG_STOP_HI g) t
  let s := s.wr64 (R.SG_PLAY_LO g) (R.SG_PLAY_HI g) (stamp play)
  let s := s.setSg g (fun G => { ({} : SgSt) with
    entry := G.entry, jq := G.jq, jump := G.jump, jFrom := G.jFrom, jLast := G.jLast,
    str := { G.str with pos := G.str.pos + (if s.entSrc g G.entry = 2 then play - G.played else 0) } })
  let s := s.sgUnbind g
  (s.sgEvent g 1 (some t) [(1, cause), (2, e), (8, play)]).jumpsEnd g

/-- The instant at which a HALT stops the run (R307). -/
def haltIdx (s : State) (g : Fin 8) : Option Nat := s.sg[g].stopAt.map (fun t => s.first64 t)

/-- JUMP_LATCH_CLOSE: the latch of the present segment closes and its next entry is fixed (R300, R302). -/
def latchClose (s : State) (g : Fin 8) : State :=
  let s := s.starveBegin g
  let G := s.sg[g]
  let n := s.segLen g G.entry
  let o := n - 64
  let t := s.launch (G.segAt + o)
  let late := match G.starve, s.keepTime g with | some (_, x), false => decide (x ≤ o) | _, _ => false
  if G.st == .run && !G.closed && !late && s.reached t then
    let s := s.jumpsTo g t
    let hit := s.entJen g G.entry && (match s.sg[g].jump with | some j => before j.at_ t | none => false)
    let s := s.setSg g (fun G => { G with closed := true, taken := hit })
    if hit then
      let at_ := G.segAt - G.runAt + s.visitLen g G.entry
      s.setSg g (fun G => { G with
        fifo := G.fifo.filter (fun f => f.vis ≤ G.vis),
        fetch := if G.vis < G.fetch.vis then ⟨G.vis + 1, s.entJtgt g G.entry, 0, 0, 0, at_⟩ else G.fetch })
    else s
  else s

/-- The next segment begins: entry `k` at instant `m`. -/
def segBegin (s : State) (g : Fin 8) (k m : Nat) (hits : List (Nat × Fin 3)) : State :=
  let n := s.segLen g s.sg[g].entry
  let last := match s.sg[g].starve with
    | some (i, _) => if i ≤ s.sg[g].segAt then s.sg[g].lastVal else s.sampleAt g (i - 1 - s.sg[g].segAt)
    | none => s.sampleAt g (n - 1)
  let host := s.entSrc g s.sg[g].entry = 2
  (s.setSg g (fun G => { G with
    entry := k, vis := G.vis + 1, segAt := m, played := G.played + n, okFrom := 0, closed := false, taken := false,
    lastVal := last, opNext := 0, fifo := G.fifo.filter (fun f => G.vis < f.vis),
    str := if host then { G.str with pos := G.str.pos + n } else G.str })).localCheck g hits

/-- SEGMENT_END: the last sample of the present segment ends and the next entry is chosen (R298, R299, R303). -/
def segEnd (s : State) (g : Fin 8) (hits : List (Nat × Fin 3)) : State :=
  let s := s.latchClose g
  let G := s.sg[g]
  let b := s.boundaryIdx g
  let t := s.launch b
  let stuck := G.starve.isSome && !s.keepTime g
  let halted := ((s.haltIdx g).map (fun h => decide (h ≤ b))).getD false
  if G.st == .run && G.closed && !stuck && !halted && s.reached t then
    let s := if s.entSrc g G.entry = 3 then s.mtgFeed g (t - 1) (b - G.segAt + 1) else s
    let s := s.jumpsTo g t
    let m := b + (if s.deadRule g then s.deadSamples else 0)
    let resume (s : State) : State :=
      if s.sg[g].starve.isSome && (s.deadRule g || decide (0 < s.availTo g 0)) then
        (s.starveEnd g b).setSg g (fun G => { G with okFrom := 0 })
      else s
    match G.taken, s.sg[g].jump with
    | true, some j =>
      let k := s.entJtgt g G.entry
      let s := (s.setSg g (fun G => { G with jump := none })).wr (R.SG_LOOP g) 0#32
      let s := s.wr64 (R.SG_JUMP_TS_LO g) (R.SG_JUMP_TS_HI g) t
      let s := s.sgEvent g 5 (some t) [(2, G.entry), (2, k)]
      let s := match j.src with | .cmd q => s.cmdDone q 0 t | _ => s
      resume (s.segBegin g k m hits)
    | _, _ =>
      match s.nextEntry g G.entry (s.sgInner g) (s.sgOuter g) with
      | none => s.sgEnd g 1 t
      | some (k, i, o) => resume ((s.wr (R.SG_LOOP g) (word (o * 65536 + i))).segBegin g k m hits)
  else s

/-- SG_STOPPED: the run reaches its stop stamp, by HALT or at the end of its STOP segment (R307). -/
def sgStopped (s : State) (g : Fin 8) : State :=
  let s := s.starveBegin g
  match s.sg[g].st with
  | .run =>
    let due := match s.haltIdx g with
      | some h => decide (h ≤ s.boundaryIdx g) && s.reached (s.launch h)
      | none => false
    if due then s.sgEnd g 0 (s.launch ((s.haltIdx g).getD 0))
    else if s.entFlow g s.sg[g].entry = 4 then s.segEnd g [] else s
  | _ => s

/-- A one in SG_HALT (R307). -/
def sgHalt (s : State) (g : Fin 8) : State :=
  match s.sg[g].st with
  | .run => s.setSg g (fun G => { G with stopAt := some (G.stopAt.getD s.stamp32) })
  | .wait =>
    let s := s.setSg g (fun G => { ({} : SgSt) with jq := G.jq, jFrom := G.jFrom, jLast := G.jLast, str := G.str })
    (s.sgUnbind g).jumpsEnd g
  | _ => s.sgRefused g 0 0

/-- The generator of a sequencer's event takes it as a request at its launch edge (R301). -/
def seqJump (s : State) (g : Fin 8) : State :=
  let q := Fin.ofNat 8 (s.f (R.SG_JSRC g) 2 0)
  let act := !s.fb (R.SG_JSRC g) 4
  let new := s.trg.seq[q].evLog.filter (fun e => e.2.2 == act &&
    upto e.2.1.stamp s.now && before s.sg[g].jFrom.stamp e.2.1.stamp &&
    (match s.sg[g].jLast with | some u => before u e.1 | none => true))
  if s.fb (R.SG_JSRC g) 8 then
    match new.getLast? with
    | some e =>
      (s.setSg g (fun G => { G with jLast := some e.1 })).jumpAsk g ⟨e.2.1.stamp, .seq⟩
    | none => s
  else s

/-- A one in SG_JUMP.REQ (R301). -/
def sgJump (s : State) (g : Fin 8) : State := s.jumpAsk g ⟨s.stamp32, .write⟩

/-! ## The host stream (R308 to R310) -/

def strHead (s : State) (g : Fin 8) : Word := s.rd (R.SG_STR_HEAD g)
def strTail (s : State) (g : Fin 8) : Word := s.rd (R.SG_STR_TAIL g)
def strOn (s : State) (g : Fin 8) : Bool := s.fb (R.SG_STR_CTL g) 31

/-- The chunks of the ring (R308). -/
def strRing (s : State) (g : Fin 8) : Nat := 2 ^ min 16 (max 1 (s.f (R.SG_STR_CTL g) 20 16))

/-- The stream position of the sample due at present. -/
def strAt (s : State) (g : Fin 8) : Nat :=
  let G := s.sg[g]
  match G.st, G.starve, s.keepTime g with
  | .run, some (_, o), false => if s.entSrc g G.entry = 2 then G.str.pos + o else G.str.pos
  | .run, _, _ =>
    if s.entSrc g G.entry = 2 then G.str.pos + min (s.segLen g G.entry) (s.segDone g s.now) else G.str.pos
  | _, _, _ => G.str.pos

/-- The played bytes leave the stream buffer, but the last of them. -/
def strTrim (s : State) (g : Fin 8) : State :=
  let n := min s.sg[g].str.buf.length ((s.strAt g - 1 - s.sg[g].str.base) / 2)
  s.setSg g (fun G => { G with str := { G.str with buf := G.str.buf.drop n, base := G.str.base + 2 * n } })

/-- The bytes of the stream buffer that hold samples not yet played, or wait for a chunk asked for. -/
def strUsed (s : State) (g : Fin 8) : Nat :=
  let X := s.sg[g].str
  (X.buf.length - (s.strAt g - X.base) / 2) + 4096 * ((word X.asked - s.strHead g).toNat - X.again)

/-- Ask for chunks in order while the ring holds some and the stream buffer has room (R309); at most `fuel`. -/
def strPump (s : State) (g : Fin 8) : Nat → State
  | 0 => s
  | n + 1 =>
    let X := s.sg[g].str
    if s.strOn g && !X.err && decide (word X.asked ≠ s.strTail g) && decide (s.strUsed g + 4096 ≤ s.strSize g) then
      let base := (s.rd (R.SG_STR_BASE_HI g)).toNat * 4294967296 + s.f (R.SG_STR_BASE_LO g) 31 12 * 4096
      let a := base + X.asked % s.strRing g * 4096
      let s := s.setSg g (fun G => { G with str := { G.str with asked := (G.str.asked + 1) % 4294967296 } })
      strPump (s.askRead (s.sgPart g) (.chunk g (word X.asked)) a 4096 X.life) g n
    else s

/-- Setting SG_STR_CTL.EN (R308). -/
def strEnable (s : State) (g : Fin 8) : State :=
  let s := (s.wr (R.SG_STR_HEAD g) 0#32).wr (R.SG_STR_TAIL g) 0#32
  s.setSg g (fun G => { G with str := { ({} : StrSt) with life := G.str.life + 1 } })

/-- A write of SG_STR_DB (R308). -/
def strDb (s : State) (g : Fin 8) (x : Word) : State :=
  let lim := s.strHead g + word (s.strRing g)
  if (x - s.strTail g).toNat ≤ (lim - s.strTail g).toNat then (s.wr (R.SG_STR_TAIL g) x).strPump g 64
  else s.sgEvent g 8 none [(4, x.toNat)]

/-- A part of a chunk has come. -/
def chunkPart (s : State) (g : Fin 8) (life : Nat) (i : Word) (off : Nat) (bs : List Byte) : State :=
  if s.strOn g ∧ s.sg[g].str.life = life then
    s.setSg g (fun G => { G with str := { G.str with parts := G.str.parts ++ [(i.toNat, off, bs)] } })
  else s

/-- A read of a chunk has failed (R310). -/
def chunkFail (s : State) (g : Fin 8) (life : Nat) (i : Word) : State :=
  if s.strOn g ∧ s.sg[g].str.life = life ∧ !s.sg[g].str.err then
    ((s.setSg g (fun G => { G with str := { G.str with err := true, asked := i.toNat } })).faultNote 0x41 g).sgEvent g 7 none [(4, i.toNat)]
  else s

/-- The bytes of chunk `i`, when all of it has come. -/
def chunkBytes (X : StrSt) (i : Nat) : Option (List Byte) :=
  let ps := X.parts.filter (fun e => e.1 == i)
  if (ps.map (fun e => e.2.2.length)).sum < 4096 then none
  else some ((ps.foldl (fun acc e => insertBy (fun a b => a.2.1 ≤ b.2.1) e acc) []).flatMap (fun e => e.2.2))

/-- STREAM_CHUNK_READ: the oldest chunk has been read (R309): HEAD, the head shadow, the interrupt. -/
def chunkRead (s : State) (g : Fin 8) : State :=
  let p := s.sgPart g
  let h := (s.strHead g).toNat
  match s.strOn g, chunkBytes s.sg[g].str h with
  | true, some bs =>
    let s := s.strTrim g
    let new := if 0 < s.sg[g].str.again then [] else padTo 4096 bs
    let s := s.setSg g (fun G => { G with str := { G.str with
      buf := G.str.buf ++ new, again := G.str.again - 1, intN := G.str.intN + 1,
      parts := G.str.parts.filter (fun e => e.1 != h) } })
    let s := s.wr (R.SG_STR_HEAD g) (s.strHead g + 1#32)
    let a := (s.rd (R.SG_STR_SHADOW_HI g)).toNat * 4294967296 + s.f (R.SG_STR_SHADOW_LO g) 31 3 * 8
    let s := s.post p (.stream g s.sg[g].str.life (s.strHead g)) a (leBytes 8 (s.strHead g).toNat)
    let s := if s.fb (R.SG_STR_CTL g) 21 ∧ s.f (R.SG_STR_CTL g) 15 0 ≤ s.sg[g].str.intN then
        (s.setSg g (fun G => { G with str := { G.str with intN := 0 } })).raiseVec p (s.f (R.SG_STR_CTL g) 30 22)
      else s
    s.strPump g 64
  | _, _ => s

/-! ## Skew calibration (R320) -/

/-- SG_CAL with GO = 1 and loopback group 2s + GRP. -/
def sgCal (s : State) (g : Fin 8) (grp : Bool) : State :=
  let h := Fin.ofNat 16 (2 * g.val + b2n grp)
  if s.sg[g].st != .idle then s.sgRefused g 0 0
  else if !s.grid.on then s.sgRefused g 1 0
  else if s.grpPart h != s.sgPart g then s.sgRefused g 5 0
  else if !s.groupIdle h || !s.grp[h].calValid then s.sgRefused g 0 0
  else s.setSg g (fun G => { G with st := .cal, cal := some h.val })

/-- Skew calibration ends (R320): TRIM and RESID of each lane. -/
def sgCalDone (s : State) (g : Fin 8) (trims : List (Nat × Int)) : State :=
  match s.sg[g].st with
  | .cal =>
    let s := forAll (List.range 4) s (fun j s =>
      let t := trims.getD j (0, 0)
      s.wr (R.SG_LANE_TRIM g j) (word ((BitVec.ofInt 16 t.2).toNat * 65536 + t.1 % 512)))
    let worst := trims.foldl (fun (w : Int) t => if w.natAbs < t.2.natAbs then t.2 else w) 0
    let s := s.setSg g (fun G => { G with st := .idle, cal := none })
    s.sgEvent g 10 none [(2, (BitVec.ofInt 16 worst).toNat)]
  | _ => s

/-! ## SG_LS_DATA (R292) -/

/-- A read of SG_LS_DATA: the word, and the state after it. -/
def lsRead (s : State) (c : Part) (g : Fin 8) (ecc : Nat) : Word × State :=
  let a := s.f (R.SG_LS_ADDR g) 17 2 * 4
  let step (s : State) : State := s.wrF (R.SG_LS_ADDR g) 17 2 (a / 4 + 1)
  if a < s.f (R.SG_CFG g) 3 0 * 16384 then
    let s := (s.sramCheck 3 g a ecc 1).2
    (s.sramRd (sramAt 3 g a), step s)
  else (0#32, step (s.ignored c))

/-- A write of SG_LS_DATA. -/
def lsWrite (s : State) (c : Part) (g : Fin 8) (w : Word) (ecc : Nat) : State :=
  let a := s.f (R.SG_LS_ADDR g) 17 2 * 4
  let step (s : State) : State := s.wrF (R.SG_LS_ADDR g) 17 2 (a / 4 + 1)
  if s.sg[g].st != .idle then s.ignored c
  else if a < s.f (R.SG_CFG g) 3 0 * 16384 then step ((s.sramCheck 3 g a ecc 1).2.sramWr (sramAt 3 g a) w)
  else step (s.ignored c)

/-! ## The grid changes (R289, R291, R307) -/

/-- SGPLL loses lock or relocks: the grid ends and the runs stop (R289, R307). -/
def gridLost (s : State) : State :=
  let s := forAll (List.finRange 8) s (fun g s => match s.sg[g].st with | .run => s.sgEnd g 2 s.now | _ => s)
  { s with grid := { s.grid with on := false, bases := [] } }

/-- The generators bound to one stop with cause REGRID (R291). -/
def boundStop (s : State) (g : Fin 8) (t : Stamp) : State :=
  forAll ((List.finRange 8).filter (fun h => s.sg[h].st == .bound && s.sg[h].master == g.val)) s (fun h s =>
    ((s.setSg h (fun G => { G with st := .idle })).wr64 (R.SG_STOP_LO h) (R.SG_STOP_HI h) t).sgEvent h 1 (some t)
      [(1, 3), (2, 0), (8, 0)])

/-- A SYNC acted on at `t` (R289, R291, R306). -/
def gridSync (s : State) (t : Stamp) : State :=
  let s := match s.onGrid t with
    | some _ => s
    | none =>
      let s := forAll (List.finRange 8) s (fun g s =>
        match s.sg[g].st with
        | .run => (s.boundStop g t).sgEnd g 3 t
        | .wait => (s.boundStop g t).setSg g (fun G => { G with syncAt := none })
        | _ => s)
      let s := { s with grid := ⟨true, t, [⟨0, 0, s.periodNow⟩]⟩ }
      s.wr64 R.SG_GRID_O_LO R.SG_GRID_O_HI t
  let m := (s.onGrid t).getD 0
  forAll (List.finRange 8) s (fun g s =>
    if s.sg[g].st == .wait && s.sg[g].syncAt.isNone && upto (s.sg[g].cw + 20000#54).stamp t then
      s.setSg g (fun G => { G with syncAt := some m }) else s)

/-- PERST# of the partition stops a generator at once, with no event record (R307). -/
def sgPerst (s : State) (g : Fin 8) : State :=
  let s := forAll (List.finRange 16) s (fun h s =>
    if fld (s.rd (R.CH_GRP_CMP h)) 6 4 = g.val then
      s.setGrp h (fun G => { G with expect := G.expect.filter (fun x => upto x.launch s.now) }) else s)
  let s := s.sgUnbind g
  s.setSg g (fun G => { ({} : SgSt) with str := { ({} : StrSt) with life := G.str.life + 1 } })

/-! ## The lanes (R286, R299, R304, R311, R318) -/

/-- The logical level of lane `n` at the present edge. -/
def lane (s : State) (n : Fin 32) : Bool :=
  let g := Fin.ofNat 8 (n.val / 4)
  let j := n.val % 4
  let G := s.sg[g]
  let rest := (s.f (R.SG_CTL g) 11 8).testBit j
  let idle (i : Nat) : Bool := (s.f (R.SG_IDLE g (i % 64 / 8)) (4 * (i % 8) + 3) (4 * (i % 8))).testBit j
  if !s.tb.sgLock || !s.fb (R.SG_OUT g j) 0 then false
  else match G.st with
    | .idle | .wait => rest
    | .cal => false
    | .bound =>
      let M := s.sg[Fin.ofNat 8 G.master]
      let h := Fin.ofNat 8 G.master
      let o := s.segDone h s.now - 1
      if M.st == .run && s.entSrc h M.entry == 3 && decide (s.sg[h].segAt < s.idxCount s.now) then
        match s.mtFind h (s.mtElems h M.entry) (o / s.opLen h) with
        | some op => s.mtLane h op (n.val - 4 * G.master) (o % s.opLen h)
        | none => rest
      else rest
    | .run =>
      let i := s.idxCount s.now
      if i ≤ G.segAt then
        if s.fb (R.SG_CTL g) 6 then idle (i + s.deadSamples - G.segAt - 1) else G.lastVal.testBit j
      else match G.starve with
        | some (m, _) => if m ≤ G.segAt then G.lastVal.testBit j else (s.sampleAt g (m - 1 - G.segAt)).testBit j
        | none => (s.sampleAt g (min (i - G.segAt) (s.segLen g G.entry) - 1)).testBit j

end State

/-! ## Steps -/

/-- SG_START: the start grid instant is reached and entry 0 plays (R306). -/
def execSgStart (g : SgRead) (s : State) : Host.Outcome State Fault Refusal := .next (s.sgBegin g.gen g.hits)

/-- JUMP_LATCH_CLOSE: a segment's jump latch closes (R300). -/
def execJumpLatchClose (g : Fin 8) (s : State) : Host.Outcome State Fault Refusal := .next (s.latchClose g)

/-- SEGMENT_END: a segment's last sample ends (R298). -/
def execSegmentEnd (g : SgRead) (s : State) : Host.Outcome State Fault Refusal := .next (s.segEnd g.gen g.hits)

/-- SEQ_JUMP_ARRIVAL: a sequencer's event reaches a generator (R301). -/
def execSeqJumpArrival (g : Fin 8) (s : State) : Host.Outcome State Fault Refusal := .next (s.seqJump g)

/-- SG_STOPPED: a run ends at its stop stamp (R307). -/
def execSgStopped (g : Fin 8) (s : State) : Host.Outcome State Fault Refusal := .next (s.sgStopped g)

/-- STREAM_CHUNK_READ: a chunk has been read (R309). -/
def execStreamChunkRead (g : Fin 8) (s : State) : Host.Outcome State Fault Refusal := .next ((s.starveBegin g).chunkRead g)

/-- PREFETCH_DATA: `n` bytes of DRAM segment data arrive in the DRAM FIFO (R294). -/
def execPrefetchData (g : Fin 8) (n : Fin 4097) (s : State) : Host.Outcome State Fault Refusal :=
  match s.sg[g].st with
  | .wait | .run => .next ((s.starveBegin g).prefetch g n)
  | _ => .next s

/-- SG_UNDERRUN: a sample due for launch has not arrived (R311). -/
def execSgUnderrun (g : Fin 8) (s : State) : Host.Outcome State Fault Refusal := .next (s.starveBegin g)

/-- SG_RESUME: the starved data has arrived and playing resumes (R312). -/
def execSgResume (g : Fin 8) (s : State) : Host.Outcome State Fault Refusal := .next (s.starveStop g)

/-- SG_CAL_DONE: skew calibration ends (R320) with the trim and residual error of each lane. -/
def execSgCalDone (g : Fin 8) (trims : List (Nat × Int)) (s : State) : Host.Outcome State Fault Refusal :=
  .next (s.sgCalDone g trims)

end Sys2Proof.Machine
end

