-- ==== Sys2Proof/Machine/StreamSteps.lean ====
section
/-! DEFINITION. The steps of groups and packers (files 03 and 05), the trigger block (04), the interval units (06), the
extractors and engines (07), the queues (08) and the acquisition memory (11) that the part takes by itself. -/

namespace Sys2Proof.Machine

open Bits

/-! ## Groups and packers -/

/-- HELD_RELEASE: a group in HELD enters WAIT when calibration ends (R31, R90). -/
def execHeldRelease (g : Fin 16) (s : State) : Host.Outcome State Fault Refusal := .next (s.heldRelease g)

/-- GROUP_RUN: the timebase reaches S and the group enters RUN (R90). -/
def execGroupRun (g : Fin 16) (s : State) : Host.Outcome State Fault Refusal := .next (s.groupRun g)

/-- GRP_DRAINED: the packer has emptied the group, which enters IDLE (R93). -/
def execGrpDrained (g : Fin 16) (s : State) : Host.Outcome State Fault Refusal := .next (s.settle.grpDrained g)

/-- CHANNEL_ENABLE_STAMP: a change of CH_CTL.EN takes effect at its stamp (R95). -/
def execChannelEnableStamp (c : Fin 128) (s : State) : Host.Outcome State Fault Refusal := .next (s.enSync c).settle

/-- CMP_MISSING: an expected item's window has passed with no sample (R106). Every sample below the present edge less 48 ns
has been taken. -/
def execCmpMissing (g : Fin 16) (s : State) : Host.Outcome State Fault Refusal :=
  let s := s.settle
  .next (s.cmpMiss g (s.now - 98304#64) 1)

/-- MARGIN_EMIT: a margin window's last hold is known and its entries are emitted (R105). -/
def execMarginEmit (g : Fin 16) (s : State) : Host.Outcome State Fault Refusal := .next (s.settle.marginEmit g)

/-- A staging word met an error (R326, R327) as its event was taken. The spec does not lay out the buffers: the
word address within the channel's 256 KiB is free. -/
def State.stagingHit (s t : State) (g : Fin 16) (ecc : Fin 3) : State :=
  match (List.range 8).find? (fun j => decide (t.ch[chOf g j].stg.length < s.ch[chOf g j].stg.length)) with
  | some j =>
    if ecc = 0 then t
    else
      let (w, t) := t.takeWord
      let off := j * 262144 + w.toNat % 262144
      if ecc = 1 then t.sbCe 2 g off else t.sbUe 2 g off 7
  | none => t

/-- PACK_ITEM: the packer takes its next item (R158). `ecc`: the staging word meets no error, a corrected one (R326), or is uncorrectable
(R169, R327); `bad`: a packer residue retry failed (R501). -/
def execPackItem (g : Fin 16) (ecc : Fin 3) (bad : Bool) (s : State) : Host.Outcome State Fault Refusal :=
  let s := s.settle
  let s := forAll s.grp[g].winDone s (fun _ s => s.marginEmit g)
  let edge := match State.firstCand (s.cands g) with
    | some k => (match k.cand with | State.Cand.edge _ _ => true | _ => false)
    | none => false
  let t := s.packOne g (ecc == 2) bad
  .next (if edge then s.stagingHit t g ecc else t)

/-- BLOCK_FLUSH: a partly filled block is closed FLUSH microseconds after its first item (R177). -/
def execBlockFlush (g : Fin 16) (s : State) : Host.Outcome State Fault Refusal := .next (s.settle.blockFlush g)

/-- BLOCK_WRITTEN: a capture block has been written and CH_GRP_WPTR advances (R176). -/
def execBlockWritten (g : Fin 16) (s : State) : Host.Outcome State Fault Refusal := .next (s.blockWritten g)

/-- SEALER_CHAIN_STEP: the sealer finishes its next job (R182 to R185, R278). -/
def execSealerChainStep (s : State) : Host.Outcome State Fault Refusal :=
  match s.sealNext with
  | none => .next s
  | some (.block g bytes seq last) => .next (({ s with sealQ := s.sealQ.erase (.block g bytes seq last) }).sealBlock g bytes seq last)
  | some (.message q ord bytes seq t) => .next (({ s with sealQ := s.sealQ.erase (.message q ord bytes seq t) }).qHash q ord bytes seq t)

/-! ## Trigger block -/

/-- RESOURCE_ENABLE_STAMP: a change of a resource's EN takes effect at its stamp (R117). -/
def execResourceEnableStamp (k : Fin 4) (n : Fin 64) (s : State) : Host.Outcome State Fault Refusal :=
  let kind : ResKind := match k with | 0 => .pc | 1 => .iq | 2 => .ct | 3 => .mm
  .next (s.resSync (fun x m => x == kind && m == n.val)).settle

/-- PC_DUR_HIT: an ENTER comparator has stayed true for DUR (R121). -/
def execPcDurHit (p : Fin 64) (s : State) : Host.Outcome State Fault Refusal :=
  let s := s.settle
  .next (s.pcDurDue p (s.now - State.lagTu))

/-- IQ_TIMEOUT: a TIMEOUT qualifier's deadline has passed without a B edge (R123). -/
def execIqTimeout (q : Fin 32) (s : State) : Host.Outcome State Fault Refusal :=
  let s := s.settle
  .next (s.iqTmoDue q (s.now - State.lagTu))

/-- Everything that feeds the sequencers is known below their horizons (R130). -/
def State.feed (s : State) : State :=
  let s := s.settle
  let lim := s.now - State.lagTu
  let s := forAll (List.finRange 64) s (fun p s => s.pcDurDue p lim)
  forAll (List.finRange 32) s (fun q s => s.iqTmoDue q lim)

/-- COUNTER_TERMINAL: a TIME counter reaches LIMIT at a stamp that its sequencer's horizon has passed (R127, R130). -/
def execCounterTerminal (n : Fin 32) (s : State) : Host.Outcome State Fault Refusal :=
  let s := s.feed
  match s.ctSeq n with
  | none => .next s
  | some q => match s.nextRelevant q with
    | some t => if s.ctTime n && s.ctTerminal n == some t && s.fedTo q t then .next (s.decideAt q t none) else .next s
    | none => .next s

/-- MATCHER_MESSAGE: the oldest message that waits at the matchers is matched (R129). -/
def execMatcherMessage (s : State) : Host.Outcome State Fault Refusal :=
  match s.qm.mm with
  | [] => .next s
  | m :: r => .next ((s.setQm (fun Q => { Q with mm := r })).matchMessage m.part m.queue m.type m.stamp m.coast m.err m.payload)

/-- SEQ_DECISION: a sequencer takes its next decision, once the counters of others that it uses are decided up to there (R130, R133).
`residue` names a counter whose residue retry fails (R128). -/
def execSeqDecision (q : Fin 8) (residue : Option (Fin 32)) (s : State) : Host.Outcome State Fault Refusal :=
  let s := s.feed
  match s.nextRelevant q with
  | some t => if s.fedTo q t then .next (s.decideAt q t residue) else .next s
  | none => .next (s.seqFinish q)

/-- TRG_ARMED: the arm stamp is reached (R137). -/
def execTrgArmed (q : Fin 8) (s : State) : Host.Outcome State Fault Refusal := .next (s.trgArmed q)

/-- SEQ_RUN_ENTRY: at A + PRE the sequencer enters RUN in stage 0 (R137). -/
def execSeqRunEntry (q : Fin 8) (s : State) : Host.Outcome State Fault Refusal := .next (s.seqRunEntry q)

/-- TRG_DONE: the counter passes T + POST (R138). -/
def execTrgDone (q : Fin 8) (s : State) : Host.Outcome State Fault Refusal := .next (s.trgDone q)

/-- TRIG_IO_INPUT: a pin is sampled with a new level (R148). -/
def execTrigIoInput (k : Fin 16) (level : Bool) (s : State) : Host.Outcome State Fault Refusal := .next (s.ioInput k level)

/-- TRIG_IO_LAUNCH: a pin takes the level of its launch edge (R149). -/
def execTrigIoLaunch (k : Fin 16) (s : State) : Host.Outcome State Fault Refusal := .next (s.ioLaunch k)

/-- TRIG_IO_PULSE_END: a pulse of a pin ends (R149). -/
def execTrigIoPulseEnd (k : Fin 16) (s : State) : Host.Outcome State Fault Refusal :=
  if s.ioDrive k then .next s else .next (s.ioLaunch k)

/-! ## Interval units -/

/-- IU_ENABLE_STAMP: a unit starts taking edges (R190). -/
def execIuEnableStamp (u : Fin 16) (s : State) : Host.Outcome State Fault Refusal := .next (s.settle.iuSync u)

/-- IU_DISABLE_STAMP: a unit takes no more starts (R190). -/
def execIuDisableStamp (u : Fin 16) (s : State) : Host.Outcome State Fault Refusal := .next (s.settle.iuSync u)

/-- IU_DECIDE: the results of the oldest start are formed (R196). -/
def execIuDecide (u : Fin 16) (fail : Bool) (s : State) : Host.Outcome State Fault Refusal := .next (s.settle.iuDecide u fail)

/-- IU_SNAPSHOT_DONE: the live bank becomes the frozen bank (R206). -/
def execIuSnapshotDone (u : Fin 16) (s : State) : Host.Outcome State Fault Refusal := .next (s.settle.iuSnapDone u)

/-! ## Extractors and engines -/

/-- IDLE_SYMBOL: IDLE_N bit periods have passed without an edge (R226). -/
def execIdleSymbol (x : Fin 128) (s : State) : Host.Outcome State Fault Refusal := .next (s.settle.xtNow x)

/-- SYMBOL_DELIVERY: an extractor delivers its oldest symbol (R227). -/
def execSymbolDelivery (x : Fin 128) (s : State) : Host.Outcome State Fault Refusal := .next ((s.settle.xtNow x).deliverSym x)

/-- SYMBOL_RELEASE: a port releases its oldest symbol (R233). -/
def execSymbolRelease (e : Fin 256) (s : State) : Host.Outcome State Fault Refusal :=
  .next ((s.portFed e).releaseSym e)

/-- TIMER_PENDING: the stream horizon has passed a timer's deadline (R236). -/
def execTimerPending (e : Fin 256) (t : Fin 2) (s : State) : Host.Outcome State Fault Refusal :=
  .next ((s.portFed e).timerDue e t)

/-- GANG_MSG_RELEASE: a gang member's waiting message is released (R250). -/
def execGangMsgRelease (e : Fin 256) (s : State) : Host.Outcome State Fault Refusal := .next (s.gangRelease e)

/-! ## Queues -/

/-- QM_ACCEPT: the oldest message of an engine's port reaches the queue manager (R260). -/
def execQmAccept (e : Fin 256) (s : State) : Host.Outcome State Fault Refusal := .next (s.portSend e)

/-- PAGE_FILL: a spilled page has been read back (R262). -/
def execPageFill (q : Fin 16384) (page : Nat) (s : State) : Host.Outcome State Fault Refusal := .next (s.fillPage q page)

/-- QUEUE_DRAINED: a draining queue has delivered all it held (R255). -/
def execQueueDrained (q : Fin 16384) (s : State) : Host.Outcome State Fault Refusal := .next (s.qDrained q)

/-- Word `w` of the records of a message, of 64 bits, holds nothing the spec states (R268). -/
def State.spoilMsg (s : State) (q ord w : Nat) : State :=
  let (lo, s) := s.takeWord
  let (hi, s) := s.takeWord
  let put (b : List Byte) : List Byte := b.take (8 * (w % 4)) ++ wordBytes lo ++ wordBytes hi ++ b.drop (8 * (w % 4) + 8)
  s.setQ q (fun Q => { Q with msgs := Q.msgs.map (fun x =>
    if x.ord = ord then { x with bad := true, recs := x.recs.modify (w / 4) put } else x) })

/-- Stored words that a DLV ring finds uncorrectable, or corrected (R268, R326, R327). `hurt`: OBS queue, how many unsent messages stand before the
one it belongs to, whether the error is corrected, and a word of the queue pool by bank and byte offset, which says the word of the message too (log entry 151). `index`: OBS queue and page of a bad page index entry. -/
def State.storeFaults (s : State) (q : Nat) (hurt : List (Fin 16384 × Nat × Fin 32 × Nat × Bool)) (index : List (Fin 16384 × Nat)) : State :=
  let p := s.qPart q
  if s.qType q ≠ 5 ∨ !s.ringOn p q ∨ !s.mayIssue p then s
  else
    let feeds (o : Nat) : Bool := s.qType o == 1 && s.qBusy o && s.f (qd o 0) 29 16 == q && s.qPart o == p
    let s := forAll (hurt.filter (fun h => feeds h.1 && s.pmap.bank[h.2.2.1] == p && s.bankUse h.2.2.1 == 1 && decide (h.2.2.2.1 < 2097152))) s
      (fun h s => match ((s.qSt h.1).msgs.filter (fun m => !m.sent))[h.2.1]? with
        | some m =>
          let off := h.2.2.2.1
          if h.2.2.2.2 then s.sbCe 0 h.2.2.1 off else (s.spoilMsg h.1 m.ord (off / 8 % (4 * m.slots))).sbUe 0 h.2.2.1 off 5
        | none => s)
    forAll (index.filter (fun i => feeds i.1)) s (fun i s => s.indexBad i.1 i.2)

/-- RING_WRITE: up to `n` messages go into the free slots of a ring, then its shadow (R272). -/
def execRingWrite (q : Fin 16384) (n : Nat) (hurt : List (Fin 16384 × Nat × Fin 32 × Nat × Bool)) (index : List (Fin 16384 × Nat)) (s : State) :
    Host.Outcome State Fault Refusal := .next ((s.storeFaults q hurt index).ringWrite q n)

/-- INTERRUPT_MOD_TIMEOUT: MOD_TIME has passed since the first slot after the last interrupt (R273). -/
def execInterruptModTimeout (q : Fin 16384) (s : State) : Host.Outcome State Fault Refusal := .next (s.modTimeout q)

/-! ## Acquisition memory -/

/-- DRAM_ACCESS_DONE: an access completes, corrected or uncorrectable (R363, R366, R367), after `ns` nanoseconds. -/
def execDramAccessDone (c : Fin 16) (port cls : Nat) (a : Nat) (outcome : Fin 3) (ns : Nat) (s : State) :
    Host.Outcome State Fault Refusal := .next (s.accessDone c port cls a outcome ns)

/-- A request of a port of class C0 or C1 waits at a channel: a closed block of a group, or the next fetch of a generator. -/
def State.portWaits (s : State) (c : Fin 16) (port : Nat) : Bool :=
  if port < 16 then
    let g := Fin.ofNat 16 port
    s.grp[g].out.isSome && s.dcChan (s.blockAddr g s.grp[g].writes) == c
  else
    let g := Fin.ofNat 8 (port - 16)
    let f := s.fetchSeek g (s.fetchSkip g s.sg[g].fetch) 4096
    s.entSrc g f.entry == 1 && decide (2 * f.off < s.segLen g f.entry) && s.dcChan (s.entAddr g f.entry + f.off) == c

/-- A panicking port with a request at a channel (R371, R388). -/
def State.panicWaits (s : State) (c : Fin 16) : Option Nat := (List.range 24).find? (fun port => s.portPanic port && s.portWaits c port)

/-- REFRESH_DUE: a refresh interval accrues to a rank's debt (R373). -/
def execRefreshDue (c : Fin 16) (r : Fin 2) (s : State) : Host.Outcome State Fault Refusal := .next ((s.refreshDue c r).holdCheck c r (s.panicWaits c))

/-- PER_BANK_REFRESH_DONE: a per-bank refresh ends (R374). -/
def execPerBankRefreshDone (c : Fin 16) (r : Fin 2) (s : State) : Host.Outcome State Fault Refusal := .next ((s.perBankDone c r).holdCheck c r (s.panicWaits c))

/-- MR4_POLL: MR4 of a rank has been read (R376): the multiplier code, or a code above range. -/
def execMr4Poll (c : Fin 16) (r : Fin 2) (m : Fin 3) (hot : Bool) (s : State) : Host.Outcome State Fault Refusal :=
  .next ((s.mr4 c r m hot).holdCheck c r (s.panicWaits c))

/-- TRN_CMD_DONE: a custom training command completes (R384). -/
def execTrnCmdDone (c : Fin 16) (mrr : Byte) (errs : List Nat) (beats : List (List Byte)) (s : State) :
    Host.Outcome State Fault Refusal := .next (s.trnDone c mrr errs beats)

/-- DC_FILL_DONE: the fill engine of a partition completes (R369). -/
def execDcFillDone (p : Fin 4) (fail : Option Nat) (s : State) : Host.Outcome State Fault Refusal := .next (s.fillDone p fail)

end Sys2Proof.Machine
end

