-- ==== Sys2Proof/Machine/TimeSteps.lean ====
section
/-! DEFINITION. The PLLs (file 02): locking and loss of lock, SGPLL's settings, the restart at a SYNC, and the recovery of a
DRAM quadrant (R47 to R54, R67 to R78, R380 to R383). -/

namespace Sys2Proof.Machine

open Bits

namespace State

/-- TBPLL, or its spare, locks (R48, R53, R54, R61): the counter starts at the first lock, and the other PLLs have their reference
and start to lock. -/
def tbpllLock (s : State) : State :=
  let seed := s.tb.inForce.seed
  let lfsr := if seed = 0#32 then 1#32 else seed
  if !s.tb.ever then
    if s.tb.refOk then
      let s := s.setTb (fun t => { t with ever := true, lock := true, count := 0, lfsr := lfsr, relocking := false })
      forAll (List.finRange 5) s (fun k s => s.acquire k)
    else s
  else if s.tb.relocking && s.tb.refOk && s.tb.applyAt.isNone && !s.tb.spare && s.acquiredSpare then
    s.setTb (fun t => { t with spare := true, spareAcq := none, lfsr := lfsr })
  else s

/-- DPLLq locks (R76): its clocks are enabled again, and controllers in self-refresh start a fast retrain. -/
def dpllLock (s : State) (q : Fin 4) : State :=
  let k : Fin 5 := Fin.ofNat 5 q.val
  if s.tb.dpll[q].lock || !s.acquired k then s
  else
    let s := s.setTb (fun t => { t with
      dpll := t.dpll.set q { t.dpll[q] with lock := true, gated := false, acks := [], lossAt := none }, acq := t.acq.set k none })
    forAll s.fitted s (fun c s =>
      if quadOf c == q && !s.pwr.dark then
        match s.dc[c].st with
        | .selfRefresh => (s.setSelfRef c false).setDc c (fun d => { d with st := .retrain })
        | _ => s
      else s)

/-- SGPLL locks (R48, R78). -/
def sgpllLock (s : State) : State :=
  if s.tb.sgLock || !s.acquired 4 then s
  else
    let was := s.tb.sgEver
    let s := s.setTb (fun t => { t with sgLock := true, sgEver := true, acq := t.acq.set 4 none })
    if was then s.tbEvent 8 0 (some s.now) [] else s

/-- DPLLq declares loss of lock (R76) and starts to lock again. A second loss before its quadrant resumes service lengthens the one
interruption (log entry 140). -/
def dpllLost (s : State) (q : Fin 4) : State :=
  if s.tb.dpll[q].lock && s.tb.lolSusp.isNone then
    let s := (s.setTb (fun t => { t with dpll := t.dpll.set q { t.dpll[q] with
      lock := false, lolAt := some (t.dpll[q].lolAt.getD t.count), lossAt := some t.count, acks := [] } })).acquire (Fin.ofNat 5 q.val)
    s.tbEvent 5 q (some s.now) []
  else s

/-- SGPLL declares loss of lock (R71, R289, R307). -/
def sgpllLost (s : State) : State :=
  if s.tb.sgLock && s.tb.lolSusp.isNone then
    let s := (s.setTb (fun t => { t with sgLock := false, divFrom := none })).acquire 4
    ((s.tbEvent 7 0 (some s.now) []).gridLost).rampStop 1
  else s

/-- A write to TB_SG_APPLY, or a SHARED APPLY of SGPLL (R67, R78). Its relock ends in TB_SG_BACK. -/
def sgApply (s : State) (off gen : Nat) : State :=
  let fcw := s.rd R.TB_SG_FCW
  if gen ≠ s.f R.TB_SG_GEN 15 0 ∨ !s.sgQuiet ∨ fcw.toNat < 0x20000000 ∨ 0x40000000 < fcw.toNat then s.tbStale off gen
  else
    let s := s.wrF R.TB_SG_GEN 15 0 (gen + 1)
    let s := s.setTb (fun t => { t with sgFcw := fcw, sgCtl := s.rd R.TB_SG_CTL, sgLock := false, sgEver := true, divFrom := none })
    ((if s.tb.ever then s.acquire 4 else s).rampStop 1).gridLost

/-- The dividers restart on the TBCLK edge at `t` (R73): TB_SYNC_TS, a waiting ramp, waiting groups, the grid. It happens, once a
SYNC has been acted on, whatever TBPLL and SGPLL do in between (log entry 137). -/
def syncRestart (s : State) (t : Stamp) : State :=
  let s := if s.tb.sgLock then s.setTb (fun x => { x with divFrom := some t }) else s
  let s := s.wr64 R.TB_SYNC_TS_LO R.TB_SYNC_TS_HI t
  let s := s.tbEvent 10 0 (some t) []
  let s := if s.tb.ramp.run && s.tb.ramp.waitSync then s.rampFirst (BitVec.ofNat 54 (t.toNat / 1024)) else s
  let s := s.syncStarts t
  if s.tb.sgLock then s.gridSync t else s

/-- A quadrant resumes service when none of its controllers is left in recovery (R76): TB_DPLL_BACK with the interruption in
ns. -/
def quadBack (s : State) (q : Fin 4) : State :=
  let busy := s.fitted.any (fun c => quadOf c == q &&
    (match s.dc[c].st with | .selfRefresh => true | .retrain => true | .training => true | _ => false))
  match s.tb.dpll[q].lolAt with
  | some a =>
    if s.tb.dpll[q].lock && !busy then
      let ns := (s.tb.count - a).toNat / 2
      (s.setTb (fun t => { t with dpll := t.dpll.set q { t.dpll[q] with lolAt := none } })).tbEvent 6 q none [(8, ns)]
    else s
  | none => s

end State

/-! ## Steps -/

/-- PLL_LOSS_OF_LOCK: a DPLL (0 to 3) or SGPLL (4) declares loss of lock (R49). -/
def execPllLossOfLock (which : Fin 5) (s : State) : Host.Outcome State Fault Refusal :=
  if which.val = 4 then .next s.sgpllLost else .next (s.dpllLost (Fin.ofNat 4 which.val))

/-- SYNC_RESTART: the TBCLK edge set after a sampled SYNC is reached (R73). -/
def execSyncRestart (s : State) : Host.Outcome State Fault Refusal :=
  match s.tb.syncAt with
  | t :: r => if s.reached t then .next ((s.setTb (fun x => { x with syncAt := r })).syncRestart t) else .next s
  | [] => .next s

end Sys2Proof.Machine
end

