-- ==== Sys2Proof/Machine/Sc.lean ====
section
/-! DEFINITION. The system controller's own operations (file 14): its events, the boot flash and its directory, how a load
begins and fails, the mailboxes' ends, tamper and the Cocoon's wipe (R352 to R354, R456, R457, R468, R470, R479, R485). -/

namespace Sys2Proof.Machine

open Bits

namespace State

/-- Change the system controller's state. -/
def setSc (s : State) (h : ScSt → ScSt) : State := { s with sc := h s.sc }

/-- Event `k` of the system controller in one partition (R486). -/
def scEvent (s : State) (p : Fin 4) (k : Nat) (items : List (Nat × Nat)) : State :=
  s.event p (R.SC_EVT_CNT p k) 0xF8 k 0 none items

/-- The same in some partitions. -/
def scEvents (s : State) (ps : List (Fin 4)) (k : Nat) (items : List (Nat × Nat)) : State :=
  forAll (ps.filter s.present) s (fun p s => s.scEvent p k items)

/-- Start-up reaches its final phase (R475, R476, R486). -/
def startupEnd (s : State) (phase : Nat) : State := ({ s with phase := phase }).scEvents (List.finRange 4) 6 [(1, phase)]

/-! ## The boot flash (R456, R457) -/

/-- A byte of the boot flash; erased flash reads as ones. -/
def flashGet (s : State) (a : Nat) : Byte := Tab.get (fun _ => 0xFF#8) s.sc.flash a
def flashSet (s : State) (a : Nat) (b : Byte) : State := s.setSc (fun c => { c with flash := Tab.set (fun _ => 0xFF#8) c.flash a b })
def flashBytes (s : State) (a n : Nat) : List Byte := (List.range n).map (fun i => s.flashGet (a + i))

/-- A directory copy whose CRC matches. -/
def dirAt (s : State) (a : Nat) : Option (List Byte) :=
  let d := s.flashBytes a 256
  if leAt d 252 4 = (crc32c (padTo 252 d ++ padTo 4 [])).toNat then some d else none

/-- The slots of one type in directory order: offset and size. -/
def slots (s : State) (type : Nat) : List (Nat × Nat) :=
  match (s.dirAt 0).or (s.dirAt 0x1000) with
  | none => []
  | some d => (List.range (min 14 (leAt d 6 2))).filterMap (fun e =>
      if leAt d (16 + 16 * e) 1 = type then some (leAt d (20 + 16 * e) 4, leAt d (24 + 16 * e) 4) else none)

/-! ## Mailboxes (R479) -/

/-- A service of partition `p` ends with a status and a result. -/
def mailDone (s : State) (p : Fin 4) (status result : Nat) : State :=
  let s := s.setSc (fun c => { c with mail := c.mail.set p none })
  (s.wrF (R.SC_MB_STATUS p) 15 8 status).wr64 (R.SC_MB_RES_LO p) (R.SC_MB_RES_HI p) (stamp result)

/-! ## Loads (R470, R473) -/

/-- The partitions a load covers. -/
def covered (l : Load) : List (Fin 4) := if l.full then List.finRange 4 else [l.part]

/-- The partition that asked for a load. -/
def issuer (s : State) (l : Load) : Fin 4 :=
  match l.by_ with | .cmd q => s.qPart q | .mail p => Fin.ofNat 4 p | .start _ => s.owner

/-- A load begins (R470 step 1). -/
def loadBegin (s : State) (l : Load) : State :=
  let s := s.setSc (fun c => { c with
    load := some { l with prev := c.img, life := c.loads }, loads := c.loads + 1, img := (covered l).foldl (fun (v : Vector Nat 4) (p : Fin 4) => v.set p 1) c.img })
  if l.full then { s with loading := true } else s

/-- BRINGUP ends once the march and the zeroing are over and the timebase runs: the validated image is applied, PHASE 4, or
start-up is complete without an image, PHASE 12 (R475 to R477). -/
def startCheck (s : State) : State :=
  if s.phase = 3 && s.sc.marched && s.sc.zeroed && s.tb.ever then
    match s.sc.load with
    | some l => if l.image.isSome then { s with phase := 4 } else s
    | none => if s.sc.noImage then s.startupEnd 12 else s
  else s

/-- Start-up takes image slot `k`, or goes on without an image (R475, R477). -/
def startLoad (s : State) (k : Nat) : State :=
  match (s.slots 3)[k]? with
  | some (a, n) => s.loadBegin { by_ := .start k, src := .flash, full := true, part := 0, addr := a, len := n }
  | none => (s.setSc (fun c => { c with noImage := true })).startCheck

/-- A load ends in steps 2 to 4, or is ended from outside, with nothing of the image used (R470, R473). -/
def loadFail (s : State) (status step : Nat) : State :=
  match s.sc.load with
  | none => s
  | some l =>
    let s := { (s.setSc (fun c => { c with load := none, img := l.prev })) with loading := false }
    let s := (s.scNote 1).scEvent (s.issuer l) 3 [(1, status), (1, step)]
    match l.by_ with
    | .cmd q => s.cmdEnd q 4 status 0
    | .mail p => s.mailDone (Fin.ofNat 4 p) status 0
    | .start k => s.startLoad (k + 1)

/-! ## The Cocoon and tamper (R353, R354, R485) -/

/-- A cause wipes the Cocoon (R353, R354, R473): keys are gone, protected programs are zeroed and their engines OFF, a load
that has not reached step 5 ends with FAULT. -/
def wipe (s : State) (cause : Nat) : State :=
  let s := s.cocoonWipe cause
  let s := forAll (List.finRange 256) s (fun e s =>
    if s.eng[e].prot then (s.sramZero (sramAt 1 e 0) (s.codeSize e)).setEng e (fun _ => {}) else s)
  match s.sc.load with
  | some l => if l.image.isNone then s.loadFail 8 3 else s
  | none => s

/-- A tamper source (R485): 0 TAMPER_N, 1 supply, 2 clock, 3 temperature, 4 authentication. -/
def tamper (s : State) (src : Nat) : State :=
  ((s.wipe 1).setSc (fun c => { c with tampered := true })).scEvents (List.finRange 4) 4 [(1, src)]

/-- An AUTH outcome (R468): the eighth consecutive failure is a tamper source. -/
def authFail (s : State) (p : Fin 4) (src stage : Nat) : State :=
  let n := s.f R.SC_AUTH 3 0 + 1
  let s := s.wrF R.SC_AUTH 3 0 (n % 8)
  let s := s.scEvents (if p = s.owner then [p] else [p, s.owner]) 2 [(1, src), (1, stage), (1, n % 8)]
  if n = 8 then s.tamper 4 else s

/-- A successful authentication clears FAILS (R468). -/
def authOk (s : State) : State := s.wrF R.SC_AUTH 3 0 0

end State
end Sys2Proof.Machine
end

