-- ==== Sys2Proof/Machine/Power.lean ====
section
/-! DEFINITION. The power governor, thermal limits, the unrecoverable faults and the monitors' own steps (file 15). -/

namespace Sys2Proof.Machine

open Bits

namespace State

/-- Change the governor's state. -/
def setPwr (s : State) (h : PwrSt → PwrSt) : State := { s with pwr := h s.pwr }

/-- Event `k` of the governor, in every partition (R510). -/
def pgEvent (s : State) (k index : Nat) (items : List (Nat × Nat)) : State :=
  s.eventAll (R.PG_EVT_CNT k) 0xF4 k index none items

/-- A port reports an error through Advanced Error Reporting (R402): the bit of the Uncorrectable Error Status register. -/
def aerSet (s : State) (p : Fin 4) (b : Nat) : State :=
  if s.present p then s.setPort p (fun P => { P with aer := P.aer ||| word (2 ^ b) }) else s

/-! ## Unrecoverable faults (R503, R504) -/

/-- A generator stops with no record, as at a fault; its stream's state stays readable. -/
def sgKill (s : State) (g : Fin 8) : State :=
  match s.sg[g].st with
  | .idle => s
  | _ => let x := s.sg[g].str; (s.sgPerst g).setSg g (fun G => { G with str := x })

/-- What the fault THERMAL does besides (R504). A channel that was in use shows SELF_REFRESH, so that an access to it waits
as R365 says (log entry 127). -/
def goDark (s : State) : State :=
  let s := forAll (List.finRange 16) s (fun c s => (s.setSelfRef c true).setDc c (fun d => { d with
    st := match d.st with
      | .active | .training | .retrain => .selfRefresh
      | x => x }))
  let s := s.wrF R.PG_VCORE 15 0 (clamp 680 880 (s.f R.PG_VCTL 9 0)).toNat
  let s := forAll ((List.range 14).filter (fun c => c != 0 && c != 11)) s (fun c s => s.wrF (R.PG_CLASS c) 26 16 0)
  s.setPwr (fun w => { w with dark := true })

/-- A command that waits in a CMD ring completes with FAULT (R504), but for DIGEST; a READOUT says what was done. -/
def cmdFault (s : State) (q : Nat) : State :=
  match s.cmdHead q with
  | some d =>
    if (s.ringSt q).busy && leAt d 0 1 != 3 then
      let left := ((s.port[s.qPart q].tx.filter (fun t => t.kind == .readout q)).map (fun t => t.bytes.length)).sum
      s.cmdDone q 8 (if leAt d 0 1 = 0x0D then stamp ((s.ringSt q).got - left) else 0)
    else s
  | none => s

/-- What waits for the system controller or for a device happening ends (R504): the load, commands, and after LOCKSTEP the
mailbox services. -/
def scFault (s : State) (code : Nat) : State :=
  let by_ := s.sc.load.map (fun l => l.by_)
  let s := match s.sc.load with
    | some l => { (s.setSc (fun c => { c with load := none, img := l.prev })) with loading := false }
    | none => s
  let s := forAll s.rings s (fun q s => s.cmdFault q)
  forAll (List.finRange 4) s (fun p s =>
    if s.sc.mail[p].isSome && (code == 0xF0 || by_ == some (.mail p)) then s.mailDone p 8 0 else s)

/-- An unrecoverable fault at the present stamp F: everything stops, PHASE becomes 15 (R504). -/
def fatal (s : State) (code detail : Nat) : State :=
  let s := forAll (List.finRange 16) s (fun g s => match s.grp[g].st with
    | .run => s.grpStop g s.now
    | .held | .wait => s.groupHalt g
    | _ => s)
  let s := forAll (List.finRange 8) s (fun q s => match s.trg.seq[q].st with
    | .idle | .done => s
    | _ =>
      let s := s.ctMove q (some s.trg.seq[q].stage) 16 s.now
      if s.restingQ q then s.setSeq q (fun Q => { Q with st := .done })
      else (s.setSeq q (fun Q => { Q with st := .idle, arm := none, armLog := (s.now, s.launchCount q s.now, false) :: Q.armLog })).sqLeave q s.now)
  let s := forAll (List.finRange 8) s (fun g s => s.sgKill g)
  let s := forAll (List.finRange 256) s (fun e s => s.engHalt e)
  let s := forAll (List.finRange 16) s (fun u s => if s.fb (R.IU_CTL u) 0 then s.iuDisable u else s)
  let s := ({ s with phase := 15 }).scFault code
  let s := s.wrF R.PG_FAULT 15 0 code
  let s := forAll (List.finRange 4) s (fun p s => s.aerSet p 22)
  let s := if code = 0xF2 then s.goDark else s
  (s.faultNote code detail).pgEvent 6 0 [(2, code), (4, detail)]

/-! ## Throttling (R491 to R494) -/

/-- The floor in force of a class (R489). -/
def floorOf (s : State) (c : Nat) : Nat := min 1024 (s.f (R.PG_CLASS c) 10 0)

/-- The throttled classes (R488). -/
def throttled (c : Nat) : Bool := c != 0 && c != 11

/-- The allowed fraction of a class at x (R493). -/
def rateOf (s : State) (c x : Nat) : Nat :=
  let n := (65536 - x) * (1024 - s.floorOf c)
  s.floorOf c + n / 65536 + (if n % 65536 ≠ 0 ∧ Config.rateUp n then 1 else 0)

/-- The estimate of all classes (R491). -/
def drawNow (s : State) : Nat := s.f R.PG_DRAW 15 0

/-- The common fraction x comes into force, with its record (R493). Thermal throttling holds it at 1 (R499). -/
def setX (s : State) (x : Nat) : State :=
  let x := if s.pwr.thermal then 65536 else min 65536 x
  let s := forAll ((List.range 14).filter throttled) s (fun c s => s.wrF (R.PG_CLASS c) 26 16 (s.rateOf c x))
  let est := s.drawNow
  let rise := decide (0 < x) && (match s.pwr.zeroFrom with | some a => s.since a 2000000 | none => false)
  let s := if rise then s.pgEvent 0 0 [(2, est), (2, s.pwr.budget)] else s
  s.setPwr (fun w => { w with
    x := x,
    xFrom := if x = 0 then none else some (w.xFrom.getD s.tb.count),
    zeroFrom := if 0 < x then none else some (w.zeroFrom.getD s.tb.count) })

/-- The common fraction after an estimate (R493): above the budget it rises to `x`, the smallest that keeps the estimate within
the budget; below 99 % of the budget it falls to `x`, as far as the estimate allows; between them it stays. -/
def xNext (s : State) (est x : Nat) : Nat :=
  if s.pwr.budget < est then max s.pwr.x x else if 100 * est < 99 * s.pwr.budget then min s.pwr.x x else s.pwr.x

/-- The governor forms the estimate (R491): the class estimates, and the common fraction. OVER: it exceeds the budget with every
throttled class at its floor (R494). -/
def pgEstimate (s : State) (draws : List Nat) (x : Nat) : State :=
  let s := forAll (List.range 14) s (fun c s => s.wrF (R.PG_CLASS_DRAW c) 15 0 (draws.getD c 0))
  let est := draws.sum
  let s := s.wrF R.PG_DRAW 15 0 est
  let over_ := decide (s.pwr.budget < est ∧ s.pwr.x = 65536)
  let s := s.setX (s.xNext est x)
  if over_ && !s.pwr.over_ then
    ((s.setPwr (fun w => { w with over_ := true })).faultNote 0x72 0).pgEvent 5 0 [(2, est), (2, s.pwr.budget)]
  else s.setPwr (fun w => { w with over_ := over_ })

/-- A request for `n` tokens of class `c` (R492): granted in full, or at the rate that x then allows. -/
def tokenGrant (s : State) (c n x : Nat) : State :=
  if !throttled c || decide (s.drawNow + n ≤ s.pwr.budget) || decide (s.f (R.PG_CLASS_DRAW c) 15 0 + n ≤ s.f (R.PG_CLASS_DRAW c) 31 16)
  then s else s.setX (max s.pwr.x x)

/-- A write of PG_APPLY or the command's APPLY takes the staged budget (R490); `off` is the address of the record. -/
def pgApplies (s : State) (gen : Nat) : Bool :=
  let b := s.f R.PG_BUDGET 13 0
  gen == s.f R.PG_GEN 15 0 && decide (3000 ≤ b ∧ b ≤ 8500) && decide (s.f R.PG_DRAW 31 16 ≤ b)

def pgApply (s : State) (p : Fin 4) (off gen : Nat) : State :=
  if s.pgApplies gen then
    (s.setPwr (fun w => { w with budget := s.f R.PG_BUDGET 13 0 })).wr R.PG_GEN (word ((s.f R.PG_GEN 15 0 + 1) % 65536))
  else s.event p (R.PG_EVT_CNT 3) 0xF4 3 0 none [(4, off), (2, gen)]

/-! ## VCORE (R495, R496) -/

/-- VMIN, VMAX and VSET as they are used, in mV. -/
def vMin (s : State) : Nat := min 880 (max 680 (s.f R.PG_VCTL 9 0))
def vMax (s : State) : Nat := max s.vMin (min 880 (max 680 (s.f R.PG_VCTL 19 10)))
def vSet (s : State) : Nat := min 880 (max 680 (s.f R.PG_VCTL 29 20)) / 10 * 10
def vNow (s : State) : Nat := s.f R.PG_VCORE 15 0

/-- The direction of the step that is due, in units of 10 mV; `work` says that some throttled class has had work waiting
for 100 µs. -/
def vDir (s : State) (work : Bool) : Int :=
  let v := s.vNow
  let to_ (t : Nat) : Int := if t + 10 ≤ v then -1 else if v + 10 ≤ t then 1 else 0
  if s.pwr.thermal then to_ s.vMin
  else if s.fb R.PG_VCTL 31 then to_ s.vSet
  else if (match s.pwr.xFrom with | some a => s.since a 200000 | none => false) && decide (s.vMin + 10 ≤ v) then -1
  else if s.pwr.x == 0 && decide (100 * s.drawNow ≤ 95 * s.pwr.budget) && work && decide (v + 10 ≤ s.vMax) then 1
  else 0

/-- A run of steps in one direction ends when no further step that way is due: PG_VCORE. -/
def vRunEnd (s : State) (d : Int) : State :=
  if s.pwr.run ≠ 0 ∧ s.pwr.run ≠ d then (s.setPwr (fun w => { w with run := 0 })).pgEvent 1 0 [(2, s.vNow)] else s

/-- The regulator stays silent (R496): PG_PMB_FAIL with the PMBus command. -/
def pmbLost (s : State) (cmd : Nat) : State :=
  let s := if s.pwr.pmbFail then s else s.faultNote 0x70 0
  (s.setPwr (fun w => { w with pmbFail := true })).pgEvent 4 0 [(1, cmd)]

/-- One step of VCORE through PMBus, if one is due; `ack` says whether the regulator acknowledged, `meas` what READ_VOUT
gives afterwards. -/
def vStep (s : State) (work ack : Bool) (meas : Nat) : State :=
  if s.pwr.pmbFail then s
  else
    let d := s.vDir work
    let s := s.vRunEnd d
    if d = 0 then s
    else if !ack then s.pmbLost 0x21
    else
      let s := s.wrF R.PG_VCORE 15 0 ((s.vNow : Int) + 10 * d).toNat
      let s := s.wrF R.PG_VCORE 31 16 meas
      let s := s.setPwr (fun w => { w with run := d })
      s.vRunEnd (s.vDir work)

/-! ## Sensors (R34, R485, R499) -/

/-- The last reading of a sensor. -/
def tempNow (s : State) (i : Nat) : Int := s.fs (R.PG_TEMP i) 15 0

/-- A reading outside −40 to 125 °C. -/
def tempWild (x : Int) : Bool := decide (2000 < x ∨ x < -640)

/-- Store one reading. -/
def tempTake (s : State) (i : Nat) (x : Int) : State :=
  let s := if s.fs (R.PG_TEMP i) 31 16 < x then s.wrF (R.PG_TEMP i) 31 16 ((BitVec.ofInt 16 x).toNat) else s
  s.wrF (R.PG_TEMP i) 15 0 ((BitVec.ofInt 16 x).toNat)

/-- Thermal throttling starts at the first sensor that reads 105 °C or more. -/
def thermalStart (s : State) : State :=
  if s.pwr.thermal then s
  else match (List.range 8).find? (fun i => decide (1680 ≤ s.tempNow i)) with
    | some i =>
      let s := (s.setPwr (fun w => { w with thermal := true, thS := i, coolFrom := none })).faultNote 0x71 i
      (s.setX 65536).pgEvent 2 i [(2, (BitVec.ofInt 16 (s.tempNow i)).toNat), (1, 1)]
    | none => s

/-- The sensors are sampled: temperatures in 1/16 °C. -/
def sensorSample (s : State) (temps : List Int) : State :=
  let was := (List.range 8).any (fun i => tempWild (s.tempNow i))
  let s := forAll (List.range 8) s (fun i s => s.tempTake i (temps.getD i 0))
  let s := forAll (List.finRange 16) s (fun g s =>
    (s.wrF (R.TDC_CAL_TEMP g) 31 16 (s.f (R.PG_TEMP (g.val / 2)) 15 0)).calDueUpdate g)
  let s := s.thermalStart
  let cool := (List.range 8).all (fun i => decide (s.tempNow i ≤ 1648))
  let s := s.setPwr (fun w => { w with coolFrom := if cool then some (w.coolFrom.getD s.tb.count) else none })
  let hot := (List.range 8).filter (fun i => decide (1840 ≤ s.tempNow i))
  let dead := hot.any (fun i => s.pwr.hot.contains i)
  let s := s.setPwr (fun w => { w with hot := hot })
  let s := if !was && (List.range 8).any (fun i => tempWild (s.tempNow i)) then s.tamper 3 else s
  if dead then s.fatal 0xF2 0 else s

/-- Thermal throttling ends once every sensor has read 103 °C or less for 1 ms. -/
def thermalEnd (s : State) : State :=
  if s.pwr.thermal && (match s.pwr.coolFrom with | some a => s.since a 2000000 | none => false) then
    let i := s.pwr.thS
    (s.setPwr (fun w => { w with thermal := false })).pgEvent 2 i [(2, (BitVec.ofInt 16 (s.tempNow i)).toNat), (1, 0)]
  else s

/-! ## Monitors (R507) -/

/-- The present value of a level monitor. `occ` is the time the engine did not wait, in 1/1,024 of SAMPLE. -/
def monLevel (s : State) (m : Fin 32) (occ : Nat) : Option Int :=
  let src := s.f (monReg (R.MON_SRC 0 0) m) 13 0
  let sub := s.f (monCtl m) 18 16
  match s.f (monCtl m) 4 1 with
  | 3 => some (s.ch[Fin.ofNat 128 src].stg.length : Nat)
  | 4 =>
    let g : Fin 8 := Fin.ofNat 8 src
    some ((if sub = 1 then s.strUsed g else s.fifoLevel g) / 64 : Nat)
  | 5 => some (occ : Nat)
  | 6 => some (s.tempNow (src % 8))
  | 7 => some (s.vNow : Nat)
  | 8 => some (if src = 15 then s.drawNow else s.f (R.PG_CLASS_DRAW (src % 14)) 15 0 : Nat)
  | _ => none

/-- SAMPLE in TBCLK periods. -/
def monPeriod (s : State) (m : Fin 32) : Nat := 2000 * max 1 (s.f (monCtl m) 31 24)

/-- A level monitor takes a sample when its period has gone by. -/
def monSample (s : State) (m : Fin 32) (occ : Nat) : State :=
  if s.monEn m && s.since s.mon[m].lastAt (s.monPeriod m) then
    match s.monLevel m occ with
    | some x => (s.setMon m (fun M => { M with lastAt := s.tb.count })).monValue m s.now x
    | none => s
  else s

end State

/-! ## Steps -/

/-- SENSOR_SAMPLE: every 100 µs the die sensors are sampled (R34, R485, R499). -/
def execSensorSample (temps : List Int) (s : State) : Host.Outcome State Fault Refusal := .next (s.sensorSample temps)

/-- THERMAL_END: thermal throttling ends (R499). -/
def execThermalEnd (s : State) : Host.Outcome State Fault Refusal := .next s.thermalEnd

/-- PG_ESTIMATE: every 250 ns the governor forms the estimate and adjusts throttling (R491, R493, R494). -/
def execPgEstimate (draws : List Nat) (x : Fin 65537) (s : State) : Host.Outcome State Fault Refusal :=
  .next (if s.phase = 15 then s else s.pgEstimate draws x)

/-- PG_CALIBRATE: every 1 ms the coefficients are corrected from READ_VOUT and READ_IOUT (R491, R496). The coefficients stand
behind the class estimates that PG_ESTIMATE brings; READ_IOUT shows nowhere else. -/
def execPgCalibrate (ack : Bool) (vout _iout : Fin 65536) (s : State) : Host.Outcome State Fault Refusal :=
  .next (if s.pwr.pmbFail then s
    else if ack then s.wrF R.PG_VCORE 31 16 vout
    else s.pmbLost 0x8B)

/-- TOKEN_GRANT: a token request is granted in full or at the allowed rate (R492, R493). -/
def execTokenGrant (c : Fin 14) (n : Nat) (x : Fin 65537) (s : State) : Host.Outcome State Fault Refusal :=
  .next (if s.phase = 15 then s else s.tokenGrant c n x)

/-- VCORE_STEP: VCORE moves one 10 mV step through PMBus (R495, R496). -/
def execVcoreStep (work ack : Bool) (meas : Fin 65536) (s : State) : Host.Outcome State Fault Refusal :=
  .next (if s.phase = 15 then s else s.vStep work ack meas)

/-- PMB_RETRY: every 100 ms the governor retries a silent regulator (R496). -/
def execPmbRetry (ok : Bool) (s : State) : Host.Outcome State Fault Refusal :=
  .next (if !s.pwr.pmbFail then s
    else if ok then s.setPwr (fun w => { w with pmbFail := false })
    else s.pmbLost 0x21)

/-- MON_SAMPLE: a level monitor takes a value (R507, R508). -/
def execMonSample (m : Fin 32) (occ : Fin 1025) (s : State) : Host.Outcome State Fault Refusal := .next (s.monSample m occ)

/-- MON_SNAPSHOT_DONE: a monitor snapshot completes and the frozen bank is replaced (R509). -/
def execMonSnapshotDone (m : Fin 32) (s : State) : Host.Outcome State Fault Refusal := .next (s.monSnapDone m)

end Sys2Proof.Machine
end

