-- ==== Sys2Proof/Machine/Ports.lean ====
section
/-! DEFINITION. What happens at a host port: link, fence and release, acknowledgements, Bus Master Enable, D3hot, MSI-X masks,
and reads of host memory (R391, R399 to R413). -/

namespace Sys2Proof.Machine

open Bits

namespace State

/-- Event `k` of a port, in its partition (R428). -/
def hpEvent (s : State) (p : Fin 4) (k : Nat) (items : List (Nat × Nat)) : State :=
  s.event p (R.HP_EVT_CNT p k) 0x01 k p none items

/-- The generators of a partition. -/
def sgsOf (s : State) (p : Fin 4) : List (Fin 8) := (List.finRange 8).filter (fun g => s.sgPart g == p)

/-- The rings of a partition. -/
def ringsOf (s : State) (p : Fin 4) : List Nat := s.rings.filter (fun q => s.ringOn p q)

/-! ## Levels (R399, R400) -/

/-- A host stream asks for chunks with INTA (R399). -/
def streamsWait (s : State) (p : Fin 4) : Bool :=
  (s.sgsOf p).any (fun g => s.strOn g && s.fb (R.SG_STR_CTL g) 21 &&
    decide (max (s.f (R.SG_STR_CTL g) 15 0) 1 + (s.strTail g - s.strHead g).toNat ≤ s.strRing g))

/-- The level of INTA (R399). -/
def intx (s : State) (p : Fin 4) : Bool :=
  s.present p && !s.port[p].perst && !s.msixEn p && !s.intDis p && !s.port[p].d3 && (s.ringsWait p || s.streamsWait p)

/-- A command of opcode `op` is executing in some ring of the partition. -/
def runsCmd (s : State) (p : Fin 4) (op : Nat) : Bool :=
  (s.ringsOf p).any (fun q => s.cmdRuns q op)

/-- The partition is active for latency tolerance (R400). -/
def ltrActive (s : State) (p : Fin 4) : Bool :=
  !(s.ringsOf p).isEmpty || (s.sgsOf p).any (fun g => s.strOn g) || s.runsCmd p 0x0D

/-- The latency tolerance reported, in µs: none while the mechanism is off (R400). -/
def ltr (s : State) (p : Fin 4) : Option Nat :=
  if bit (s.cfgW p 0x98) 10 then some (if s.ltrActive p then s.f (R.HP_LTR p) 15 0 else s.f (R.HP_LTR p) 31 16) else none

/-! ## Link and fence (R391, R411 to R413) -/

/-- The link comes up (R391). -/
def linkUp (s : State) (p : Fin 4) (speed width : Nat) : State :=
  if s.present p && !s.port[p].perst && !s.port[p].link then
    (s.setPort p (fun P => { P with link := true, speed := speed, width := width })).hpEvent p 2 [(1, speed), (1, width)]
  else s

/-- The reads outstanding are freed and count as not issued (R408, R411). -/
def freeTags (s : State) (p : Fin 4) : State :=
  s.setPort p (fun P => { P with wants := P.tags.map (·.read) ++ P.wants, tags := [], grace := none })

/-- A device-to-host ring returns its TAIL to the last value covered by acknowledged writes, and what it had sent beyond is
kept to be sent again (R412). -/
def ringBack (s : State) (p : Fin 4) (q : Nat) : State :=
  let G := s.ringSt q
  let s := s.setRing q (fun G => { G with modN := 0, modAt := none })
  match s.qType q with
  | 5 =>
    let s := s.wr (qd q 2) G.ackT
    forAll (s.obsQueues.filter (fun o => s.fb (qd o 0) 12 && s.f (qd o 0) 29 16 == q && s.qPart o == p)) s (fun o s =>
      (s.setQ o (fun Q => { Q with msgs := Q.msgs.map (fun m => { m with sent := false }) })).wr (qd o 1)
        (s.rd (qd o 1) - word (slotsOf ((s.qSt o).msgs.filter (fun m => m.sent)))))
  | 4 => (s.wr (qd q 2) G.ackT).setEvt p (fun e => { e with sent := 0 })
  | 3 => (s.wr (qd q 2) G.ackT).setRing q (fun G => { G with cpl := G.cpl.map (fun e => (e.1, false)) })
  | _ => s

/-- A host stream's HEAD returns to its last acknowledged shadow; the chunks from there on are read again (R412, R413). -/
def streamBack (s : State) (g : Fin 8) : State :=
  if s.strOn g then
    let n := (s.strHead g - s.sg[g].str.ackHead).toNat
    (s.wr (R.SG_STR_HEAD g) s.sg[g].str.ackHead).setSg g (fun G => { G with str := { G.str with
      again := G.str.again + n, parts := [],
      asked := if G.str.err then G.str.asked else G.str.ackHead.toNat } })
  else s

/-- READOUT commands whose writes a fence drops complete with FAULT and the bytes written (R425). -/
def readoutLost (s : State) (p : Fin 4) (lost : List Tx) : State :=
  forAll (s.ringsOf p) s (fun q s =>
    let left := ((lost.filter (fun t => t.kind == .readout q)).map (fun t => t.bytes.length)).sum
    match s.cmdHead q with
    | some d =>
      if (s.ringSt q).busy && leAt d 0 1 == 0x0D && decide (0 < left) then s.cmdDone q 8 (stamp ((s.ringSt q).got - left)) else s
    | none => s)

/-- Hot Reset (cause 0) or a link-down (cause 1) fences the port (R411). A Hot Reset by itself leaves the link as it is (log
entry 116). -/
def fence (s : State) (p : Fin 4) (cause : Nat) : State :=
  if s.present p && !s.port[p].perst && s.port[p].link then
    let lost := s.port[p].tx
    let wasOn := s.ringsOf p
    let s := s.readoutLost p lost
    let s := match s.sc.load with
      | some l => if l.src == LoadSrc.host && s.issuer l == p && l.image.isNone then s.loadFail 8 2 else s
      | none => s
    let s := s.freeTags p
    let s := s.setPort p (fun P => { P with
      link := cause = 0, speed := if cause = 0 then P.speed else 0, width := if cause = 0 then P.width else 0, cfg := [], msix := [], pba := [], d3 := false, tx := [], fenced := true,
      wants := P.wants.filter (fun w => match w.want with | .chunk _ _ => false | _ => true) })
    let s := s.bump (R.HP_FDROP_CNT p) lost.length
    let s := forAll wasOn s (fun q s => s.ringBack p q)
    let s := forAll (s.sgsOf p) s (fun g s => s.streamBack g)
    s.hpEvent p 0 [(1, cause)]
  else s

/-- The slots that a ring holds back (R413). -/
def heldSlots (s : State) (p : Fin 4) (q : Nat) : Nat :=
  match s.qType q with
  | 5 => (s.obsQueues.filter (fun o => s.fb (qd o 0) 12 && s.f (qd o 0) 29 16 == q && s.qPart o == p)).foldl
      (fun n o => n + slotsOf ((s.qSt o).msgs.filter (fun m => !m.sent))) 0
  | 4 => if s.evtRing p = some q then ((s.evt[p].recs.drop s.evt[p].sent).map evUnits).sum else 0
  | 3 => ((s.ringSt q).cpl.filter (fun e => !e.2)).length
  | _ => 0

/-- Issue what waits: shadows of CMD rings, reads, stream reads, descriptor fetches and pending MSI-X messages (R398, R408, R413). -/
def resume (s : State) (p : Fin 4) : State :=
  let s := (s.pump p 1024).unmask p
  let s := forAll (s.sgsOf p) s (fun g s => s.strPump g 64)
  forAll ((s.ringsOf p).filter (fun q => s.qType q == 2)) s (fun q s => (s.cmdShadow q).cmdFetch q 64)

/-- A write of RELEASE = 1 to HP_FENCE (R413). -/
def fenceRelease (s : State) (c : Part) (p : Fin 4) : State :=
  if s.port[p].fenced && s.port[p].link && s.bme p then
    let rs := s.ringsOf p
    let held := (rs.map (fun q => s.heldSlots p q)).sum
    let s := (s.setPort p (fun P => { P with fenced := false })).hpEvent p 1 [(4, held)]
    let s := forAll rs s (fun q s =>
      if s.qType q = 2 then (s.writeShadow p q []).setRing q (fun G => { G with shown := s.ringHead q }) else (s.ringPut q (s.heldSlots p q)).2)
    let s := forAll rs s (fun q s => if s.ringInt q && s.ringHead q != s.ringTail q then s.raiseVec p (s.ringVec q) else s)
    s.resume p
  else s.ignored c

/-- The link partner acknowledges the oldest write (R412). -/
def ackWrite (s : State) (p : Fin 4) : State :=
  match s.port[p].tx with
  | [] => s
  | t :: r =>
    if s.port[p].link then
      let s := s.setPort p (fun P => { P with tx := r })
      match t.kind with
      | .shadow q life x src => s.ackShadow p q life x src
      | .stream g life h =>
        let g : Fin 8 := Fin.ofNat 8 g
        if s.sg[g].str.life = life then s.setSg g (fun G => { G with str := { G.str with ackHead := h } }) else s
      | _ => s
    else s

/-! ## Bus Master Enable and D3hot (R401, R406 to R408) -/

/-- The grace period begins when reads are outstanding. -/
def graceBegin (s : State) (p : Fin 4) : State :=
  s.setPort p (fun P => { P with grace := if P.tags.isEmpty then none else some s.tb.count })

/-- Bus Master Enable has been cleared (R406). -/
def bmeOff (s : State) (p : Fin 4) : State :=
  (s.graceBegin p).hpEvent p 5 [(2, s.port[p].tags.length)]

/-- Ten milliseconds after the clear, the tags still outstanding are freed (R408). -/
def graceEnd (s : State) (p : Fin 4) : State :=
  match s.port[p].grace with
  | some a => if s.since a 20000000 then s.freeTags p else s
  | none => s

/-- The port issues requests again: a grace period still under way is over, and its reads' timeouts start afresh. -/
def issueAgain (s : State) (p : Fin 4) : State :=
  let s := match s.port[p].grace with
    | some _ => s.setPort p (fun P => { P with grace := none, tags := P.tags.map (fun (t : Tag) => { t with at_ := s.tb.count }) })
    | none => s
  s.resume p

/-- The power state is written: D3hot when `d3` (R401). -/
def setD3 (s : State) (p : Fin 4) (d3 : Bool) : State :=
  if s.port[p].d3 = d3 then s
  else if d3 then (s.setPort p (fun P => { P with d3 := true })).graceBegin p
  else (s.setPort p (fun P => { P with d3 := false })).issueAgain p

/-- Bus Master Enable takes a value. -/
def setBme (s : State) (p : Fin 4) (on : Bool) : State :=
  let w := s.cfgW p 0x04
  if s.bme p = on then s
  else
    let w' := if on then w ||| 4#32 else w &&& ~~~(4#32)
    let s := s.setPort p (fun P => { P with cfg := Tab.set cfgReset P.cfg 0x04 w' })
    if on then s.issueAgain p else s.bmeOff p

/-! ## Reads of host memory (R403 to R407) -/

/-- Whether the consumer of a read still wants it (R407). -/
def wanted (s : State) (p : Fin 4) (r : Read) : Bool :=
  match r.want with
  | .cmd q _ => s.ringOn p q && (s.ringSt q).life == r.life
  | .chunk g _ => s.strOn (Fin.ofNat 8 g) && s.sg[Fin.ofNat 8 g].str.life == r.life
  | .load => match s.sc.load with | some l => l.life == r.life | none => false
  | .value q => s.cmdRuns q 0x0C && (s.ringSt q).asks == r.life

/-- Descriptors that came early follow, in order. -/
def cmdEarly (s : State) (q : Nat) : Nat → State
  | 0 => s
  | n + 1 =>
    let i := (s.ringHead q).toNat
    match (s.ringSt q).early.find? (fun e => e.1 == i) with
    | some e => cmdEarly ((s.setRing q (fun G => { G with early := G.early.filter (fun e => e.1 != i) })).cmdFetched q e.2) q n
    | none => s

/-- All data of a read has come: it goes to its consumer. -/
def readDone (s : State) (p : Fin 4) (r : Read) (bs : List Byte) : State :=
  if !s.wanted p r then s
  else match r.want with
    | .cmd q i =>
      (s.setRing q (fun G => { G with early := G.early ++ [(i.toNat, padTo 64 bs)] })).cmdEarly q 64
    | .chunk g i => s.chunkPart (Fin.ofNat 8 g) r.life i r.off bs
    | .load => s.setSc (fun c => { c with load := c.load.map (fun l => { l with parts := l.parts ++ [(r.off, bs)] }) })
    | .value q => s.setRing q (fun G => { G with value := G.value ++ [(r.off, bs)] })

/-- The code of a consumer in HP_CTO: its row in the table of R404. The value block of SHARED has no row there. -/
def wantCode (w : Want) : Nat :=
  match w with | .cmd _ _ => 0 | .chunk _ _ => 1 | .load => 2 | .value _ => Config.valueConsumer.toNat

/-- A re-issued read has timed out too (R404). -/
def readFails (s : State) (p : Fin 4) (t : Tag) : State :=
  let s := s.hpEvent p 3 [(2, t.tag), (8, t.read.addr), (1, wantCode t.read.want)]
  if !s.wanted p t.read then s
  else match t.read.want with
    | .cmd q i =>
      let s := (s.wrF (qd q 0) 3 3 0).setRing q (fun G => { G with st := .off, early := [] })
      s.hpEvent p 6 [(2, q), (4, i.toNat)]
    | .chunk g i => s.chunkFail (Fin.ofNat 8 g) t.read.life i
    | .load => s.loadFail 8 2
    | .value q => s.cmdDone q 8 0

/-- A read times out (R404): its tag is retired; it is issued once more, and then fails. -/
def readTimeout (s : State) (p : Fin 4) (t : Tag) : State :=
  let s := s.bump (R.HP_CTO_CNT p)
  let s := s.setPort p (fun P => { P with
    tags := P.tags.filter (fun x => x.tag != t.tag), retired := P.retired ++ [(t.tag, s.tb.count)] })
  if t.read.again then s.readFails p t
  else (s.setPort p (fun P => { P with wants := { t.read with again := true } :: P.wants })).pump p 1

/-- The completion timeout of a read has passed (R403); timeouts do not run in the grace period (R407). -/
def timeoutDue (s : State) (p : Fin 4) (n : Nat) : State :=
  match s.port[p].tags.find? (fun t => t.tag == n) with
  | some t =>
    if s.port[p].grace.isNone && s.since t.at_ (2000000 * s.cto p) then (s.aerSet p 14).readTimeout p t else s
  | none => s

/-- A completion arrives (R405, R407): data for an outstanding tag, or an Unexpected Completion. A poisoned one counts as a
timed-out read (R402). -/
def completion (s : State) (p : Fin 4) (n : Nat) (bs : List Byte) (poison : Bool) : State :=
  match s.port[p].tags.find? (fun t => t.tag == n) with
  | none => ((s.aerSet p 16).bump (R.HP_UC_CNT p)).hpEvent p 4 [(2, n)]
  | some t =>
    if poison then (s.aerSet p 12).readTimeout p t
    else
      let got := (t.got ++ bs).take t.read.len
      if got.length < t.read.len then
        s.setPort p (fun P => { P with tags := P.tags.map (fun x => if x.tag = n then { x with got := got } else x) })
      else
        let s := s.setPort p (fun P => { P with tags := P.tags.filter (fun x => x.tag != n) })
        (s.readDone p t.read got).pump p 1

/-- A retired tag returns to the free tags 2 × CTO after its timeout (R405). -/
def tagBack (s : State) (p : Fin 4) (n : Nat) : State :=
  match s.port[p].retired.find? (fun e => e.1 == n) with
  | some e =>
    if s.since e.2 (4000000 * s.cto p) then
      (s.setPort p (fun P => { P with retired := P.retired.filter (fun e => e.1 != n) })).pump p 1
    else s
  | none => s

end State

/-! ## Steps -/

/-- HP_LINK_UP: a port's link comes up at a speed and width of HP_STATUS (R391). -/
def execHpLinkUp (p : Fin 4) (speed width : Fin 6) (s : State) : Host.Outcome State Fault Refusal := .next (s.linkUp p speed width)

/-- HOT_RESET: an in-band Hot Reset fences the port (R411). -/
def execHotReset (p : Fin 4) (s : State) : Host.Outcome State Fault Refusal := .next (s.fence p 0)

/-- LINK_DOWN: a link-down not caused by PERST# fences the port (R411). -/
def execLinkDown (p : Fin 4) (s : State) : Host.Outcome State Fault Refusal := .next (s.fence p 1)

/-- WRITE_ACKNOWLEDGED: the link partner acknowledges a write TLP (R412). -/
def execWriteAcknowledged (p : Fin 4) (s : State) : Host.Outcome State Fault Refusal := .next (s.ackWrite p)

/-- BME_CLEAR: the host clears Bus Master Enable (R406). -/
def execBmeClear (p : Fin 4) (s : State) : Host.Outcome State Fault Refusal := .next (s.setBme p false)

/-- BME_GRACE_END: 10 ms after the clear, outstanding tags are freed (R408). -/
def execBmeGraceEnd (p : Fin 4) (s : State) : Host.Outcome State Fault Refusal := .next (s.graceEnd p)

/-- BME_SET: Bus Master Enable is set and freed reads are issued again (R408). -/
def execBmeSet (p : Fin 4) (s : State) : Host.Outcome State Fault Refusal := .next (s.setBme p true)

/-- D3HOT_ENTRY: the port enters D3hot (R401). -/
def execD3hotEntry (p : Fin 4) (s : State) : Host.Outcome State Fault Refusal := .next (s.setD3 p true)

/-- D0_RETURN: the port returns to D0 (R401). -/
def execD0Return (p : Fin 4) (s : State) : Host.Outcome State Fault Refusal := .next (s.setD3 p false)

/-- MSIX_UNMASK: a mask clears and pending messages are sent (R398). -/
def execMsixUnmask (p : Fin 4) (s : State) : Host.Outcome State Fault Refusal := .next (s.unmask p)

/-- COMPLETION_TIMEOUT: a host-memory read times out (R403, R404). -/
def execCompletionTimeout (p : Fin 4) (tag : Fin 512) (s : State) : Host.Outcome State Fault Refusal := .next (s.timeoutDue p tag)

/-- TAG_RETIREMENT_END: a retired read tag returns to the pool (R405). -/
def execTagRetirementEnd (p : Fin 4) (tag : Fin 512) (s : State) : Host.Outcome State Fault Refusal := .next (s.tagBack p tag)

end Sys2Proof.Machine
end

