-- ==== Sys2Proof/Machine/Cfgi.lean ====
section
/-! DEFINITION. The configuration integrity checker (R447 to R453): covered words, block and partition CRCs, the tracked
reference, commits, passes and QUIESCE. -/

namespace Sys2Proof

/-- The offsets of the elements of an array of registers. -/
def RegTable.offsets : List (Nat × Nat) → List Nat
  | [] => [0]
  | (st, n) :: r => (List.range n).flatMap (fun i => (RegTable.offsets r).map (fun o => i * st + o))

/-- The mask of the covered bits of a register (R447): RW, EG and W1 fields, but for data ports and the two address
registers of data ports. -/
def RegRow.covered (r : RegRow) : Word :=
  if r.base = R.SG_LS_ADDR 0 ∨ r.base = R.ME_SPA 0 0 then 0#32
  else r.fields.foldl (fun w f =>
    match f.acc, f.rst with
    | _, .dash => w
    | .RW, _ | .EG, _ | .W1, _ => w ||| Bits.mask f.hi f.lo
    | _, _ => w) 0#32

/-- The blocks of R454 in the order of the map, CFGI left out (R448). -/
def RegTable.blocks : List (List RegRow) :=
  [rowsGLB, rowsHP, rowsTB, rowsCH ++ rowsGRP ++ rowsCAP ++ rowsIU, rowsTDC, rowsTRG, rowsME, rowsQM, rowsSG, rowsSB, rowsDC,
    rowsPG, rowsMON, rowsSC]

namespace Machine

open Bits

namespace State

/-- Change one partition's checker. -/
def setCfgi (s : State) (p : Fin 4) (h : CfgiSt → CfgiSt) : State := { s with cfgi := s.cfgi.set p (h s.cfgi[p]) }

/-- The covered words of a partition in one block, as (address, mask), in ascending address order. -/
def coveredIn (s : State) (p : Fin 4) (rows : List RegRow) : List (Nat × Word) :=
  let all := rows.flatMap (fun r =>
    if r.covered = 0#32 ∧ r.descWord.isNone then []
    else (RegTable.offsets r.dims).filterMap (fun o =>
      match r.indexAt (r.base + o) with
      | some ix => if s.partOf r.own (r.unit ix) = p then some (r.base + o, (s.rowNow r ix).covered) else none
      | none => none))
  all.foldr (insertBy (fun a b => decide (a.1 ≤ b.1))) []

/-- The bytes a pass reads of some covered words: `fix` is what each word is XORed with first. -/
def wordStream (s : State) (fix : List (Nat × Word)) (ws : List (Nat × Word)) : List Byte :=
  ws.flatMap (fun e => wordBytes ((s.rd e.1 ^^^ Tab.get (fun _ => 0#32) fix e.1) &&& e.2))

/-- The CRC of a partition (R448), with the words XORed with `fix`. -/
def partCrc (s : State) (p : Fin 4) (fix : List (Nat × Word)) : Word :=
  crc32c (RegTable.blocks.flatMap (fun rows => s.wordStream fix (s.coveredIn p rows)))

/-- The tracked reference (R450), zero until the first commit. -/
def tracked (s : State) (p : Fin 4) : Word :=
  if s.cfgi[p].known then s.partCrc p s.cfgi[p].damage ^^^ s.cfgi[p].shift else 0#32

/-- The blocks whose CRC differs from its tracked block reference (R448, R452). -/
def badBlocks (s : State) (p : Fin 4) : Nat :=
  (((List.range 14).zip RegTable.blocks).filter (fun e =>
    let ws := s.coveredIn p e.2
    crc32c (s.wordStream [] ws) != crc32c (s.wordStream s.cfgi[p].damage ws))).foldl (fun n e => n + 2 ^ e.1) 0

/-- Event `k` of the checker (R453). -/
def cfgiEvent (s : State) (p : Fin 4) (k : Nat) (items : List (Nat × Nat)) : State :=
  s.event p (R.CFGI_EVT_CNT p k) 0x02 k p none items

/-- Return a partition to UNCOMMITTED (R453). -/
def uncommit (s : State) (p : Fin 4) : State :=
  s.setCfgi p (fun C => { C with st := 0, mismatch := false, blk := 0 })

/-- A particle strike changes bits of a covered word; strikes elsewhere are not the checker's. -/
def strike (s : State) (p : Fin 4) (a : Nat) (x : Word) : State :=
  match RegTable.find a with
  | some (r, ix) =>
    if s.partOf r.own (r.unit ix) = p then
      let x := x &&& (s.rowNow r ix).covered
      let s := s.wr a (s.rd a ^^^ x)
      s.setCfgi p (fun C => { C with damage := Tab.set (fun _ => 0#32) C.damage a (Tab.get (fun _ => 0#32) C.damage a ^^^ x) })
    else s
  | none => s

/-- The stop of R452 under QUIESCE. -/
def quiesce (s : State) (p : Fin 4) : State :=
  let s := forAll (List.finRange 16) s (fun g s =>
    if s.grpPart g = p then (match s.grp[g].st with | .held | .wait | .run => s.groupHalt g | _ => s) else s)
  let s := forAll (List.finRange 8) s (fun q s =>
    if s.pmap.seq[q] = p then (match s.trg.seq[q].st with | .idle | .done => s | _ => s.trgHalt q) else s)
  let s := forAll (s.sgsOf p) s (fun g s => match s.sg[g].st with | .wait | .run => s.sgHalt g | _ => s)
  forAll (List.finRange 256) s (fun e s => if s.pmap.me[e] = p then s.engHalt e else s)

/-- A pass differs from its reference (R452). -/
def mismatch (s : State) (p : Fin 4) (found ref : Word) (blk : Nat) : State :=
  let s := if s.cfgi[p].mismatch then s else s.faultNote 0x60 p
  let s := s.setCfgi p (fun C => { C with mismatch := true, blk := blk })
  let s := (s.bump (R.CFGI_MIS_CNT p)).cfgiEvent p 0 [(4, found.toNat), (4, ref.toNat), (2, blk)]
  if s.fb (R.CFGI_CTL p) 1 then s.quiesce p else s

/-- A pass over a partition completes (R449, R451, R452). -/
def cfgiPass (s : State) (p : Fin 4) : State :=
  if !s.fb (R.CFGI_CTL p) 0 then s
  else
    let found := s.partCrc p []
    let s := (s.bump (R.CFGI_PASS_CNT p)).wr (R.CFGI_LAST p) found
    let C := s.cfgi[p]
    match C.st with
    | 1 =>
      if !C.fresh then s.setCfgi p (fun C => { C with fresh := true })
      else
        let ref := s.tracked p
        let taken : CfgiSt := { C with st := 2, known := true, damage := [], shift := 0#32, blkKnown := true }
        if !C.value then (s.setCfgi p (fun _ => taken)).cfgiEvent p 1 [(4, found.toNat), (1, 0)]
        else if found = ref then (s.setCfgi p (fun _ => { taken with mismatch := false, blk := 0 })).cfgiEvent p 1 [(4, ref.toNat), (1, 1)]
        else ((s.setCfgi p (fun C => { C with st := 2 })).mismatch p found ref 0).cfgiEvent p 1 [(4, ref.toNat), (1, 1)]
    | 2 =>
      let ref := s.tracked p
      if found = ref then s.setCfgi p (fun C => { C with mismatch := false, blk := 0 })
      else s.mismatch p found ref (if C.blkKnown then s.badBlocks p else 0)
    | _ => s

/-- A write of CFGI_COMMIT (R451). -/
def cfgiCommit (s : State) (c : Part) (p : Fin 4) : State :=
  let cap := bit c.data 0
  let val := bit c.data 1
  if cap = val ∨ !s.fb (R.CFGI_CTL p) 0 then s.ignored c
  else if cap then s.setCfgi p (fun C => { C with st := 1, value := false, fresh := false })
  else
    let now := s.partCrc p s.cfgi[p].damage
    s.setCfgi p (fun C => { C with
      st := 1, value := true, fresh := false, known := true, shift := now ^^^ s.rd (R.CFGI_REF p) })

end State

/-! ## Steps -/

/-- CFGI_PASS: a pass over a partition completes (R449, R452), after the particle strikes that fell while it ran. -/
def execCfgiPass (p : Fin 4) (strikes : List (Nat × Word)) (s : State) : Host.Outcome State Fault Refusal :=
  .next ((forAll strikes s (fun e s => s.strike p e.1 e.2)).cfgiPass p)

end Machine
end Sys2Proof
end

