-- ==== Sys2Proof/Machine/Live.lean ====
section
/-! DEFINITION. What the live and computed fields of registers read (the LV fields of R6, and read-only fields that show state
kept outside the register file), and the outstanding faults of R505. -/

namespace Sys2Proof.Machine

open Bits

/-- An outstanding fault (R505). -/
structure FaultRec where
  code   : Nat
  block  : Nat
  index  : Nat
  detail : Nat
  stamp  : Stamp
  deriving DecidableEq, Repr

/-- A 32-bit word of some fields, given as (lowest bit, value). -/
def packW (l : List (Nat × Nat)) : Word := word (l.foldl (fun n e => n + e.2 * 2 ^ e.1) 0)

/-- The memory kind and the index of an array from its number; a staging buffer goes by its group. -/
def arrOf (n : Nat) : Nat × Nat :=
  if n < 32 then (0, n) else if n < 288 then (1, n - 32) else if n < 416 then (2, (n - 288) / 8) else if n < 424 then (3, n - 416)
  else if n < 440 then (4, n - 424) else if n < 448 then (5, n - 440) else if n < 576 then (6, n - 448) else if n < 592 then (7, n - 576)
  else (8, 0)

/-- The element of an array of `n` registers `st` bytes apart at an address. -/
def elemAt (base st n a : Nat) : Option Nat :=
  if base ≤ a ∧ a < base + st * n ∧ (a - base) % st = 0 then some ((a - base) / st) else none

namespace State

/-! ## Outstanding faults (R505) -/

/-- The record of a noted condition while it holds. -/
def faultHeld (s : State) (code i : Nat) (t : Stamp) : Option FaultRec :=
  let give (holds : Bool) (block index detail : Nat) : Option FaultRec :=
    if holds then some ⟨code, block, index, detail, t⟩ else none
  match code with
  | 0x10 => give ((List.range 8).any (fun j => !(s.ch[chOf (Fin.ofNat 16 i) j].badWords).isEmpty)) 0x10 i 0
  | 0x20 => give s.trg.ct[Fin.ofNat 32 i].fault 0x20 i 0
  | 0x21 => give s.iu[Fin.ofNat 16 i].fault 0x0B i 0
  | 0x30 => give (s.eng[Fin.ofNat 256 i].st == 5) 0x40 i (s.f (engReg R.ME_CAUSE (Fin.ofNat 256 i)) 3 0)
  | 0x40 => give (Tab.get (fun _ => ({} : ArrSt)) s.arr i).offline 0xE0 (arrOf i).2 (arrOf i).1
  | 0x41 => give s.sg[Fin.ofNat 8 i].str.err 0xC0 i s.sg[Fin.ofNat 8 i].str.asked
  | 0x50 => give s.dc[Fin.ofNat 16 i].fullFor 0xF0 i 0
  | 0x51 =>
    let d := s.dc[Fin.ofNat 16 i]
    give (d.r0.hot || d.r1.hot) 0xF0 i (if d.r0.hot then 0 else 1)
  | 0x60 => give s.cfgi[Fin.ofNat 4 i].mismatch 0x02 i s.cfgi[Fin.ofNat 4 i].blk
  | 0x70 => give s.pwr.pmbFail 0xF4 0 0
  | 0x71 => give s.pwr.thermal 0xF4 i (BitVec.ofInt 32 (s.tempNow i)).toNat
  | 0x72 => give s.pwr.over_ 0xF4 0 s.drawNow
  | 0xF0 | 0xF1 | 0xF2 | 0xF3 | 0xF4 => give (s.phase == 15) 0xF4 0 i
  | _ => none

/-- All outstanding faults, oldest first. -/
def outstanding (s : State) : List FaultRec := s.faults.filterMap (fun e => s.faultHeld e.1 e.2.1 e.2.2)

/-- A fault is a partition's own, or device-wide. -/
def faultFor (s : State) (p : Fin 4) (f : FaultRec) : Bool :=
  match f.code with
  | 0x10 => s.pmap.grp[Fin.ofNat 16 f.index] == p
  | 0x20 => s.pmap.ct[Fin.ofNat 32 f.index] == p
  | 0x21 => s.pmap.iu[Fin.ofNat 16 f.index] == p
  | 0x30 => s.pmap.me[Fin.ofNat 256 f.index] == p
  | 0x40 => s.arrPart f.detail f.index == p
  | 0x41 => s.pmap.sg[Fin.ofNat 8 f.index] == p
  | 0x60 => f.index == p.val
  | _ => true

/-! ## Codes of states -/

def grpCode (x : GrpState) : Nat := match x with | .idle => 0 | .held => 1 | .wait => 2 | .run => 3 | .drain => 4
def seqCode (x : SeqState) : Nat :=
  match x with | .idle => 0 | .armed => 1 | .holdoff => 2 | .run => 3 | .post => 4 | .done => 5
def sgCode (x : SgState) : Nat := match x with | .idle => 0 | .wait => 1 | .run => 2 | .bound => 3 | .cal => 4
def dcCode (x : DcState) : Nat :=
  match x with | .disabled => 0 | .training => 1 | .active => 2 | .selfRefresh => 3 | .retrain => 4 | .failed => 5

/-! ## Words by block -/

/-- GLB_STATUS for a master (R435, R455, R476). -/
def glbStatus (s : State) (m : Master) : Word :=
  let ready := (s.phase == 5 || s.phase == 12) && s.sc.loaded && !s.loading
  packW [(14, b2n (s.privileged m)), (12, (s.partM m).val), (4, s.phase), (2, b2n s.loading), (1, b2n (s.phase == 15)), (0, b2n ready)]

/-- HP_STATUS (R429). -/
def hpStatus (s : State) (p : Fin 4) : Word :=
  let P := s.port[p]
  packW [(26, s.sc.img[p]), (25, b2n P.attached), (24, b2n (s.intx p)), (23, b2n P.grace.isSome), (22, b2n P.d3),
    (21, b2n P.fenced), (20, b2n (s.bme p)), (19, b2n (s.mse p)), (18, b2n (s.msixEn p)), (17, b2n P.link),
    (16, b2n (s.present p)), (4, P.width), (0, P.speed)]

/-- TB_STATUS (R81). -/
def tbStatus (s : State) : Word :=
  let T := s.tb
  packW [(13, b2n T.ever), (12, b2n T.ramp.run), (11, b2n T.sgLock), (10, b2n T.dpll[3].lock), (9, b2n T.dpll[2].lock),
    (8, b2n T.dpll[1].lock), (7, b2n T.dpll[0].lock), (6, b2n T.relocking), (5, b2n T.coast), (4, b2n (T.lock && !T.coast)),
    (3, b2n T.refOk), (2, b2n T.vcoB), (0, T.freq)]

/-- CH_STATUS (R41). -/
def chStatus (s : State) (c : Fin 128) : Word :=
  packW [(2, b2n (s.fb (R.CH_CTL c) 0 && s.grp[grpOf c].st == .run)), (1, b2n s.ch[c].at_.isSome),
    (0, b2n (s.powered c && s.recvLevel c))]

/-- CH_GRP_STATUS (R114). -/
def grpStatus (s : State) (g : Fin 16) : Word :=
  let ovf := (s.dataBits g).foldl (fun n j =>
    n + 2 ^ j * b2n ((List.range 8).any (fun i => s.sigBit (chOf g i) == j && s.ch[chOf g i].ovf.isSome))) 0
  packW [(8, ovf), (7, b2n (s.portPanic g)), (0, grpCode s.grp[g].st)]

/-- CH_SEAL_STATUS (R187). -/
def sealStatus (s : State) : Word :=
  packW [(1, b2n ((List.finRange 16).any (fun g => s.grp[g].sealWait))), (0, b2n s.keyReady)]

/-- IU_STATUS (R213). -/
def iuStatus (s : State) (u : Fin 16) : Word :=
  let I := s.iu[u]
  packW [(16, I.starts.length), (3, b2n I.live.sat), (2, b2n I.fault), (1, b2n I.snap.isSome), (0, b2n (s.iuActive u))]

/-- TDC_STATUS (R42). -/
def tdcStatus (s : State) (g : Fin 16) : Word :=
  let G := s.grp[g]
  let bad := (List.range 8).any (fun j => !(s.ch[chOf g j].badWords).isEmpty)
  packW [(4, b2n (G.st == .held)), (3, b2n bad), (2, b2n G.calDue), (1, b2n (G.calValid && !bad)), (0, b2n (s.calBusy g))]

/-- TRG_SEQ_STATUS (R151). -/
def seqStatus (s : State) (q : Fin 8) : Word :=
  let Q := s.trg.seq[q]
  packW [(4, Q.stage), (3, b2n (s.sqAt q s.now)), (0, if Q.ended then 5 else seqCode Q.st)]

/-- The level at a TRIG_IO ball: the device's own level, with INV, where it drives the pin (R149), else the level sampled
there (R148). -/
def ioBall (s : State) (k : Fin 16) : Bool :=
  if s.pwr.dark || !s.ioIsOut k then s.trg.ball.getLsbD k else s.trg.out.getLsbD k != bit s.trg.route[k] 2

/-- TRG_IO_STATUS: the levels at the balls, before INV (R151). -/
def ioStatus (s : State) : Word := packW ((List.finRange 16).map (fun k => (k.val, b2n (s.ioBall k))))

/-- The present value of a counter (R125, R127). -/
def ctValue (s : State) (n : Fin 32) : Nat :=
  let C := s.trg.ct[n]
  match C.from_ with
  | some a =>
    if s.ctTime n && !C.full && !C.fault then
      let v := min (C.value + (diff a s.now + s.jumps a s.now).toNat) (2 ^ 48 - 1)
      if s.ctLimit n = 0 then v else min v (s.ctLimit n)
    else C.value
  | none => C.value

/-- TRG_CT_STATUS (R151). -/
def ctStatus (s : State) (n : Fin 32) : Word :=
  packW [(1, b2n s.trg.ct[n].fault), (0, b2n s.trg.ct[n].from_.isSome)]

/-- ME_X_STATUS (R253). -/
def xtStatus (s : State) (x : Fin 128) : Word :=
  let X := s.xt[x]
  let tracked := s.xtKind x == 2 || s.xtKind x == 3 || s.xtKind x == 6
  packW [(3, b2n (s.xtBindErr x)), (2, b2n (if tracked then X.locked else X.active)), (1, b2n X.frame), (0, b2n X.active)]

/-- The live bits of ME_STATUS (R230, R253). -/
def engBits (s : State) (e : Fin 256) : Word :=
  let E := s.eng[e]
  packW [(8, min 255 E.fifo.length), (4, b2n (E.st == 3)), (0, E.st)]

/-- SG_STATUS (R322). -/
def sgStatus (s : State) (g : Fin 8) : Word :=
  let G := s.sg[g]
  packW [(16, if G.st == .run then G.entry else 0), (7, b2n G.str.err), (6, b2n (s.jpend g)), (5, b2n (s.sgPanic g)),
    (4, b2n G.starve.isSome), (0, sgCode G.st)]

/-- SG_PLAY at present (R304). -/
def sgPlay (s : State) (g : Fin 8) : BitVec 64 :=
  match s.sg[g].st with
  | .run => stamp (s.playAt g s.now)
  | _ => s.rd64 (R.SG_PLAY_LO g) (R.SG_PLAY_HI g)

/-- SB_MAP's live bits (R324, R351). -/
def mapBits (s : State) (b : Nat) : Word :=
  let A := s.arrSt 0 b
  let mt := (List.finRange 4).any (fun p => s.mt[p].busy && s.mt[p].mem == 0 && s.mt[p].index == b)
  packW [(6, b2n A.offline), (5, b2n mt), (4, b2n A.dia)]

/-- SB_DIA_SP_STATE (R336): the bits a master may see. -/
def spState (s : State) (m : Master) (k : Nat) : Word :=
  packW ((List.range 32).map (fun j =>
    let e := 32 * k + j
    (j, b2n ((s.arrSt 1 e).dia && s.reaches m s.pmap.me[Fin.ofNat 256 e]))))

/-- An array is out of service (R351); of a group's staging buffers, one of them. -/
def arrOut (s : State) (mem i : Nat) : Bool :=
  (List.range (if mem = 2 then 8 else 1)).any (fun j => (s.arrSt mem i (262144 * j)).offline)

/-- SB_HEALTH (R351). -/
def health (s : State) : Word :=
  packW ((List.range 16).map (fun g => (g, b2n (s.arrOut 2 g))) ++
    (List.range 8).map (fun g => (16 + g, b2n (s.arrSt 3 g).offline)))

/-- DC_STATUS (R388). -/
def dcStatus (s : State) (c : Fin 16) : Word :=
  let D := s.dc[c]
  packW [(24, D.r1.debt), (16, D.r0.debt), (8, max D.r0.mult D.r1.mult), (5, b2n (s.panicWaits c).isSome),
    (4, b2n (D.r0.hold.isSome || D.r1.hold.isSome)), (3, b2n D.trained), (0, dcCode D.st)]

/-- PG_STATUS (R511). MOVING reads 0: a step of VCORE is one instant of the model. -/
def pgStatus (s : State) : Word :=
  packW [(5, b2n s.pwr.pmbFail), (4, b2n s.pwr.over_), (3, b2n s.pwr.thermal), (2, b2n (decide (0 < s.pwr.x)))]

/-- SC_LC (R482, R487). -/
def scLc (s : State) : Word :=
  packW [(25, b2n s.sc.tamperIn), (24, b2n s.sealKey.isSome), (20, s.sc.fuse.reprov), (16, s.sc.fuse.lc), (0, s.f R.SC_LC 15 0)]

/-- The word at a register as a master reads it, but for the HI halves that a read of LO latches and for data ports. -/
def liveWord (s : State) (m : Master) (a : Nat) : Word :=
  let w := s.rd a
  let pm := s.partM m
  let at1 (base st n : Nat) (f : Nat → Word) (rest : Unit → Word) : Word :=
    match elemAt base st n a with | some i => f i | none => rest ()
  if a < 0x10000 then (if a = R.GLB_STATUS then s.glbStatus m else w)
  else if a < 0x20000 then
    if a = R.HP_DIGEST_STATUS then packW [(16, s.port[pm].winSeq % 65536), (0, b2n s.port[pm].snapping)]
    else if a = R.HP_CFG then packW [(8, s.owner.val), (0, fld w 1 0)]
    else at1 (R.HP_STATUS 0) 0x40 4 (fun p => s.hpStatus (Fin.ofNat 4 p)) (fun _ =>
      at1 (R.HP_DIGEST_WIN 0) 4 1024 (fun i => if s.port[pm].snapping then 0#32 else Tab.get (fun _ => 0#32) s.port[pm].win i)
        (fun _ => w))
  else if a < 0x40000 then
    at1 (R.CFGI_STATUS 0) 0x40 4 (fun p =>
      let C := s.cfgi[Fin.ofNat 4 p]
      packW [(2, b2n C.mismatch), (0, C.st)]) (fun _ =>
    at1 (R.CFGI_BLK 0) 0x40 4 (fun p => word s.cfgi[Fin.ofNat 4 p].blk) (fun _ =>
    at1 (R.CFGI_TRACK 0) 0x40 4 (fun p => s.tracked (Fin.ofNat 4 p)) (fun _ => w)))
  else if a < 0x80000 then
    if a = R.TB_STATUS then s.tbStatus
    else if a = R.TB_COUNT_LO then lo32 s.now
    else if a = R.TB_COUNT_HI then hi32 s.now
    else if a = R.TB_RAMP_STATUS then packW [(8, s.tb.ramp.seg), (0, b2n s.tb.ramp.waitSync)]
    else w
  else if a < 0x100000 then
    if a = R.CH_SEAL_STATUS then s.sealStatus
    else if a = R.CH_SEAL_KEY_ID_LO then (match s.sealKey with | some g => lo32 (Config.keyId g) | none => 0#32)
    else if a = R.CH_SEAL_KEY_ID_HI then (match s.sealKey with | some g => hi32 (Config.keyId g) | none => 0#32)
    else at1 (R.CH_STATUS 0) 4 128 (fun c => s.chStatus (Fin.ofNat 128 c)) (fun _ =>
      at1 (R.CH_GRP_STATUS 0) 0x80 16 (fun g => s.grpStatus (Fin.ofNat 16 g)) (fun _ =>
      at1 (R.IU_STATUS 0) 0x80 16 (fun u => s.iuStatus (Fin.ofNat 16 u)) (fun _ => w)))
  else if a < 0x200000 then at1 (R.TDC_STATUS 0) 4 16 (fun g => s.tdcStatus (Fin.ofNat 16 g)) (fun _ => w)
  else if a < 0x400000 then
    if a = R.TRG_IO_STATUS then s.ioStatus
    else at1 (R.TRG_SEQ_STATUS 0) 0x80 8 (fun q => s.seqStatus (Fin.ofNat 8 q)) (fun _ =>
      at1 (R.TRG_CT_STATUS 0) 0x20 32 (fun n => s.ctStatus (Fin.ofNat 32 n)) (fun _ =>
      at1 (R.TRG_CT_VALUE_LO 0) 0x20 32 (fun n => lo32 (stamp (s.ctValue (Fin.ofNat 32 n)))) (fun _ =>
      at1 (R.TRG_CT_VALUE_HI 0) 0x20 32 (fun n => hi32 (stamp (s.ctValue (Fin.ofNat 32 n)))) (fun _ => w))))
  else if a < 0x800000 then
    at1 (R.ME_X_STATUS 0) 0x20 128 (fun x => s.xtStatus (Fin.ofNat 128 x)) (fun _ =>
      if R.ME_STATUS 0 0 ≤ a ∧ a < R.ME_STATUS 0 0 + 0x10000 ∧ (a - R.ME_STATUS 0 0) % 0x4000 < 0x1000
          ∧ (a - R.ME_STATUS 0 0) % 0x40 = 0 then
        let e := (a - R.ME_STATUS 0 0) / 0x4000 * 64 + (a - R.ME_STATUS 0 0) % 0x4000 / 0x40
        (w &&& 0x00FE0000#32) ||| s.engBits (Fin.ofNat 256 e)
      else w)
  else if a < 0xC00000 then
    if a < 0xA00000 then (if a % 32 = 0 then setFld w 7 6 (s.qState ((a - R.QM_DESC0 0 0) / 32)) else w)
    else at1 (R.QM_EVT_LEVEL 0) 4 4 (fun p => word (s.evtUsed (Fin.ofNat 4 p))) (fun _ => w)
  else if a < 0xE00000 then
    if a = R.SG_COMMON_STATUS then word (b2n s.grid.on)
    else at1 (R.SG_STATUS 0) 0x4000 8 (fun g => s.sgStatus (Fin.ofNat 8 g)) (fun _ =>
      at1 (R.SG_PLAY_LO 0) 0x4000 8 (fun g => lo32 (s.sgPlay (Fin.ofNat 8 g))) (fun _ =>
      at1 (R.SG_PLAY_HI 0) 0x4000 8 (fun g => hi32 (s.sgPlay (Fin.ofNat 8 g))) (fun _ =>
      at1 (R.SG_UNDER_CNT 0) 0x4000 8 (fun g =>
        let g := Fin.ofNat 8 g
        sat32 w (s.starvedTo g (s.idxCount s.now))) (fun _ => w))))
  else if a < 0x1000000 then
    if a = R.SB_HEALTH then s.health
    else if a = R.SB_COCOON_STATUS then
      packW [(8, fld w 9 8), (1, b2n s.cocoon.verifyFail), (0, b2n s.cocoon.wiping)]
    else if a = R.SB_REP_DATA then s.repData pm
    else at1 (R.SB_MAP 0) 4 32 (fun b => (w &&& 0xF#32) ||| s.mapBits b) (fun _ =>
      at1 (R.SB_DIA_SP_STATE 0) 4 8 (fun k => s.spState m k) (fun _ =>
      at1 (R.SB_MT_STATUS 0) 0x40 4 (fun p =>
        let M := s.mt[Fin.ofNat 4 p]
        if M.busy then packW [(31, 1), (16, fld w 24 16), (0, M.defers % 1024)] else w) (fun _ => w)))
  else if a < 0x1400000 then
    if a = R.DC_CAP_LO then lo32 (stamp s.dcCap)
    else if a = R.DC_CAP_HI then hi32 (stamp s.dcCap)
    else at1 (R.DC_STATUS 0) 0x4000 16 (fun c => s.dcStatus (Fin.ofNat 16 c)) (fun _ =>
      at1 (R.DC_TRN_STATUS 0) 0x4000 16 (fun c => setFld w 0 0 (b2n s.dc[Fin.ofNat 16 c].trn.isSome)) (fun _ =>
      at1 (R.DC_FILL_CTL 0) 8 4 (fun p => setFld w 27 27 (b2n s.fill[Fin.ofNat 4 p].busy)) (fun _ => w)))
  else if a < 0x1600000 then
    if a = R.PG_STATUS then s.pgStatus
    else if a = R.PG_FAULT then setFld w 31 16 (min 65535 s.outstanding.length)
    else w
  else if a < 0x1800000 then
    match RegTable.find a with
    | some (r, ix) =>
      if r.base = R.MON_STATUS 0 0 then
        let k : Fin 32 := Fin.ofNat 32 (r.flat ix)
        packW [(1, b2n s.mon[k].snap.isSome), (0, b2n (s.monEn k))]
      else w
    | none => w
  else if a = R.SC_LC then s.scLc
  else if a = R.SC_FW_VER_LO then lo32 (stamp s.sc.fwVer)
  else if a = R.SC_FW_VER_HI then hi32 (stamp s.sc.fwVer)
  else at1 (R.SC_MB_STATUS 0) 0x40 4 (fun p => setFld w 0 0 (b2n (s.sc.mail[Fin.ofNat 4 p]).isSome)) (fun _ => w)

end State
end Sys2Proof.Machine
end

