-- ==== Sys2Proof/Machine/Digest.lean ====
section
/-! DEFINITION. The partition digest (R426, R427). -/

namespace Sys2Proof.Machine

open Bits

namespace State

/-- Words of registers as bytes, as a master of partition `p` reads them. -/
def regBytes (s : State) (p : Fin 4) (l : List Nat) : List Byte := l.flatMap (fun a => wordBytes (s.liveWord (.hp p) a))

/-- The entry of a shared object: generation, owner, state and value (R427). -/
def sharedEntry (s : State) (p : Fin 4) (gen : Nat) (state : Nat) (value : List Byte) : List Byte :=
  leBytes 2 gen ++ leBytes 2 s.owner ++ s.regBytes p [state] ++ padTo 8 value

/-- The DIR fields of TRIG_IO 0 to 15. -/
def ioDirs (s : State) : Nat := (List.range 16).foldl (fun n k => n + s.f (R.TRG_IO_CTL k) 1 0 * 4 ^ k) 0

/-- The entries of the shared objects 0 to 6 (R414, R427). -/
def sharedEntries (s : State) (p : Fin 4) : List Byte :=
  s.sharedEntry p (s.f R.TB_PLL_GEN 15 0) R.TB_STATUS (s.regBytes p [R.TB_LAST_JUMP] ++ wordBytes (s.rd R.TB_REF_CTL))
    ++ s.sharedEntry p (s.f R.TB_SG_GEN 15 0) R.TB_STATUS (wordBytes (s.rd R.TB_SG_FCW) ++ wordBytes (s.rd R.TB_SG_CTL))
    ++ s.sharedEntry p (s.f R.TB_SG_GEN 15 0) R.TB_RAMP_STATUS (wordBytes (s.rd R.TB_RAMP_CTL))
    ++ s.sharedEntry p (s.f R.TB_SYNC_GEN 15 0) R.TB_STATUS (s.regBytes p [R.TB_SYNC_TS_LO, R.TB_SYNC_TS_HI])
    ++ s.sharedEntry p (s.f R.TRG_IO_GEN 15 0) R.TRG_IO_STATUS (leBytes 4 s.ioDirs)
    ++ s.sharedEntry p (s.f R.PG_GEN 15 0) R.PG_STATUS (leBytes 4 s.pwr.budget ++ leBytes 4 s.drawNow)
    ++ s.sharedEntry p (s.f R.SC_LC 15 0) R.SC_LC (wordBytes (s.rd R.SC_AUTH))
    ++ padTo 16 []

/-- An entry of a partition's own resource; those of others are zero. -/
def ownEntry (own : Bool) (n : Nat) (l : List Byte) : List Byte := if own then padTo n l else padTo n []

/-- Groups, sequencers, generators, interval units and engines (R427). -/
def resEntries (s : State) (p : Fin 4) : List Byte :=
  (List.finRange 16).flatMap (fun (g : Fin 16) => ownEntry (s.pmap.grp[g] == p) 32 (s.regBytes p
      [R.CH_GRP_STATUS g, R.CH_GRP_CTL g, R.CH_GRP_START_LO g, R.CH_GRP_START_HI g, R.CH_GRP_STOP_LO g, R.CH_GRP_STOP_HI g,
        R.CH_GRP_WPTR_LO g, R.CH_GRP_WPTR_HI g]))
    ++ (List.finRange 8).flatMap (fun (q : Fin 8) => ownEntry (s.pmap.seq[q] == p) 32 (s.regBytes p
      [R.TRG_SEQ_STATUS q, R.TRG_SEQ_TRIG_INFO q, R.TRG_SEQ_ARM_LO q, R.TRG_SEQ_ARM_HI q, R.TRG_SEQ_TRIG_LO q,
        R.TRG_SEQ_TRIG_HI q, R.TRG_SEQ_LATE_CNT q, R.TRG_SEQ_EXTRA_CNT q]))
    ++ (List.finRange 8).flatMap (fun (g : Fin 8) => ownEntry (s.pmap.sg[g] == p) 32 (s.regBytes p
      [R.SG_STATUS g, R.SG_LOOP g, R.SG_START_LO g, R.SG_START_HI g, R.SG_PLAY_LO g, R.SG_PLAY_HI g, R.SG_STR_HEAD g,
        R.SG_STR_TAIL g]))
    ++ (List.finRange 16).flatMap (fun (u : Fin 16) => ownEntry (s.pmap.iu[u] == p) 16 (s.regBytes p
      [R.IU_STATUS u, R.IU_CTL u, R.IU_SNAP_TS_LO u, R.IU_SNAP_TS_HI u]))
    ++ (List.range 128).map (fun i =>
      let st (e : Fin 256) : Nat := if s.pmap.me[e] = p then s.eng[e].st else 15
      BitVec.ofNat 8 (st (Fin.ofNat 256 (2 * i)) + 16 * st (Fin.ofNat 256 (2 * i + 1))))

/-- The queues of a partition of some types, in queue order. -/
def queuesOf (s : State) (p : Fin 4) (ty : Nat → Bool) : List Nat :=
  (List.range 16384).filter (fun q => ty (s.qType q) && s.qPart q == p)

/-- The entry of a CMD ring (R427). -/
def cmdEntry (s : State) (q : Nat) : List Byte :=
  leBytes 2 q ++ leBytes 2 (s.ringSt q).lastSeq ++ wordBytes (s.ringHead q) ++ wordBytes (s.ringTail q)
    ++ leBytes 2 (s.ringSt q).cache.length ++ leBytes 2 (1 + 2 * b2n (s.qState q == 1))

/-- The entry of another ring (R427). -/
def ringEntry (s : State) (q : Nat) : List Byte :=
  leBytes 2 q ++ leBytes 1 (s.qType q) ++ leBytes 1 (s.qState q) ++ wordBytes (s.ringHead q) ++ wordBytes (s.ringTail q)
    ++ leBytes 2 (s.ringVec q) ++ leBytes 2 (1 + 2 * b2n (s.ringInt q))

/-- The queue summary (R427). -/
def queueSummary (s : State) (p : Fin 4) : List Byte :=
  let obs := s.obsQueues.filter (fun q => s.qType q == 1 && s.qPart q == p)
  leBytes 4 (s.queuesOf p (fun t => decide (2 ≤ t ∧ t ≤ 5))).length
    ++ leBytes 4 (obs.filter (fun q => s.qState q == 1)).length
    ++ leBytes 4 (obs.filter (fun q => s.qState q == 2)).length
    ++ leBytes 4 ((obs.map (fun q => slotsOf (s.qSt q).msgs)).sum)
    ++ s.regBytes p [R.QM_EVT_LEVEL p, R.QM_EVTQ p, R.QM_LOSS_CNT p, R.QM_EVT_LOST_CNT p, R.QM_POOL p]

/-- Power and temperature (R427). -/
def powerEntry (s : State) : List Byte :=
  leBytes 4 s.pwr.budget ++ leBytes 4 s.drawNow ++ leBytes 2 s.vNow
    ++ leBytes 2 (b2n (decide (0 < s.pwr.x)) + 2 * b2n s.pwr.thermal)
    ++ (List.range 8).flatMap (fun i => leBytes 2 (s.f (R.PG_TEMP i) 15 0))

/-- The fault header and the faults listed (R427, R505). -/
def faultEntries (s : State) (p : Fin 4) : List Byte :=
  let all := s.outstanding.filter (fun f => s.faultFor p f)
  let l := all.take 66
  padTo 16 (leBytes 4 all.length ++ leBytes 4 l.length)
    ++ padTo (66 * 16) (l.flatMap (fun f =>
      leBytes 2 f.code ++ leBytes 1 f.block ++ leBytes 1 f.index ++ leBytes 4 f.detail ++ leBytes 8 f.stamp.toNat))

/-- The header's flags (R427). -/
def digestFlags (s : State) (p : Fin 4) : Nat :=
  let P := s.port[p]
  b2n P.attached + 2 * b2n P.fenced + 4 * b2n (p == s.owner) + 8 * b2n s.tb.coast + 16 * b2n P.grace.isSome + 32 * b2n P.d3
    + 64 * s.sc.img[p]

/-- The 4,096 bytes of a digest of a partition with DSEQ `n` at the present edge (R427). -/
def digest (s : State) (p : Fin 4) (n : Nat) : List Byte :=
  let P := s.port[p]
  let cmds := (s.queuesOf p (fun t => t == 2)).take 16
  let others := (s.queuesOf p (fun t => decide (3 ≤ t ∧ t ≤ 5))).take 64
  let head := leBytes 2 0x4447 ++ leBytes 1 1 ++ leBytes 1 p ++ leBytes 4 n ++ leBytes 8 s.now.toNat
    ++ leBytes 4 (s.digestFlags p) ++ leBytes 2 P.version ++ leBytes 2 s.sc.ifVer[p] ++ leBytes 8 s.sc.imgVer[p]
    ++ leBytes 8 P.driver.toNat ++ padTo 16 s.sc.fuse.device ++ leBytes 4 s.sc.fuse.lc
  let body := s.sharedEntries p ++ s.resEntries p ++ padTo 256 (cmds.flatMap s.cmdEntry) ++ padTo 1024 (others.flatMap s.ringEntry)
    ++ padTo 64 (s.queueSummary p) ++ padTo 64 s.powerEntry ++ s.faultEntries p ++ padTo 16 []
  head ++ wordBytes (crc32c (head ++ padTo 4 [] ++ body)) ++ body

/-- The next DSEQ of a partition (R426). -/
def nextDseq (s : State) (p : Fin 4) : State := s.setPort p (fun P => { P with dseq := (P.dseq + 1) % 4294967296 })

/-- A write of GO = 1 to HP_DIGEST_SNAP by a master of partition `p` (R426): ignored and logged during a load. -/
def digestSnap (s : State) (c : Part) (p : Fin 4) : State :=
  if s.sc.load.isSome then s.ignored c
  else
    let s := s.nextDseq p
    let bs := s.digest p s.port[p].dseq
    s.setPort p (fun P => { P with
      snapping := true, winSeq := P.dseq,
      win := ((List.range 1024).map (fun i => (i, word (leAt bs (4 * i) 4)))).filter (fun e => e.2 ≠ 0#32) })

end State
end Sys2Proof.Machine
end

