-- ==== Sys2Proof/Machine/Mail.lean ====
section
/-! DEFINITION. Host scratch (R334) and the acceptance of mailbox services (R479). -/

namespace Sys2Proof.Machine

open Bits

namespace State

/-! ## Host scratch (R324, R334) -/

/-- The USE 2 banks of a partition in bank order: at most eight appear in the window. -/
def scratchBanks (s : State) (p : Fin 4) : List Nat :=
  ((List.range 32).filter (fun b => s.pmap.bank[Fin.ofNat 32 b] == p && s.bankUse b == 2)).take 8

/-- The bytes of a partition's host scratch window. -/
def scratchSize (s : State) (p : Fin 4) : Nat := (s.scratchBanks p).length * 2097152

/-- The bank and the offset in it of a window offset. -/
def scratchAt (s : State) (p : Fin 4) (off : Nat) : Option (Nat × Nat) :=
  ((s.scratchBanks p)[off / 2097152]?).map (fun b => (b, off % 2097152))

/-- A byte of the window. -/
def scratchGet (s : State) (p : Fin 4) (off : Nat) : Byte :=
  match s.scratchAt p off with
  | some (b, o) => BitVec.ofNat 8 ((s.sramRd (sramAt 0 b o)).toNat / 256 ^ (o % 4))
  | none => 0#8

/-- Bytes of the window. -/
def scratchBytes (s : State) (p : Fin 4) (off n : Nat) : List Byte := (List.range n).map (fun i => s.scratchGet p (off + i))

/-- Store a byte in the window. -/
def scratchSet (s : State) (p : Fin 4) (off : Nat) (x : Byte) : State :=
  match s.scratchAt p off with
  | some (b, o) => let a := sramAt 0 b o; s.sramWr a (setFld (s.sramRd a) (8 * (o % 4) + 7) (8 * (o % 4)) x.toNat)
  | none => s

/-- The damaged 64-bit words of a range of the window: window offset, bank and offset in it. -/
def scratchBad (s : State) (p : Fin 4) (off n : Nat) : List (Nat × Nat × Nat) :=
  (s.sramBad.filterMap (fun u =>
    let b := 8 * u / 2097152
    let o := 8 * u % 2097152
    if (s.scratchBanks p).contains b then some ((s.scratchBanks p).idxOf b * 2097152 + o, b, o) else none)).filter
      (fun e => decide (off < e.1 + 8 ∧ e.1 < off + n))

/-- The system controller stores bytes in the window. A 64-bit word written whole is good again; a damaged word written in part is found
damaged and stays so (R325, R327, R328). -/
def scratchPut (s : State) (p : Fin 4) (off : Nat) (l : List Byte) : State :=
  let s := forAll (s.scratchBad p off l.length) s (fun e s =>
    if off ≤ e.1 ∧ e.1 + 8 ≤ off + l.length then { s with sramBad := s.sramBad.filter (· ≠ sramAt 0 e.2.1 e.2.2 / 8) }
    else s.sbUe 0 e.2.1 e.2.2 8)
  forAll ((List.range l.length).zip l) s (fun e s => s.scratchSet p (off + e.1) e.2)

/-- The system controller reads bytes of the window; `ecc` is what the first word meets. Damaged words are reported, and read as they are
(R326, R327; log entry 156). -/
def scratchRead (s : State) (p : Fin 4) (off n ecc : Nat) : List Byte × State :=
  let s := match s.scratchAt p off, ecc with
    | some (b, o), 1 => s.sbCe 0 b o
    | some (b, o), 2 => s.sramDamage (sramAt 0 b o)
    | _, _ => s
  let s := forAll (s.scratchBad p off n) s (fun e s => s.sbUe 0 e.2.1 e.2.2 8)
  (s.scratchBytes p off n, s)

/-- The 4 KiB slices of banks that a range of the window reaches. -/
def scratchSlices (s : State) (p : Fin 4) (off n : Nat) : List (Nat × Nat) :=
  if n = 0 then []
  else ((List.range ((off + n - 1) / 4096 + 1 - off / 4096)).filterMap (fun k =>
    s.scratchAt p ((off / 4096 + k) * 4096))).map (fun e => (e.1, e.2 / 4096))

/-- The system controller, a processor, reaches a range of the window: whether it is served now. A sleeping bank begins to wake (R337), a
slice under a destructive test makes it wait (R345), and a preserving test steps aside (R344). -/
def scratchReach (s : State) (p : Fin 4) (off n : Nat) : Bool × State :=
  let l := s.scratchSlices p off n
  if l.any (fun e => s.sleeping 0 e.1) then (false, forAll l s (fun e s => s.wakeArr 0 e.1))
  else if l.any (fun e => s.mtStalls 0 e.1 (4096 * e.2) true) then (false, s)
  else (true, forAll l s (fun e s => s.mtTouch 0 e.1 (4096 * e.2)))

/-! ## Services (R479) -/

/-- A flash range holds part of a directory copy or of a PROV slot (R457, R479). -/
def flashGuarded (s : State) (a n : Nat) : Bool :=
  ((0, 256) :: (0x1000, 256) :: s.slots 2).any (fun e => decide (a < e.1 + e.2 ∧ e.1 < a + n))

/-- The status of a service at its acceptance (R473, R479): 0 while it is legal. -/
def mailVerdict (s : State) (p : Fin 4) (svc : Nat) (args : List Word) : Nat :=
  let arg (k : Nat) : Nat := (args.getD k 0#32).toNat
  let flash := decide (arg 0 + arg 1 ≤ s.sc.flashLen)
  let scratch := decide (arg 2 + arg 1 ≤ s.scratchSize s.owner)
  if svc = 0 then 0
  else if p ≠ s.owner then 3
  else if 5 < svc then 2
  else if svc = 4 ∧ s.sc.load.isSome then 5
  else match svc with
    | 1 => if s.phase = 14 then 1 else if flash && scratch then 0 else 2
    | 2 =>
      if s.phase = 14 ∨ s.sc.load.isSome then 1
      else if arg 0 % 4096 = 0 ∧ arg 1 % 4096 = 0 ∧ flash ∧ !s.flashGuarded (arg 0) (arg 1) then 0 else 2
    | 3 =>
      if s.phase = 14 ∨ s.sc.load.isSome then 1
      else if flash && scratch && !s.flashGuarded (arg 0) (arg 1) then 0 else 2
    | 4 => if s.phase ≠ 12 then 1 else if scratch then 0 else 2
    | _ => if s.phase ≠ 14 then 1 else if scratch then 0 else 2

/-- A write to SC_MB_CMD (R479): ignored and logged while BUSY; otherwise the service runs, and IMAGE_LOAD begins its load. -/
def mailStart (s : State) (c : Part) (p : Fin 4) : State :=
  if s.sc.mail[p].isSome then s.ignored c
  else
    let args := (List.range 4).map (fun k => s.rd (R.SC_MB_ARG p k))
    let svc := fld c.data 7 0
    let bad := s.mailVerdict p svc args
    let s := s.setSc (fun x => { x with mail := x.mail.set p (some ⟨svc, args, bad⟩) })
    if svc = 4 ∧ bad = 0 then
      let from_ := (args.getD 2 0#32).toNat
      let len := (args.getD 1 0#32).toNat
      s.loadBegin { by_ := .mail p, src := .scratch, full := true, part := 0, addr := from_, len := len }
    else s

end State
end Sys2Proof.Machine
end

