-- ==== Sys2Proof/Machine/Regs.lean ====
section
/-! DEFINITION. One 32-bit access to a register (R6, R8, R9, R434, R439 to R441): whose field it is, the gates of EG fields,
what a write stores and what it sets going, what a read returns and latches. -/

namespace Sys2Proof

/-- The bits of a field. -/
def FieldSpec.bits (f : FieldSpec) : Word := Bits.mask f.hi f.lo

namespace Machine

open Bits

/-! ## Views (R8) -/

/-- The view of a BAR0 offset: 0 normal, 1 SET, 2 CLEAR, 3 TOGGLE. -/
def viewOf (off : Nat) : Nat := off / 4096 % 4

/-- A BAR0 offset with its view bits cleared. -/
def plainOff (off : Nat) : Nat := off - viewOf off * 4096

/-- What a view makes of the stored word and the data written (R8). -/
def viewed (view : Nat) (old d : Word) : Word :=
  match view with
  | 0 => d
  | 1 => old ||| d
  | 2 => old &&& ~~~d
  | _ => old ^^^ d

/-- `old` with the bits of `m` taken from `new`. -/
def splice (m old new : Word) : Word := (old &&& ~~~m) ||| (new &&& m)

/-- DESKEW as stored: a value outside −16,384 to +16,384 is stored as the nearer bound (R41). -/
def deskewStored (w : Word) : Word := setFld 0#32 16 0 (BitVec.ofInt 17 (clamp (-16384) 16384 (signed 17 (fld w 16 0)))).toNat

/-- The registers that latch their HI partner, 4 bytes above, when they are read (R439), by the offset of element 0. -/
def latchingBases : List Nat :=
  [R.TB_COUNT_LO, R.TB_PTM_DEV_LO 0, R.CH_GRP_START_LO 0, R.CH_GRP_STOP_LO 0, R.CH_GRP_WPTR_LO 0, R.TRG_SEQ_ARM_LO 0, R.TRG_SEQ_TRIG_LO 0,
    R.TRG_CT_VALUE_LO 0, R.ME_STEP_LO 0 0, R.SG_START_LO 0, R.SG_STOP_LO 0, R.SG_PLAY_LO 0, R.SG_JUMP_TS_LO 0, R.SG_GRID_O_LO,
    R.DC_CAP_LO, R.SC_MB_RES_LO 0, R.SC_FW_VER_LO, R.MON_COUNT_LO 0 0]

/-- The key of a master's latch of a HI register. -/
def latchKey (m : Master) (a : Nat) : Nat :=
  (match m with | .hp p => p.val | .sc => 4) * 67108864 + a

namespace State

/-! ## Whose bits (R434, R435) -/

/-- The partition of bit `j` of word `i` of a register that holds one bit for each unit. -/
def bitPart (s : State) (r : RegRow) (ix : List Nat) (j : Nat) : Fin 4 :=
  let k := 32 * r.flat ix + j
  if r.base = R.CH_AT_GO 0 ∨ r.base = R.CH_CNT_CLR 0 then s.partOf .chan k
  else if r.base = R.CH_GRP_GO ∨ r.base = R.CH_GRP_HALT ∨ r.base = R.TDC_CAL_GO ∨ r.base = R.TDC_CNT_CLR then s.partOf .grp j
  else if r.base = R.IU_SNAP ∨ r.base = R.IU_SNAP_CLR then s.partOf .iu j
  else if r.base = R.TRG_ARM ∨ r.base = R.TRG_HALT then s.partOf .seq j
  else if r.base = R.SG_GO ∨ r.base = R.SG_HALT then s.partOf .sg j
  else if r.base = R.SB_DIA_ENTER ∨ r.base = R.SB_DIA_WAKE then s.partOf .bank j
  else if r.base = R.MON_SNAP ∨ r.base = R.MON_SNAP_CLR then s.partOf .mon j
  else s.partOf .eng k

/-- The bits of such a register that a master reaches. -/
def bitMask (s : State) (m : Master) (r : RegRow) (ix : List Nat) : Word :=
  packW ((List.range 32).map (fun j => (j, b2n (s.reaches m (s.bitPart r ix j)))))

/-- The bits of a register that are the master's to use (R434): its partition's, and PRV ones only of a privileged master. -/
def reachMask (s : State) (m : Master) (r : RegRow) (ix : List Nat) : Word :=
  let own : Word := match r.own with
    | .mixed => s.bitMask m r ix
    | o => if r.pub || s.reaches m (s.partOf o (r.unit ix)) then 0xFFFFFFFF#32 else 0#32
  let prv := r.fields.foldl (fun w f => if f.prv && !s.privileged m then w ||| f.bits else w) 0#32
  own &&& ~~~prv

/-! ## Gates (R6, R88, R135, R214, R255, R379, R440) -/

/-- The block that gates the EG fields of a register is enabled. -/
def gateOn (s : State) (r : RegRow) (ix : List Nat) : Bool :=
  let i := r.unit ix
  match r.gate with
  | .none => false
  | .chEn => s.fb (R.CH_CTL i) 0
  | .grpIdle => !(s.grp[Fin.ofNat 16 i].st == .idle)
  | .xtGrp => !(s.grp[grpOf (Fin.ofNat 128 i)].st == .idle)
  | .seqIdle => !s.restingQ (Fin.ofNat 8 i)
  | .pcEn => s.fb (R.TRG_PC_CTL i) 0
  | .iqEn => s.fb (R.TRG_IQ_CTL i) 0
  | .ctEn => s.fb (R.TRG_CT_CTL i) 0
  | .mmEn => s.fb (R.TRG_MM_CTL i) 0
  | .iuEn => s.fb (R.IU_CTL i) 0
  | .qOff => s.qState i != 0
  | .sgIdle => !(s.sg[Fin.ofNat 8 i].st == .idle)
  | .mtBusy => s.mt[Fin.ofNat 4 i].busy
  | .fillBusy => s.fill[Fin.ofNat 4 i].busy
  | .dcAll => (List.range 16).any (fun c => s.fb (R.DC_CTL c) 0)
  | .dcQuad => (List.range 4).any (fun k => s.fb (R.DC_CTL (4 * i + k)) 0)
  | .dcEn => s.fb (R.DC_CTL (ix.headD 0)) 0
  | .rampRun => s.tb.ramp.run
  | .monEn => s.fb (monCtl (Fin.ofNat 32 i)) 0

/-! ## What a write stores -/

/-- The bits of TRG_PC_MASK that name channels of the comparator's partition; the others are stored as zero (R119). -/
def pcMaskBits (s : State) (pc word_ : Nat) : Word :=
  packW ((List.range 32).map (fun j => (j, b2n (s.partOf .chan (32 * word_ + j) == s.partOf .pc pc))))

/-- What a write makes of the stored fields of a register: the new word, and whether an EG field and a locked W1 field would
have changed (R440, R441). -/
def stored (s : State) (r : RegRow) (ix : List Nat) (a view : Nat) (reach d : Word) : Word × Bool × Bool :=
  let old := s.rd a
  let w := viewed view old d
  let gate := s.gateOn r ix
  r.fields.foldl (fun (acc : Word × Bool × Bool) f =>
    let m := f.bits &&& reach
    let (x, eg, lk) := acc
    match f.acc with
    | .RW => (splice m x w, eg, lk)
    | .EG => if gate then (x, eg || (old &&& m) != (w &&& m), lk) else (splice m x w, eg, lk)
    | .W1 => if m = 0#32 then acc
      else if s.locked.contains a then (x, eg, lk || (old &&& m) != (d &&& m)) else (splice m x d, eg, lk)
    | _ => acc) (old, false, false)

/-- The W1 field of a register locks at its first write (R441). -/
def lockW1 (s : State) (r : RegRow) (a : Nat) (reach : Word) : State :=
  if r.fields.any (fun f => f.acc == .W1 && (f.bits &&& reach) != 0#32) && !s.locked.contains a then
    { s with locked := insertBy (fun x y => x ≤ y) a s.locked }
  else s

/-- Rows whose EN field the enabling operation writes itself, and EN's bit. -/
def ownEnable (r : RegRow) : Option Nat :=
  if r.base = R.IU_CTL 0 ∨ r.base = R.DC_CTL 0 then some 0
  else if r.base = R.QM_DESC0 0 0 then some 3
  else none

/-- A monitor's source is one it may watch (R506): its partition's resource, or a device-wide quantity. -/
def monLegal (s : State) (m : Fin 32) : Bool :=
  let src := s.f (monReg (R.MON_SRC 0 0) m) 13 0
  let p := s.monPart m
  match s.f (monCtl m) 4 1 with
  | 1 => p == s.owner
  | 2 => s.qPart src == p
  | 3 => s.partOf .chan (src % 128) == p
  | 4 => s.partOf .sg (src % 8) == p
  | 5 => s.partOf .eng (src % 256) == p
  | _ => true

/-! ## What a store sets going -/

/-- The enables: what follows when a write has changed EN, by register. `was` and `now` are EN before and as written. A one
written to EN of a controller in FAILED starts its training again (R379). -/
def enableHook (s : State) (c : Part) (r : RegRow) (i : Nat) (was now : Bool) : State :=
  if was = now ∧ ¬(r.base = R.DC_CTL 0 ∧ bit c.data 0 = true ∧ now = true ∧ s.dc[Fin.ofNat 16 i].st = .failed) then s
  else if r.base = R.CH_CTL 0 then s.chEnable (Fin.ofNat 128 i) now
  else if r.base = R.IU_CTL 0 then (if now then s.iuEnable (Fin.ofNat 16 i) else s.iuDisable (Fin.ofNat 16 i))
  else if r.base = R.TRG_PC_CTL 0 then s.resEnable .pc i now
  else if r.base = R.TRG_IQ_CTL 0 then s.resEnable .iq i now
  else if r.base = R.TRG_CT_CTL 0 then s.resEnable .ct i now
  else if r.base = R.TRG_MM_CTL 0 then s.resEnable .mm i now
  else if r.base = R.DC_CTL 0 then (if now then s.dcEnable c (Fin.ofNat 16 i) else (s.wrF (R.DC_CTL i) 0 0 0).dcDisable (Fin.ofNat 16 i))
  else if r.base = R.QM_DESC0 0 0 then
    if now then (if s.qState i = 0 then s.qEnable i else s.ignored c) else s.qDisable i
  else if r.base = R.CFGI_CTL 0 then (if now then s else s.uncommit (Fin.ofNat 4 i))
  else if r.base = R.MON_CTL 0 0 then
    let m := Fin.ofNat 32 i
    if now then
      if s.monLegal m then s.setMon m (fun M => { M with lastAt := s.tb.count, alarmed := false })
      else (s.wrF (monCtl m) 0 0 0).ignored c
    else s
  else s

/-- The bit of EN of the registers with an enable. -/
def enBit (r : RegRow) : Option Nat :=
  if r.base = R.QM_DESC0 0 0 then some 3
  else if [R.CH_CTL 0, R.IU_CTL 0, R.TRG_PC_CTL 0, R.TRG_IQ_CTL 0, R.TRG_CT_CTL 0, R.TRG_MM_CTL 0, R.DC_CTL 0, R.CFGI_CTL 0,
      R.MON_CTL 0 0].contains r.base then some 0
  else none

/-- What follows from other changes of stored fields: a new SQ_OUT or HOLD acts at once on the qualifier level (R145, R146), TRAINED falls when RATE or DC_CFG
changes (R379), the host stream starts when EN rises (R308), a new jump source takes no earlier actions (R301), and bindings of
extractors become invalid or valid (R228). -/
def changeHook (s : State) (r : RegRow) (i : Nat) (old new : Word) : State :=
  if old = new then s
  else if r.base = R.TB_DPLL_CTL 0 then
    if fld old 1 0 % 3 = fld new 1 0 % 3 then s
    else forAll (List.range 4) s (fun k s => s.setDc (Fin.ofNat 16 (4 * i + k)) (fun D => { D with trained := false }))
  else if r.base = R.DC_CFG then
    forAll (List.finRange 16) s (fun k s => s.setDc k (fun D => { D with trained := false }))
  else if r.base = R.TRG_SEQ_CTL 0 then (if bit old 1 = bit new 1 ∧ fld old 31 20 = fld new 31 20 then s else s.sqLeave (Fin.ofNat 8 i) s.now)
  else if r.base = R.ME_X_CTL 0 ∨ r.base = R.ME_X_TGT 0 then s.xtRebind
  else if r.base = R.SG_STR_CTL 0 then
    if bit new 31 && !bit old 31 then (s.strEnable (Fin.ofNat 8 i)).strPump (Fin.ofNat 8 i) 64 else s
  else if r.base = R.SG_JSRC 0 then s.setSg (Fin.ofNat 8 i) (fun G => { G with jFrom := s.tb.count, jLast := none })
  else s

/-- Act on the set bits that may act; when others are set, one record says so (R6, R453). -/
def actOn (s : State) (c : Part) (l : List Nat) (may : Nat → Bool) (act : Nat → State → State) : State :=
  let s := if l.all may then s else s.ignored c
  forAll (l.filter may) s act

/-- Commands with one bit for each unit. `d` holds the bits that are the master's. -/
def bitCommand (s : State) (c : Part) (r : RegRow) (ix : List Nat) (d : Word) : State :=
  let l := ones 32 d
  let k (j : Nat) : Nat := 32 * r.flat ix + j
  let ch (j : Nat) : Fin 128 := Fin.ofNat 128 (k j)
  let en (j : Nat) : Fin 256 := Fin.ofNat 256 (k j)
  if r.base = R.CH_AT_GO 0 then s.actOn c l (fun j => !s.fb (R.CH_CTL (k j)) 0) (fun j s => s.atGo c (ch j))
  else if r.base = R.CH_CNT_CLR 0 then
    forAll l s (fun j s => (s.wr (R.CH_EDGE_CNT (k j)) 0#32).wr (R.CH_COLLAPSE_CNT (k j)) 0#32)
  else if r.base = R.CH_GRP_GO then forAll l s (fun j s => s.groupGo (Fin.ofNat 16 j))
  else if r.base = R.CH_GRP_HALT then forAll l s (fun j s => s.groupHalt (Fin.ofNat 16 j))
  else if r.base = R.TDC_CAL_GO then s.actOn c l (fun j => s.groupIdle (Fin.ofNat 16 j)) (fun j s => s.calGo c (Fin.ofNat 16 j))
  else if r.base = R.TDC_CNT_CLR then
    forAll l s (fun j s => forAll (List.range 8) s (fun i s =>
      (s.wr (R.TDC_RES_CNT (8 * j + i)) 0#32).wr (R.TDC_ECC_CNT (8 * j + i)) 0#32))
  else if r.base = R.IU_SNAP then forAll l s (fun j s => s.iuSnap (Fin.ofNat 16 j) false)
  else if r.base = R.IU_SNAP_CLR then forAll l s (fun j s => s.iuSnap (Fin.ofNat 16 j) true)
  else if r.base = R.TRG_ARM then forAll l s (fun j s => s.trgArm (Fin.ofNat 8 j))
  else if r.base = R.TRG_HALT then forAll l s (fun j s => s.trgHalt (Fin.ofNat 8 j))
  else if r.base = R.SG_GO then forAll l s (fun j s => s.sgGo (Fin.ofNat 8 j))
  else if r.base = R.SG_HALT then forAll l s (fun j s => s.sgHalt (Fin.ofNat 8 j))
  else if r.base = R.ME_GO 0 then
    let es := (s.namedEngs (l.map en)).map Fin.val
    s.actOn c es (fun e => let st := s.eng[Fin.ofNat 256 e].st; st == 1 || st == 4 || st == 5) (fun e s => s.engGo c (Fin.ofNat 256 e))
  else if r.base = R.ME_STOP 0 then forAll (s.namedEngs (l.map en)) s (fun e s => s.engHalt e)
  else if r.base = R.SB_DIA_ENTER then forAll l s (fun j s => s.diaEnter j)
  else if r.base = R.SB_DIA_WAKE then forAll l s (fun j s => s.wakeArr 0 j)
  else if r.base = R.SB_DIA_SP_ENTER 0 then forAll l s (fun j s => s.diaSpEnter (en j))
  else if r.base = R.SB_DIA_SP_WAKE 0 then forAll l s (fun j s => s.wakeArr 1 (k j))
  else
    let clr := r.base == R.MON_SNAP_CLR
    s.actOn c l (fun j => s.mon[Fin.ofNat 32 j].snap.isNone) (fun j s => s.monSnap c (Fin.ofNat 32 j) clr)

/-- Commands with a value. `w` holds the WO fields written. -/
def valueCommand (s : State) (c : Part) (r : RegRow) (i : Nat) (w : Word) : State :=
  let c := { c with data := w }
  let p := Fin.ofNat 4 i
  if r.base = R.HP_FENCE 0 then (if bit w 0 then s.fenceRelease c p else s)
  else if r.base = R.HP_DIGEST_SNAP then (if bit w 0 then s.digestSnap c (s.partM c.m) else s)
  else if r.base = R.CFGI_COMMIT 0 then s.cfgiCommit c p
  else if r.base = R.TB_APPLY then s.tbApply c.off (fld w 15 0)
  else if r.base = R.TB_SYNC_FIRE then s.syncFire c.off (fld w 15 0)
  else if r.base = R.TB_SG_APPLY then s.sgApply c.off (fld w 15 0)
  else if r.base = R.TB_RAMP_GO then s.rampGo c.off (fld w 31 16) (bit w 1) (bit w 0)
  else if r.base = R.TRG_IO_APPLY then s.ioApply c.m c.off (fld w 15 0)
  else if r.base = R.ME_KICK 0 0 then s.setEng (Fin.ofNat 256 i) (fun E => { E with kick := w, kicked := true })
  else if r.base = R.SG_JUMP 0 then (if bit w 0 then s.sgJump (Fin.ofNat 8 i) else s)
  else if r.base = R.SG_STR_DB 0 then s.strDb (Fin.ofNat 8 i) w
  else if r.base = R.SG_CAL 0 then (if bit w 0 then s.sgCal (Fin.ofNat 8 i) (bit w 4) else s)
  else if r.base = R.SB_MT_CTL 0 then
    let s := if bit w 30 then s.mtAbort p else s
    if bit w 31 then s.mtGo p else s
  else if r.base = R.DC_TRN_CMD 0 then s.trnStart c (Fin.ofNat 16 i)
  else if r.base = R.DC_FILL_CTL 0 then (if bit w 31 then s.fillGo c p else s)
  else if r.base = R.PG_APPLY then s.pgApply (s.partM c.m) c.off (fld w 15 0)
  else if r.base = R.SC_MB_CMD 0 then s.mailStart c p
  else s

/-! ## A write (R6, R434) -/

/-- The registers that a write still reaches after an unrecoverable fault (R504). -/
def haltOpen (r : RegRow) : Bool := r.base == R.HP_FENCE 0 || r.base == R.HP_DIGEST_SNAP

/-- A write of one register. `ecc` is what the access to a memory behind a data port meets. A bit of another partition's array in a Diapause
request is refused there too (R335, R336). -/
def regWrite (s : State) (c : Part) (ecc : Nat) : State :=
  let a := plainOff c.off
  match RegTable.find a with
  | none => s
  | some (r, ix) =>
    if s.phase = 15 ∧ !haltOpen r then s.ignored c
    else
      let i := r.unit ix
      let view := viewOf c.off
      let r := s.rowFor r ix (viewed view (s.rd a) c.data)
      let reach := s.reachMask c.m r ix
      let writable := r.fields.foldl (fun w f => match f.acc with | .RO | .LV => w | _ => w ||| f.bits) 0#32
      let s := if c.data &&& writable &&& ~~~reach = 0#32 then s else s.denied c
      let s := if r.base = R.SB_DIA_ENTER ∨ r.base = R.SB_DIA_SP_ENTER 0 then
          forAll (ones 32 (c.data &&& ~~~reach)) s (fun j s => s.diaRefused (s.partM c.m) (32 * r.flat ix + j))
        else s
      if r.base = R.ME_SPD 0 0 then
        let e := Fin.ofNat 256 i
        if reach = 0#32 then s else s.spdWrite c e (viewed view (s.padRd e (s.f (engReg R.ME_SPA e) 16 2 * 4)) c.data) ecc
      else if r.base = R.SG_LS_DATA 0 then
        let g := Fin.ofNat 8 i
        if reach = 0#32 then s
        else s.lsWrite c g (viewed view (s.sramRd (sramAt 3 g (s.f (R.SG_LS_ADDR g) 17 2 * 4))) c.data) ecc
      else
        let old := s.rd a
        let (new, eg, lk) := s.stored r ix a view reach c.data
        let s := if eg then s.glb c 2 0 else s
        let s := if lk then s.glb c 3 0 else s
        let new := if r.base = R.CH_DESKEW 0 then deskewStored new else new
        let new := if r.base = R.TRG_PC_MASK 0 0 then new &&& s.pcMaskBits i (r.flat ix % 4) else new
        let keep := match ownEnable r with | some b => setFld new b b (fld old b b) | none => new
        let was := s.qType i
        let s := (s.lockW1 r a reach).wr a keep
        let s := if r.descWord = some 0 then s.retype i was else s
        let s := match enBit r with | some b => s.enableHook c r i (bit old b) (bit new b) | none => s
        let s := s.changeHook r i old new
        let wo := r.fields.foldl (fun w f => match f.acc with | .WO => w ||| f.bits | _ => w) 0#32 &&& reach
        if wo = 0#32 then s
        else match r.own with
          | .mixed => s.bitCommand c r ix (c.data &&& wo)
          | _ => s.valueCommand c r i (c.data &&& wo)

/-! ## A read (R434, R439) -/

/-- Latching registers of a row: its element at `a` is a LO register, or the HI register of one. -/
def isLatchLo (r : RegRow) : Bool := latchingBases.contains r.base
def isLatchHi (r : RegRow) : Bool :=
  (latchingBases.contains (r.base - 4) && decide (4 ≤ r.base)) || r.base == R.TB_PTM_SEQ 0 || r.base == R.TB_PTM_HOST_LO 0 ||
    r.base == R.TB_PTM_HOST_HI 0

/-- The registers that a read of a LO register latches, by their distance from it: its HI register, and with TB_PTM_DEV_LO the rest of
the pair and the sequence number (R79, R439). -/
def latchedBy (r : RegRow) : List Int := if r.base = R.TB_PTM_DEV_LO 0 then [4, 8, 12, -4] else [4]

/-- A master's latch takes the word that a register shows. -/
def latchWord (s : State) (m : Master) (a : Nat) : State :=
  { s with latch := Tab.set (fun _ => 0#32) s.latch (latchKey m a) (s.liveWord m a) }

/-- A read of one register: the word its master receives, and the state after it. -/
def regRead (s : State) (c : Part) (ecc : Nat) : Word × State :=
  let a := plainOff c.off
  match RegTable.find a with
  | none => (0#32, s)
  | some (r, ix) =>
    let r := s.rowNow r ix
    let reach := s.reachMask c.m r ix
    if reach = 0#32 then (0#32, s)
    else if r.base = R.ME_SPD 0 0 then s.spdRead c (Fin.ofNat 256 (r.unit ix)) ecc
    else if r.base = R.SG_LS_DATA 0 then s.lsRead c (Fin.ofNat 8 (r.unit ix)) ecc
    else
      let shown := r.fields.foldl (fun w f => match f.acc with | .WO => w | _ => w ||| f.bits) 0#32 &&& reach
      if isLatchHi r then (Tab.get (fun _ => 0#32) s.latch (latchKey c.m a) &&& shown, s)
      else
        let w := s.liveWord c.m a &&& shown
        if isLatchLo r then
          (w, forAll (latchedBy r) s (fun d s => s.latchWord c.m (a + d).toNat))
        else (w, s)

end State
end Machine
end Sys2Proof
end

