-- ==== Sys2Proof/Machine/Access.lean ====
section
/-! DEFINITION. Accesses of the masters: width, alignment and byte enables (R430, R431), bus errors (R432, R433, R437), order
(R438), the memory windows (R334, R365), doorbells and the MSI-X table (R396 to R398), configuration space (R392, R393). -/

namespace Sys2Proof.Machine

open Bits

/-- Offsets of the space that are memory windows (R430). -/
def isWindow (bar : Bar) (off : Nat) : Bool := bar == .bar0 && decide (0x2000000 ≤ off)

/-- The size of a space. -/
def barSize (bar : Bar) : Nat :=
  match bar with | .bar0 => 0x4000000 | .bar2 => 0x100000 | .bar4 => 0x4000 | .cfg => 0x1000

/-- The island whose register port an access uses (R436), as R503 numbers islands. -/
def islandOf (bar : Bar) (off : Nat) : Option Nat :=
  match bar with
  | .cfg => if 0x180 ≤ off then some 8 else none
  | .bar0 =>
    if 0x40000 ≤ off ∧ off < 0x80000 then some 0
    else if 0x100000 ≤ off ∧ off < 0x200000 then some 1
    else if 0x210000 ≤ off ∧ off < 0x214000 then some 2
    else if 0xC00000 ≤ off ∧ off < 0xE00000 then some 3
    else if 0x1000000 ≤ off ∧ off < 0x1040000 then some (4 + (off - 0x1000000) / 0x10000)
    else if 0x1040000 ≤ off ∧ off < 0x1400000 then some 4
    else none
  | _ => none

/-- The cause of a bus error that the whole access has (R430, R433): its first offset, its words, its byte enables. -/
def accessCause (bar : Bar) (off n be : Nat) : Option Nat :=
  if be ≠ 15 then some 0
  else if off % 4 ≠ 0 ∨ (n = 2 ∧ off % 8 ≠ 0) then some 1
  else if isWindow bar off then (if off / 64 = (off + 4 * n - 1) / 64 then none else some 2)
  else if n ≤ 2 then none else some 2

namespace State

/-- Answer a master. -/
def answer (s : State) (m : Master) (x : Answer) : State := { s with resp := s.resp ++ [(m, x)] }

/-- A bus error (R432): the record, and for a read or a configuration request the Completer Abort, or the error response. -/
def busError (s : State) (c : Part) (cause : Nat) : State :=
  let s := s.glb c 0 cause
  match c.m with
  | .hp p =>
    let s := if c.read then s.aerSet p 15 else s
    if c.read || c.bar == .cfg then s.answer c.m .abort else s
  | .sc => s.answer c.m .abort

/-! ## Reserved locations (R433, R477) -/

/-- A part reaches nothing that a table lists. -/
def reserved (s : State) (c : Part) : Bool :=
  let off := c.off
  match c.bar, c.m with
  | .cfg, _ => false
  | .bar2, .hp _ => s.phase == 14 || decide (off % 0x40 ≠ 0) || decide (0x100000 ≤ off)
  | .bar4, .hp _ => s.phase == 14 || !(decide (off < 0x2000) || decide (0x2000 ≤ off ∧ off < 0x2040))
  | .bar0, m =>
    if off < 0x2000000 then
      (RegTable.find (plainOff off)).isNone ||
        (s.phase == 14 && m != .sc && !(decide (off < 0x10000) || decide (0x1800000 ≤ off)))
    else match m with
      | .sc => true
      | .hp p =>
        if off < 0x3000000 then (s.scratchAt p (off - 0x2000000)).isNone || (s.phase == 14 && !s.sc.marched)
        else s.phase == 14 || decide (0x4000000 ≤ off)
  | _, .sc => true

/-! ## Configuration space (R392, R393) -/

/-- The identity in force: Vendor ID, Subsystem Vendor ID, Subsystem ID (R392, R482). -/
def pcieIds (s : State) : Nat × Nat × Nat :=
  match s.sc.prov with
  | some r => (leAt r 8 2, leAt r 10 2, leAt r 12 2)
  | none => s.sc.fuse.ids

/-- A configuration word as it reads. The offsets and the words that the spec does not give are the model's (log entry 20). -/
def cfgRead (s : State) (p : Fin 4) (off : Nat) : Word :=
  let w := s.cfgW p off
  let (ven, sven, sid) := s.pcieIds
  match off with
  | 0x00 => word (0x7128 * 65536 + ven)
  | 0x04 => w ||| packW [(20, 1), (19, b2n (s.intx p))]
  | 0x08 => word 0x11800001
  | 0x10 | 0x18 | 0x20 => w ||| 4#32
  | 0x2C => word (sid * 65536 + sven)
  | 0x34 => word 0x40
  | 0x3C => w ||| word 0x100
  | 0x40 => word 0x00035001
  | 0x44 => w ||| word 8
  | 0x50 => w ||| word 0x01FF7011
  | 0x54 => word 4
  | 0x58 => word 0x2004
  | 0x70 => word 0x00020010
  | 0x74 => word 2
  | 0x94 => word 0x00030800
  | 0x100 => word 0x14020001
  | 0x104 => s.port[p].aer
  | 0x118 => word 0xA0
  | 0x140 => word 0x15C10003
  | 0x144 => word (leAt s.sc.fuse.device 0 4)
  | 0x148 => word (leAt s.sc.fuse.device 4 4)
  | 0x15C => word 0x1701001F
  | 0x160 => word 1
  | 0x170 => word 0x18010018
  | 0x180 => word 0x1A010019
  | 0x1A0 => word 0x1D010026
  | 0x1D0 => word 0x2001002A
  | 0x200 => word 0x00010027
  | _ => w

/-- A configuration write of the bytes that are enabled (R393, R402): what follows when the command register, MSI-X control,
the power state or the error status change. -/
def cfgWrite (s : State) (p : Fin 4) (off : Nat) (d : Word) (be : Nat) : State :=
  let bytes : Word := packW ((List.range 4).map (fun k => (8 * k, 255 * (be / 2 ^ k % 2))))
  if off = 0x104 then s.setPort p (fun P => { P with aer := P.aer &&& ~~~(d &&& bytes) })
  else
    let old := s.cfgW p off
    let new := splice (cfgMask off &&& bytes) old d
    if off = 0x04 then
      let s := s.setPort p (fun P => { P with cfg := Tab.set cfgReset P.cfg off (splice 4#32 new old) })
      s.setBme p (bit new 2)
    else
      let s := s.setPort p (fun P => { P with cfg := Tab.set cfgReset P.cfg off new })
      if off = 0x50 then s.unmask p
      else if off = 0x44 then s.setD3 p (fld new 1 0 == 3)
      else s

/-! ## BAR2 and BAR4 (R396 to R398) -/

/-- A word of BAR4. -/
def bar4Read (s : State) (p : Fin 4) (off : Nat) : Word :=
  if off < 0x2000 then s.msixW p (off / 4)
  else packW ((List.range 32).map (fun j => (j, b2n (s.port[p].pba.contains ((off - 0x2000) / 4 * 32 + j)))))

/-- A write to BAR4: the writable bits of a table entry; the PBA is read-only. -/
def bar4Write (s : State) (p : Fin 4) (off : Nat) (d : Word) : State :=
  if off < 0x2000 then
    let i := off / 4
    let m : Word := match i % 4 with | 0 => 0xFFFFFFFC#32 | 3 => 1#32 | _ => 0xFFFFFFFF#32
    (s.setPort p (fun P => { P with msix := Tab.set msixReset P.msix i (d &&& m) })).unmask p
  else s

/-! ## The memory windows -/

/-- A host scratch access (R325, R327, R328, R334). -/
def scratchAccess (s : State) (c : Part) (p : Fin 4) (b o ecc : Nat) : State :=
  let (bad, s) := s.sramCheck 0 b o ecc 2
  let a := sramAt 0 b o
  if c.read then
    if bad then (s.aerSet p 26).answer c.m (.poisoned (s.sramRd a)) else s.answer c.m (.data (s.sramRd a))
  else s.sramWr a c.data

/-- The usable address of a window offset (R365). -/
def winAddr (s : State) (p : Fin 4) (off : Nat) : Nat := s.f (R.DC_WIN p) 12 0 * 16777216 + (off - 0x3000000)

/-- An acquisition-memory window access that is served, in class C3 (R364, R365, R367). A write of less than a group
reads the rest of it first (R363). -/
def winServe (s : State) (c : Part) (p : Fin 4) : State :=
  let a := s.winAddr p c.off
  let port := 25 + p.val
  let s := if s.inShare p a 4 then s.dcRequest port 3 a (!c.read) else s
  if c.read then
    let (bs, bad, s) := s.acqRead p port 3 a 4
    let w := word (leVal bs)
    if bad then (s.aerSet p 26).answer c.m (.poisoned w) else s.answer c.m (.data w)
  else s.acqWrite p port a (wordBytes c.data)

/-- What the state of its channel makes of a window access: 0 served, 1 it waits, 2 UNAVAILABLE (R365, R502). An address
outside the share reaches no channel (R364). -/
def winState (s : State) (p : Fin 4) (off : Nat) (read : Bool) : Nat :=
  let a := s.winAddr p off
  if !s.inShare p a 4 then 0
  else
    let d := s.dc[s.dcChan a]
    match d.st with
    | .active => if d.stopping then 1 else 0
    | .disabled | .failed => 2
    | .training => if d.fullFor && read then 2 else 1
    | _ => 1

/-! ## Stalls (R337, R344, R345, R365, R438) -/

/-- The memory behind a data port that the master reaches: memory, index and offset. -/
def portArr (s : State) (c : Part) : Option (Nat × Nat × Nat) :=
  match RegTable.find (plainOff c.off) with
  | some (r, ix) =>
    if s.reachMask c.m r ix = 0#32 then none
    else if r.base = R.ME_SPD 0 0 then
      let e := Fin.ofNat 256 (r.unit ix)
      some (1, e.val, s.f (engReg R.ME_SPA e) 16 2 * 4)
    else if r.base = R.SG_LS_DATA 0 then
      let g := r.unit ix
      some (3, g, s.f (R.SG_LS_ADDR g) 17 2 * 4)
    else none
  | none => none

/-- The array of memory behind an access. -/
def behind (s : State) (c : Part) : Option (Nat × Nat × Nat) :=
  match c.bar, c.m with
  | .bar0, .hp p =>
    if 0x3000000 ≤ c.off then none
    else if 0x2000000 ≤ c.off then (s.scratchAt p (c.off - 0x2000000)).map (fun e => (0, e.1, e.2))
    else s.portArr c
  | .bar0, .sc => s.portArr c
  | _, _ => none

/-- A part that reaches a register. -/
def partReg (s : State) (c : Part) (ecc : Nat) : State :=
  if c.read then
    let (w, s) := s.regRead c ecc
    s.answer c.m (.data w)
  else s.regWrite c ecc

/-- A part of a host port that no array delays: whether it was performed, and the state after. -/
def partHost (s : State) (c : Part) (p : Fin 4) (ecc : Nat) : Bool × State :=
  match c.bar with
  | .bar2 =>
    if c.read then (true, s.answer c.m (.data (s.doorbellRead p (c.off / 0x40))))
    else if s.phase = 15 then (true, s.ignored c)
    else (true, s.doorbell c p (c.off / 0x40) c.data)
  | .bar4 =>
    if c.read then (true, s.answer c.m (.data (s.bar4Read p c.off)))
    else if s.phase = 15 then (true, s.ignored c)
    else (true, s.bar4Write p c.off c.data)
  | .cfg => (true, s)
  | .bar0 =>
    if 0x3000000 ≤ c.off then
      match s.winState p c.off c.read with
      | 0 => (true, s.winServe c p)
      | 1 => (false, s)
      | _ => (true, s.busError c 5)
    else if 0x2000000 ≤ c.off then
      match s.scratchAt p (c.off - 0x2000000) with
      | some (b, o) => if s.phase = 15 ∧ !c.read then (true, s.ignored c) else (true, s.scratchAccess c p b o ecc)
      | none => (true, s)
    else (true, s.partReg c ecc)

/-- Perform one part: whether it was performed, and the state after. An access to a failed island is a bus error; one to a
sleeping array begins its wake and waits; one to a slice under test waits. -/
def perform (s : State) (c : Part) (ecc : Nat) : Bool × State :=
  let dead := match islandOf c.bar c.off with | some i => s.failed.contains i | none => false
  if dead then (true, s.busError c 4)
  else
    let arr := s.behind c
    let slept := match arr with | some (mem, i, _) => mem != 3 && s.sleeping mem i | none => false
    let tested := match arr with | some (mem, i, o) => s.mtStalls mem i o false | none => false
    if slept then (false, match arr with | some (mem, i, _) => s.wakeArr mem i | none => s)
    else if tested then (false, s)
    else match c.m with
      | .hp p => s.partHost c p ecc
      | .sc => (true, s.partReg c ecc)

/-- The parts of a master that wait, oldest first. -/
def waitsFor (s : State) (m : Master) : Bool := s.asleep.any (fun c => c.m == m)

/-- A part joins the waiting ones; a window access notes its arrival when it comes to the front of its master's parts. -/
def hold_ (s : State) (c : Part) : State :=
  let s := { s with asleep := s.asleep ++ [c] }
  match c.m with
  | .hp p =>
    if c.bar == .bar0 && decide (0x3000000 ≤ c.off) then
      let x : WinWait := ⟨p, c.off, if c.read then none else some c.data, s.tb.count⟩
      { s with winWait := s.winWait ++ [x] }
    else s
  | .sc => s

/-- A part is performed in the order of its master, or waits (R438). -/
def partDo (s : State) (c : Part) (ecc : Nat) : State :=
  if s.waitsFor c.m then s.hold_ c
  else
    let (done, s) := s.perform c ecc
    if done then s else s.hold_ c

/-- Remove the first waiting part of a master, with its note if it is a window access. -/
def release_ (s : State) (c : Part) : State :=
  let s := { s with asleep := s.asleep.erase c }
  match c.m with
  | .hp p =>
    if c.bar == .bar0 && decide (0x3000000 ≤ c.off) then
      { s with winWait := s.winWait.eraseP (fun w => w.port == p.val && w.off == c.off) }
    else s
  | .sc => s

/-- Serve the waiting parts of one master while they can be served; at most `fuel` of them. -/
def serve (s : State) (m : Master) (ecc : Nat) : Nat → State
  | 0 => s
  | n + 1 =>
    match s.asleep.find? (fun c => c.m == m) with
    | none => s
    | some c =>
      let (done, s) := s.perform c ecc
      if done then serve (s.release_ c) m ecc n else s

/-- Serve what waits, master by master. -/
def serveAll (s : State) (ecc : Nat) : State :=
  forAll [Master.hp 0, .hp 1, .hp 2, .hp 3, .sc] s (fun m s => s.serve m ecc (s.asleep.length + 1))

/-- A window access that has waited 1 ms ends with UNAVAILABLE (R365), whatever waits before it, and what waited behind it follows. -/
def winTimeout (s : State) (p : Fin 4) : State :=
  match s.winWait.find? (fun w => w.port == p.val && s.since w.at_ 2000000) with
  | some w =>
    match s.asleep.find? (fun c => c.m == .hp p && c.bar == .bar0 && c.off == w.off) with
    | some c => (((s.release_ c).busError c 5)).serve (.hp p) 0 (s.asleep.length + 1)
    | none => s
  | none => s

/-! ## Whole accesses (R430, R431) -/

/-- A host port takes memory accesses: its link is up, Memory Space Enable is set, it is in D0, and its configuration space is
ready (R391, R401, R475). -/
def portOpen (s : State) (p : Fin 4) (bar : Bar) : Bool :=
  let ready := s.present p && !s.port[p].perst && s.port[p].link && decide (3 ≤ s.phase)
  if bar == .cfg then ready else ready && s.mse p && !s.port[p].d3

/-- The parts of an access, lowest address first. -/
def partsOf (m : Master) (bar : Bar) (off : Nat) (ds : List Word) (read : Bool) : List Part :=
  ((List.range ds.length).zip ds).map (fun e => ⟨m, bar, off + 4 * e.1, e.2, read, decide (0 < e.1)⟩)

/-- An access to BAR0, BAR2 or BAR4 that a master makes, checked as a whole and then done part by part. -/
def access (s : State) (m : Master) (bar : Bar) (off : Nat) (ds : List Word) (read : Bool) (be ecc : Nat) : State :=
  let first : Part := ⟨m, bar, off, ds.headD 0#32, read, false⟩
  if ds.length = 1 ∧ be = 0 then (if read then s.answer m (.data 0#32) else s)
  else match accessCause bar off ds.length be with
    | some cause => s.busError first cause
    | none =>
      let ps := partsOf m bar off ds read
      if read then
        match ps.find? (fun c => s.reserved c) with
        | some c => s.busError c 3
        | none => forAll ps s (fun c s => s.partDo c ecc)
      else
        let bad := ps.filter (fun c => s.reserved c)
        let good := ps.filter (fun c => !s.reserved c)
        let s := forAll bad s (fun c s => s.busError c 3)
        forAll good s (fun c s => s.partDo c ecc)

/-- An access of a master (R432, R435): what arrives at a port that is not open is no access; a poisoned write is dropped
(R402); an access that targets no BAR is an Unsupported Request (R394). -/
def bus (s : State) (m : Master) (bar : Bar) (off : Nat) (ds : List Word) (read : Bool) (be ecc : Nat) (poison : Bool) : State :=
  let s := { s with resp := [] }
  match m with
  | .sc => if bar == .bar0 then s.access .sc bar off ds read be ecc else s
  | .hp p =>
    if bar == .cfg then
      if !s.portOpen p .cfg || ds.length != 1 || decide (0x1000 ≤ off) then s
      else
        let o := off / 4 * 4
        let c : Part := ⟨m, .cfg, o, ds.headD 0#32, read, false⟩
        if (match islandOf .cfg o with | some i => s.failed.contains i | none => false) then (s.busError c 4)
        else if read then s.answer m (.data (s.cfgRead p o))
        else if poison then s.aerSet p 12
        else s.cfgWrite p o (ds.headD 0#32) be
    else if !s.portOpen p bar || decide (barSize bar < off + 4 * ds.length) then
      if s.present p && s.port[p].link then (if read then (s.aerSet p 20).answer m .unsupported else s.aerSet p 20) else s
    else if poison && !read then s.aerSet p 12
    else s.access m bar off ds read be ecc

/-- The write of one word to a register, through the normal view. -/
def busWrite (s : State) (m : Master) (a : Nat) (d : Word) : State := s.bus m .bar0 a [d] false 15 0 false

end State

/-! ## Steps -/

/-- REGISTER_WRITE: a write of some words by a master (R6, R430). `be` holds the byte enables (15 for all on), `ecc` is what
the access to a memory meets (R326, R327), `poison` says that the write arrives poisoned (R402). -/
def execRegisterWrite (m : Master) (bar : Bar) (off : Nat) (data : List Word) (be : Fin 16) (ecc : Fin 3) (poison : Bool) (s : State) :
    Host.Outcome State Fault Refusal := .next (s.bus m bar off data false be ecc poison)

/-- LATCHING_READ: a read of some words by a master; a LO register latches its HI partner for the reader (R439). -/
def execLatchingRead (m : Master) (bar : Bar) (off : Nat) (words : Fin 1025) (be : Fin 16) (ecc : Fin 3) (s : State) :
    Host.Outcome State Fault Refusal := .next (s.bus m bar off (List.replicate words 0#32) true be ecc false)

end Sys2Proof.Machine
end

