-- ==== Sys2Proof/Machine/Reset.lean ====
section
/-! DEFINITION. The resets of a partition's resources (R94, R142, R178, R212, R252, R283, R307, R410, R442, R471) and the layout
while no full image is loaded (R469). -/

namespace Sys2Proof

/-- What calibrations have measured: the tables and the calibration temperature, which no partition reset and no load changes
(R30, R32; log entry 126). -/
def RegRow.measured (r : RegRow) : Word :=
  if r.base = R.TDC_TABLE 0 0 0 ∨ r.base = R.TDC_B254 0 then 0xFFFFFFFF#32
  else if r.base = R.TDC_CAL_TEMP 0 then 0xFFFF#32 else 0#32

/-- The bits of a register that a partition reset leaves (R442): fused, strapped and provisioned fields, those the partition
map gives (R465), measured ones, and at a PERST# every read-only field that the image gives. -/
def RegRow.keepBits (r : RegRow) (load : Bool) : Word :=
  r.fields.foldl (fun w f =>
    match f.rst, f.acc with
    | .fused, _ | .strap, _ | .prov, _ => w ||| f.bits
    | .image, .RO => if load && r.base != R.QM_POOL 0 && r.base != R.QM_DESC0 0 0 then w else w ||| f.bits
    | _, _ => w) r.measured

namespace Machine

open Bits

/-- The blocks that an image may not write (R472), which a load does not reset either: GLB, HP, CFGI, DC and the SC mailbox. -/
def outsideImage (a : Nat) : Bool := decide (a < 0x40000) || decide (0x1000000 ≤ a ∧ a < 0x1400000) || decide (0x1800000 ≤ a)

namespace State

/-- An address holds a register of partition `p`. -/
def ownReg (s : State) (p : Fin 4) (a : Nat) : Bool :=
  match RegTable.find a with
  | some (r, ix) => (match r.own with | .dev | .mixed => false | o => s.partOf o (r.unit ix) == p)
  | none => false

/-- The registers of a partition return to their reset values (R442), and its W1 fields unlock (R441). At a load the blocks
outside the image stay. -/
def resetRegs (s : State) (p : Fin 4) (load : Bool) : State :=
  let mine (a : Nat) : Bool := s.ownReg p a && !(load && outsideImage a)
  let keep (a : Nat) : Word := match RegTable.find a with | some (r, _) => r.keepBits load | none => 0#32
  let regs := forAll (s.regs.filter (fun e => mine e.1)) s.regs (fun e t =>
    Tab.set RegTable.resetWord t e.1 (splice (keep e.1) (RegTable.resetWord e.1) e.2))
  { s with regs := regs, locked := s.locked.filter (fun a => !mine a) }

/-! ## Units -/

/-- A channel of a partition that is reset (R19, R94, R95): auto-threshold is aborted, the channel is disabled at once. -/
def resetCh (s : State) (c : Fin 128) : State :=
  let on := s.fb (R.CH_CTL c) 0
  let s := s.setTrg (fun T => { T with flow := T.flow.filter (fun x => !(x.2 == .chEn c.val true || x.2 == .chEn c.val false)) })
  let s := s.setCh c (fun C => { C with at_ := none, enPend := [], enLog := if on then (s.now, false) :: C.enLog else C.enLog })
  if on then s.addFlow s.now (.chEn c false) else s

/-- A group of a partition that is reset (R94, R178); calibration under way is abandoned at a PERST# (R30). -/
def resetGrp (s : State) (g : Fin 16) (load : Bool) : State :=
  let s := s.grpKill g
  let s := if load then s else s.setGrp g (fun G => { G with calAt := none })
  forAll (List.range 8) s (fun j s => (s.resetCh (chOf g j)).setXt (chOf g j) (fun _ => {}))

/-- The enables of a resource that wait for their stamps are gone. -/
def dropEnables (s : State) (k : ResKind) (n : Nat) : State :=
  s.setTrg (fun T => { T with
    enPend := T.enPend.filter (fun e => !(e.2.1 == k && e.2.2.1 == n)),
    flow := T.flow.filter (fun x => !(x.2 == .enable k n true || x.2 == .enable k n false)) })

/-- A sequencer of a partition that is reset: its pending stops are cancelled (R142). The output path goes on with the events and levels
before it (R147, R149). -/
def resetSeq (s : State) (q : Fin 8) : State :=
  let s := forAll (List.finRange 16) s (fun g s => s.setGrp g (fun G => { G with
    pendStops := G.pendStops.filter (fun e => e.1 != q.val) }))
  (s.setSeq q (fun Q => { ({} : SeqSt) with
    armLog := (s.now, s.launchCount q s.now, false) :: Q.armLog, evLog := Q.evLog,
    sqLog := (s.now, s.launchCount q s.now, .const true) :: Q.sqLog }))

/-- An engine of a partition that is reset: READY with its code kept at a PERST# (R252), OFF at a load (R471). -/
def resetEng (s : State) (e : Fin 256) (load : Bool) : State :=
  let s := if load then s.setEng e (fun _ => {}) else s.engPerst e
  s.setGang e {}

/-- The queues of a partition are discarded (R283): OBS queues with their records and spill regions, rings with what they
hold, the event store; messages on their way to the matchers go too. The duplicate caches are cleared at a PERST# (R421). -/
def dropQueues (s : State) (p : Fin 4) (load : Bool) : State :=
  let obs := s.obsQueues.filter (fun q => s.qPart q == p)
  let rings := s.rings.filter (fun q => s.qPart q == p)
  let s := { s with sealQ := s.sealQ.filter (fun j => match j with | .message q _ _ _ _ => !obs.contains q | _ => true) }
  let s := forAll obs s (fun q s => s.setQ q (fun _ => {}))
  let s := forAll rings s (fun q s => s.setRing q (fun G =>
    { ({} : RingSt) with
      life := G.life + 1, asks := G.asks, cache := if load then G.cache else [], lastSeq := if load then G.lastSeq else 0 }))
  let s := s.setQm (fun Q => { Q with mm := Q.mm.filter (fun m => m.part != p) })
  let s := s.wrF (R.QM_POOL p) 31 16 (s.f (R.QM_POOL p) 15 0)
  let s := s.setPort p (fun P => { P with tx := P.tx.map (fun (t : Tx) =>
    match t.kind with | .shadow q life _ _ => { t with kind := .slots q life } | _ => t) })
  s.setEvt p (fun _ => {})

/-- The resources of a partition return to their reset values: at its PERST# or, with `load`, in step 5 of a load. -/
def resetPart (s : State) (p : Fin 4) (load : Bool) : State :=
  let runs := ((List.finRange 128).filter (fun c => s.grpPart (grpOf c) == p && s.ch[c].at_.isSome)).map
    (fun (c : Fin 128) => (c.val, s.rd (R.CH_THR c.val)))
  let s := forAll ((List.finRange 8).filter (fun q => s.pmap.seq[q] == p)) s (fun q s => s.resetSeq q)
  let s := forAll ((List.finRange 16).filter (fun g => s.pmap.grp[g] == p)) s (fun g s => s.resetGrp g load)
  let s := forAll ((List.finRange 64).filter (fun n => s.pmap.pc[n] == p)) s (fun n s => (s.dropEnables .pc n).setPc n (fun _ => {}))
  let s := forAll ((List.finRange 32).filter (fun n => s.pmap.iq[n] == p)) s (fun n s => (s.dropEnables .iq n).setIq n (fun _ => {}))
  let s := forAll ((List.finRange 32).filter (fun n => s.pmap.ct[n] == p)) s (fun n s => (s.dropEnables .ct n).setCt n (fun _ => {}))
  let s := forAll ((List.finRange 64).filter (fun n => s.pmap.mm[n] == p)) s (fun n s =>
    s.setTrg (fun T => { T with mmLog := T.mmLog.set n [] }))
  let s := forAll ((List.finRange 16).filter (fun u => s.pmap.iu[u] == p)) s (fun u s => s.setIu u (fun _ => {}))
  let s := forAll ((List.finRange 8).filter (fun g => s.sgPart g == p)) s (fun g s => s.sgPerst g)
  let s := forAll ((List.finRange 256).filter (fun e => s.pmap.me[e] == p)) s (fun e s => s.resetEng e load)
  let s := forAll ((List.finRange 32).filter (fun m => s.monPart m == p)) s (fun m s => s.setMon m (fun _ => {}))
  let s := ((s.dropQueues p load).resetRegs p load).uncommit p
  if load then s else forAll runs s (fun e s => (s.wrF (R.CH_AT_RESULT e.1) 26 24 3).wr (R.CH_THR e.1) e.2)

/-- A partition is detached (R416). -/
def detach (s : State) (p : Fin 4) : State := s.setPort p (fun P => { P with attached := false })

/-! ## The layout without a full image (R469) -/

/-- Every resource belongs to the owner partition; banks 8 to 31 have USE 3, banks 0 to 7 USE 2; one share. -/
def noImageLayout (s : State) : State :=
  let o := s.owner
  let all : PMap := ⟨Vector.replicate 16 o, Vector.replicate 8 o, Vector.replicate 64 o, Vector.replicate 32 o, Vector.replicate 32 o,
    Vector.replicate 64 o, Vector.replicate 16 o, Vector.replicate 8 o, Vector.replicate 256 o, Vector.replicate 32 o⟩
  let s := { s with pmap := all, resident := [] }
  let s := forAll (List.range 32) s (fun b s => s.wr (R.SB_MAP b) (word ((if b < 8 then 2 else 3) * 4 + o.val)))
  let s := forAll (List.finRange 4) s (fun p s =>
    let top := if p = o then s.dcCap / 1048576 else 0
    (((s.wr (R.DC_PART_BASE p) 0#32).wr (R.DC_PART_LIMIT p) (word top)).wr (R.QM_POOL p) 0#32))
  let s := forAll (List.range 16384) s (fun q s => if s.f (qd q 0) 5 4 = o.val then s else s.wrF (qd q 0) 5 4 o)
  s.setSc (fun c => { c with
    loaded := false, pmap := [], kept := Vector.replicate 4 [], ifVer := Vector.replicate 4 0, imgVer := Vector.replicate 4 0 })

end State
end Machine
end Sys2Proof
end

