-- ==== Sys2Proof/Machine/Image.lean ====
section
/-! DEFINITION. Sweant images: the container, its checks in the order of R467, keys, decryption, and CONFIG records
(R458 to R468). -/

namespace Sys2Proof.Machine

open Bits

/-! ## The container (R458 to R462) -/

/-- The magic numbers of containers, records and tokens, little-endian: "SWNT", "XFPR", "XFRT". -/
def magicImage : Nat := 0x544E5753
def magicProv : Nat := 0x52504658
def magicToken : Nat := 0x54524658

/-- A run of bytes is zero. -/
def zeros (b : List Byte) (o n : Nat) : Bool := (slice b o n).all (fun x => x == 0#8)

/-- Fields of the header (R459). -/
def hScope (b : List Byte) : Nat := leAt b 6 1
def hPart (b : List Byte) : Nat := leAt b 7 1
def hVersion (b : List Byte) : Nat := leAt b 8 8
def hMinor (b : List Byte) : Nat := leAt b 16 1
def hMajor (b : List Byte) : Nat := leAt b 17 1
def hNsec (b : List Byte) : Nat := leAt b 18 2
def hTotal (b : List Byte) : Nat := leAt b 20 4
def hMinFw (b : List Byte) : Nat := leAt b 24 8
def hDevice (b : List Byte) : List Byte := slice b 32 16
def hMapHash (b : List Byte) : List Byte := slice b 48 48

/-- The header is well formed (R459). -/
def headerOk (b : List Byte) : Bool :=
  leAt b 0 4 == magicImage && leAt b 4 2 == 1 && decide (hScope b ≤ 2) &&
    decide (if hScope b = 1 then hPart b < 4 else hPart b = 0) && decide (1 ≤ hNsec b ∧ hNsec b ≤ 64) &&
    decide (hTotal b % 64 = 0 ∧ 384 + 64 * hNsec b ≤ hTotal b) && zeros b 120 4 &&
    leAt b 124 4 == (crc32c (slice b 0 124 ++ padTo 4 [])).toNat

/-- A section-table entry (R460). -/
structure SecEntry where
  type   : Nat
  flags  : Nat
  part   : Nat
  rsvd   : Nat
  off    : Nat
  len    : Nat
  plain  : Nat
  hash   : List Byte
  deriving DecidableEq, Repr

/-- Section-table entry `k`. -/
def secEntry (b : List Byte) (k : Nat) : SecEntry :=
  let e := slice b (128 + 64 * k) 64
  ⟨leAt e 0 1, leAt e 1 1, leAt e 2 1, leAt e 3 1, leAt e 4 4, leAt e 8 4, leAt e 12 4, slice e 16 48⟩

def secEntries (b : List Byte) : List SecEntry := (List.range (hNsec b)).map (secEntry b)

def SecEntry.enc (e : SecEntry) : Bool := e.flags == 1

/-- The entry keeps R460 and the rules of its type (R461). -/
def SecEntry.ok (e : SecEntry) (b : List Byte) : Bool :=
  decide (e.flags ≤ 1) && e.rsvd == 0 && (decide (e.part ≤ 3) || e.part == 0xFF) && e.len == e.plain + (if e.enc then 16 else 0) &&
  match e.type with
  | 1 => hScope b == 0 && e.part == 0xFF && !e.enc && e.plain == 5188 && e.hash == hMapHash b
  | 2 => hScope b == 0 || (hScope b == 1 && e.part == hPart b)
  | 3 => !e.enc && e.plain == 136
  | 4 => true
  | 5 => hScope b == 2
  | _ => false

/-- The sections lie at ascending offsets that are multiples of 64, apart, with zeros between (R458). -/
def sectionsOk (b : List Byte) (at_ : Nat) : List SecEntry → Bool
  | [] => decide (at_ ≤ hTotal b - 256) && zeros b at_ (hTotal b - 256 - at_)
  | e :: r => decide (e.off % 64 = 0 ∧ at_ ≤ e.off ∧ e.off + e.len ≤ hTotal b - 256) && zeros b at_ (e.off - at_) &&
      sectionsOk b (e.off + e.len) r

/-- How many entries have a type. -/
def typeCount (l : List SecEntry) (t : Nat) : Nat := (l.filter (fun e => e.type == t)).length

/-- The table keeps R458 to R461, and bytes 200 to 255 of the signature block are zero (R462). -/
def tableOk (b : List Byte) : Bool :=
  let l := secEntries b
  l.all (fun e => e.ok b) && sectionsOk b (128 + 64 * hNsec b) l && decide (typeCount l 3 ≤ 1) &&
    (!l.any SecEntry.enc || typeCount l 3 == 1) && (hScope b != 0 || typeCount l 1 == 1) &&
    (hScope b != 2 || typeCount l 5 == 1) && zeros b (hTotal b - 56) 56

/-- The stored bytes of a section. -/
def stored_ (b : List Byte) (e : SecEntry) : List Byte := slice b e.off e.len

/-- The 48 output bytes of SHA-384 over some bytes (R182's hash). -/
def sha (l : List Byte) : List Byte := State.hashBytes (Config.sha384 l)

/-- PUBKEY, the signed bytes and the signature of a container (R462). -/
def pubKey (b : List Byte) : List Byte := slice b (hTotal b - 248) 96
def signedBytes (b : List Byte) : List Byte := slice b 0 (128 + 64 * hNsec b)
def signature (b : List Byte) : List Byte := slice b (hTotal b - 152) 96

/-! ## Records (R464) -/

/-- A number rounded up to a multiple of 8. -/
def up8 (n : Nat) : Nat := ceilDiv n 8 * 8

/-- The records of a CONFIG plaintext, none where they do not fill it exactly. -/
def parseRecs : Nat → List Byte → Option (List CfgRec)
  | _, [] => some []
  | 0, _ => none
  | n + 1, b =>
    let len := leAt b 4 4
    if b.length < 8 + up8 len then none
    else (parseRecs n (b.drop (8 + up8 len))).map (fun l => ⟨leAt b 0 2, leAt b 2 2, slice b 8 len⟩ :: l)

/-- The records of a section. -/
def Section_.recs (x : Section_) : Option (List CfgRec) := if x.type = 2 then parseRecs x.plain.length x.plain else some []

/-- The bytes a record takes in a retained copy (R471): engine code and DRAM records are left out. -/
def CfgRec.keptLen (r : CfgRec) : Nat :=
  match r.kind with
  | 2 => 8 + up8 (r.body.length - leAt r.body 8 4)
  | 4 => 0
  | _ => 8 + up8 r.body.length

/-- A record as a retained copy holds it. -/
def CfgRec.keptForm (r : CfgRec) : Option CfgRec :=
  match r.kind with
  | 2 => some { r with body := r.body.take 16 ++ r.body.drop (16 + leAt r.body 8 4) }
  | 4 => none
  | _ => some r

/-- The outcome of the checks of R467 up to decryption. -/
inductive Verdict where
  | good (i : Image)
  | fail (status step : Nat)
  | auth (stage : Nat)
  | notYet
  deriving DecidableEq, Repr

namespace State

/-! ## Keys (R463, R466) -/

/-- A provisioning record is in force: its POLICY and the maker's key. -/
def policy (s : State) (i : Nat) : Bool := match s.sc.prov with | some r => (leAt r 7 1).testBit i | none => false

/-- The key is Thrumdal's. -/
def thrumdal (s : State) (key : List Byte) : Bool := Config.sha384 key == s.sc.fuse.imgHash

/-- The key is the maker's; a record without a maker's key has none. -/
def maker (s : State) (key : List Byte) : Bool :=
  match s.sc.prov with | some r => slice r 192 96 == key && !zeros r 192 96 | none => false

/-- A key is accepted for images (R466). A first POLICY comes into force at the next PORST_N (R484); BLANK's row holds until then. -/
def keyAccepted (s : State) (key : List Byte) : Bool :=
  if (s.sc.fuse.lc = 1 ∨ s.sc.fuse.lc = 2) ∧ s.sc.lcAt ≠ 0 then (s.thrumdal key && s.policy 0) || (s.maker key && s.policy 1) else s.thrumdal key

/-- A section's plaintext (R463), none where the decryption fails. -/
def plainOf (s : State) (b : List Byte) (k : Nat) (e : SecEntry) : Option (List Byte) :=
  if !e.enc then some (stored_ b e)
  else match s.sealKey, (secEntries b).find? (fun x => x.type == 3) with
    | some gen, some kw => (Config.unwrapKey gen (stored_ b kw)).bind (fun key => Config.gcmOpen key k (slice b 0 128) (stored_ b e))
    | _, _ => none

/-- All sections decrypted, in table order; a KEYWRAP must unwrap where one is used. -/
def sections (s : State) (b : List Byte) : Option (List Section_) :=
  ((List.range (hNsec b)).mapM (fun k =>
    let e := secEntry b k
    (s.plainOf b k e).map (fun p => ⟨e.type, e.part, p, e.enc⟩)))

/-! ## The checks (R467) -/

/-- The checks from the signature to decryption, which images and firmware share. -/
def signedCheck (s : State) (b : List Byte) (firmware : Bool) : Verdict :=
  let key := pubKey b
  if slice b (hTotal b - 256) 8 ≠ (sha key).take 8 ∨ !(if firmware then s.thrumdal key else s.keyAccepted key) then .auth 0
  else if !Config.ecdsaVerify key (signedBytes b) (signature b) then .auth 1
  else if firmware ∧ hVersion b < s.sc.fuse.fwMin then .auth 2
  else if !zeros b 32 16 ∧ hDevice b ≠ padTo 16 s.sc.fuse.device then .auth 3
  else if !(secEntries b).all (fun e => sha (stored_ b e) == e.hash) then .auth 4
  else match s.sections b with
    | none => .auth 5
    | some secs =>
      if !firmware ∧ s.sc.fwVer < hMinFw b then .fail 2 3
      else .good ⟨hScope b == 0, Fin.ofNat 4 (hPart b), hVersion b, hMinor b, hMajor b, hMapHash b, secs⟩

/-- The staging bytes of a load (R469): the USE 3 banks it may use, less the retained copies. -/
def staging (s : State) (full : Bool) (p : Fin 4) : Nat :=
  let banks := (List.finRange 32).filter (fun (b : Fin 32) => s.bankUse b == 3 && (full || s.pmap.bank[b] == p))
  let ps := (List.finRange 4).filter (fun q => full || q == p)
  2097152 * banks.length - (ps.map (fun q => ((s.sc.kept[q]).map CfgRec.keptLen).sum)).sum

/-- The checks of an image of `len` bytes for a load (R467). -/
def imageCheck (s : State) (l : Load) (b : List Byte) : Verdict :=
  if !headerOk b || hScope b != (if l.full then 0 else 1) || (!l.full && hPart b != l.part.val) || decide (l.len < hTotal b) ||
    !tableOk b then .fail 2 2
  else if s.staging l.full l.part < hTotal b then .fail 7 2
  else s.signedCheck b false

/-- The checks of firmware of at most `len` bytes (R467). -/
def firmwareCheck (s : State) (b : List Byte) : Verdict :=
  if !headerOk b || hScope b != 2 || decide (b.length < hTotal b) || !tableOk b then .fail 2 2 else s.signedCheck b true

/-- The bytes of a load's source: of host memory, once all that was asked for has come. -/
def loadBytes (s : State) (l : Load) : Option (List Byte) :=
  match l.src with
  | .flash => some (s.flashBytes l.addr l.len)
  | .scratch => some (s.scratchBytes s.owner l.addr l.len)
  | .host =>
    let got := (l.parts.foldr (insertBy (fun a b => decide (a.1 ≤ b.1))) []).flatMap (·.2)
    if got.length < l.len then none else some got

/-- The verdict over a load's bytes. -/
def loadCheck (s : State) (l : Load) : Verdict :=
  match s.loadBytes l with
  | none => .notYet
  | some b => s.imageCheck l b

end State
end Sys2Proof.Machine
end

