-- ==== Sys2Proof/Machine/Apply.lean ====
section
/-! DEFINITION. Applying an image: the partition map (R465), the records (R464, R471), their validation (R472), the floors of
the image (R489), and the end of a load (R470). -/

namespace Sys2Proof.Machine

open Bits

/-! ## The partition map (R465) -/

/-- One byte of a PMAP as a partition. -/
def pmPart (b : List Byte) (o : Nat) : Fin 4 := Fin.ofNat 4 (leAt b o 1)

/-- USE of a bank in a PMAP, and a queue's partition. -/
def pmUse (b : List Byte) (bank : Nat) : Nat := leAt b (496 + bank) 1 / 4 % 4
def pmQueue (b : List Byte) (q : Nat) : Nat := leAt b (576 + q / 4) 1 / 4 ^ (q % 4) % 4

/-- A partition's share in MiB and its pool in pages. -/
def pmBase (b : List Byte) (p : Nat) : Nat := leAt b (528 + 8 * p) 4
def pmLimit (b : List Byte) (p : Nat) : Nat := leAt b (532 + 8 * p) 4
def pmPool (b : List Byte) (p : Nat) : Nat := leAt b (560 + 2 * p) 2

/-- The handler-resident regions: kind, index, first and last slice. -/
def pmRegions (b : List Byte) : List (Nat × Nat × Nat × Nat) :=
  (List.range (min 64 (leAt b 4672 4))).map (fun i =>
    let o := 4676 + 8 * i
    (leAt b o 1, leAt b (o + 2) 2, leAt b (o + 4) 2, leAt b (o + 6) 2))

/-- The map of a PMAP; unassigned banks belong to the owner partition (R324). -/
def pmMap (b : List Byte) (owner : Fin 4) : PMap :=
  ⟨Vector.ofFn (fun i => pmPart b i), Vector.ofFn (fun i => pmPart b (16 + i)), Vector.ofFn (fun i => pmPart b (24 + i)),
    Vector.ofFn (fun i => pmPart b (88 + i)), Vector.ofFn (fun i => pmPart b (120 + i)), Vector.ofFn (fun i => pmPart b (152 + i)),
    Vector.ofFn (fun i => pmPart b (216 + i)), Vector.ofFn (fun i => pmPart b (232 + i)), Vector.ofFn (fun i => pmPart b (240 + i)),
    Vector.ofFn (fun i => if pmUse b i = 0 then owner else Fin.ofNat 4 (leAt b (496 + i) 1))⟩

/-- The records of an image that belong to a partition, those of the device-wide sections, and all of them. -/
def Image.recsOf (i : Image) (p : Nat) : List CfgRec := (i.secs.filter (fun x => x.part == p)).flatMap (fun x => (x.recs).getD [])
def Image.allRecs (i : Image) : List CfgRec := i.secs.flatMap (fun x => (x.recs).getD [])

/-- The PMAP plaintext of a FULL image. -/
def Image.pmap (i : Image) : List Byte := ((i.secs.find? (fun x => x.type == 1)).map (·.plain)).getD []

/-- The partitions an image covers. -/
def Image.covers (i : Image) : List (Fin 4) := if i.full then List.finRange 4 else [i.part]

/-- The shared object of R414 that a device-wide REG word writes, by its number. -/
def objectOf (a : Nat) : Option Nat :=
  if a = R.TB_REF_CTL ∨ a = R.TB_LOCK_CTL ∨ a = R.TB_DITHER_SEED then some 0
  else if a = R.TB_SG_FCW ∨ a = R.TB_SG_CTL then some 1
  else if a = R.TB_RAMP_CTL ∨ (List.range 64).any (fun k => a == R.TB_RAMP_DELTA k || a == R.TB_RAMP_DUR k) then some 2
  else if a = R.TB_SYNC_CTL then some 3
  else if (List.range 16).any (fun k => a == R.TRG_IO_CTL k) then some 4
  else if a = R.PG_BUDGET then some 5
  else none

/-- The generation register of a shared object. -/
def genReg (o : Nat) : Nat :=
  match o with | 0 => R.TB_PLL_GEN | 1 => R.TB_SG_GEN | 2 => R.TB_SG_GEN | 3 => R.TB_SYNC_GEN | 4 => R.TRG_IO_GEN | _ => R.PG_GEN

/-- A trial of step 5: the state so far, whether a check of R472 with status ARG or STATE has failed, and the engines loaded. -/
structure Trial where
  st     : State
  arg    : Bool := false
  state_ : Bool := false
  engs   : List Nat := []

/-- A check with status ARG. -/
def Trial.need (T : Trial) (ok : Bool) : Trial := if ok then T else { T with arg := true }

namespace State

/-! ## Records -/

/-- A write of the system controller while it applies an image (R471). -/
def scWrite (s : State) (off : Nat) (w : Word) : State := s.regWrite { m := .sc, off := off, data := w } 0

/-- What R472 says of one REG word, for a partition's section or a device-wide one: 0, 1 STATE, 2 ARG. -/
def wordStatus (s : State) (p : Option (Fin 4)) (off : Nat) (w : Word) : Nat :=
  let a := plainOff off
  match RegTable.find a with
  | none => 2
  | some (r, ix) =>
    let r := s.rowFor r ix (viewed (viewOf off) (s.rd a) w)
    let can := r.fields.foldl (fun m f => match f.acc with | .RW | .EG | .W1 => m ||| f.bits | _ => m) 0#32
    let mine := match p with
      | some p => (match r.own with | .dev | .mixed => false | o => s.partOf o (r.unit ix) == p) && !outsideImage a
      | none => (objectOf a).isSome
    let reach := s.reachMask .sc r ix
    let (new, eg, lk) := s.stored r ix a (viewOf off) reach w
    if can = 0#32 ∨ w &&& ~~~can ≠ 0#32 ∨ !mine then 2
    else if eg || lk then 1
    else if r.base = R.QM_DESC0 0 0 ∧ bit new 3 ∧ !bit (s.rd a) 3 ∧ ((s.wr a (setFld new 3 3 0)).qCause (r.unit ix)).isSome then 2
    else 0

/-- Put bytes into an array from a byte place on that is a multiple of 4. -/
def sramPut (s : State) (a : Nat) (l : List Byte) : State :=
  forAll (List.range (ceilDiv l.length 4)) s (fun i s =>
    let n := min 4 (l.length - 4 * i)
    let old := s.sramRd (a + 4 * i)
    s.sramWr (a + 4 * i) (setFld old (8 * n - 1) 0 (leAt l (4 * i) n)))

/-- An ENGINE record loads one member of its gang (R464): its code and data, zeros behind them, and READY. -/
def engLoad (s : State) (e : Fin 256) (log k : Nat) (body : List Byte) (enc : Bool) : State :=
  let code := leAt body 8 4
  let s := s.setArr 1 e (fun A => { A with dia := false, wakeAt := none })
  let s := (s.sramZero (sramAt 1 e 0) 131072).sramPut (sramAt 1 e 0) (body.drop 16)
  let s := s.wr (engReg R.ME_STATUS e) (word (k * 1048576 + log * 131072))
  let s := (s.wr (engReg R.ME_ENTRY e) (word (leAt body 4 4))).wr (engReg R.ME_CODE e) (word (min 0x1FFFF code))
  s.setEng e (fun _ => { ({} : EngSt) with st := 1, prot := enc })

/-- A REG record (R464): its words go to consecutive registers. -/
def recReg (T : Trial) (p : Option (Fin 4)) (r : CfgRec) : Trial :=
  let off := leAt r.body 0 4
  let n := (r.body.length - 4) / 4
  let T := T.need (r.index == 0 && decide (1 ≤ n) && r.body.length % 4 == 0)
  forAll (List.range n) T (fun i T =>
    let a := off + 4 * i
    let w := word (leAt r.body (4 + 4 * i) 4)
    match T.st.wordStatus p a w with
    | 0 => { T with st := T.st.scWrite a w }
    | 1 => { T with state_ := true, st := T.st.scWrite a w }
    | _ => { T with arg := true })

/-- One record of a section of partition `p` (R464, R471, R472). -/
def recApply (p : Fin 4) (enc : Bool) (T : Trial) (r : CfgRec) : Trial :=
  let b := r.body
  match r.kind with
  | 1 => recReg T (some p) r
  | 2 =>
    let log := leAt b 0 1
    let n := 2 ^ log
    let code := leAt b 8 4
    let len := leAt b 12 4
    let es := (List.range n).map (fun k => r.index + k)
    let ok := decide (log ≤ 4) && zeros b 1 3 && decide (b.length = 16 + code + len) && code % 4 == 0 && leAt b 4 4 % 4 == 0 &&
      r.index % n == 0 && decide (r.index + n ≤ 256) && es.all (fun e => T.st.pmap.me[Fin.ofNat 256 e] == p && !T.engs.contains e) &&
      decide (leAt b 4 4 < code ∧ code + len ≤ (if n = 1 then 131072 else 65536))
    if ok then
      { T with
        engs := T.engs ++ es,
        st := forAll (List.range n) T.st (fun k s => s.engLoad (Fin.ofNat 256 (r.index + k)) log k b enc) }
    else { T with arg := true }
  | 3 =>
    let o := leAt b 0 4
    let ok := decide (4 ≤ b.length ∧ r.index < 8 ∧ o % 4 = 0 ∧ o + (b.length - 4) ≤ 196608) && T.st.pmap.sg[Fin.ofNat 8 r.index] == p
    if ok then { T with st := T.st.sramPut (sramAt 3 r.index o) (b.drop 4) } else { T with arg := true }
  | 4 =>
    let a := leAt b 0 8
    let ok := decide (8 ≤ b.length ∧ a % 64 = 0 ∧ b.length % 64 = 8 ∧ r.index = p.val) && T.st.inShare p a (b.length - 8)
    if ok then { T with st := (T.st.memPut a (b.drop 8)).healUnits a (b.length - 8) } else { T with arg := true }
  | 5 => T.need (decide (r.index < 14 ∧ b.length = 8))
  | _ => { T with arg := true }

/-- One section in table order. A section that its records do not fill exactly fails with ARG. -/
def secApply (T : Trial) (x : Section_) : Trial :=
  match x.recs with
  | none => { T with arg := true }
  | some l =>
    if x.type ≠ 2 ∨ x.part = 0xFF then T
    else l.foldl (fun T r => recApply (Fin.ofNat 4 x.part) x.enc T r) T

/-- A device-wide section: its REG records (R471 step 3). -/
def devApply (T : Trial) (x : Section_) : Trial :=
  if x.type ≠ 2 ∨ x.part ≠ 0xFF then T
  else match x.recs with
    | none => { T with arg := true }
    | some l => (l.filter (fun r => r.kind == 1)).foldl (fun T r => recReg T none r) T

/-- A shared object that the device-wide section has written takes its new settings, and its generation moves on once. -/
def objApply (s : State) (o : Nat) : State :=
  let gen := s.f (genReg o) 15 0
  let t := match o with
    | 0 => s.tbApply R.TB_APPLY gen
    | 1 => s.sgApply R.TB_SG_APPLY gen
    | 4 => s.ioApply .sc R.TRG_IO_APPLY gen
    | 5 => s.pgApply s.owner R.PG_APPLY gen
    | _ => s
  if t.f (genReg o) 15 0 = gen then s.wrF (genReg o) 15 0 (gen + 1) else t

/-- The objects that the device-wide sections of an image write. -/
def devObjects (i : Image) : List Nat :=
  let offs := ((i.recsOf 0xFF).filter (fun r => r.kind == 1)).flatMap (fun r =>
    (List.range ((r.body.length - 4) / 4)).map (fun k => plainOff (leAt r.body 0 4 + 4 * k)))
  (offs.filterMap objectOf).eraseDups.foldr (insertBy (fun a b => decide (a ≤ b))) []

/-- The map takes effect (R471 step 2). -/
def mapApply (s : State) (b : List Byte) : State :=
  let s := { s with
    pmap := pmMap b s.owner,
    resident := (pmRegions b).flatMap (fun r =>
      (List.range (r.2.2.2 + 1 - r.2.2.1)).map (fun k => (if r.1 = 0 then 1 else 0, r.2.1, r.2.2.1 + k))) }
  let s := forAll (List.finRange 32) s (fun k s => s.wr (R.SB_MAP k) (word (4 * pmUse b k + s.pmap.bank[k].val)))
  let s := forAll (List.finRange 4) s (fun p s =>
    ((s.wr (R.DC_PART_BASE p) (word (pmBase b p))).wr (R.DC_PART_LIMIT p) (word (pmLimit b p))).wr (R.QM_POOL p)
      (word (65537 * pmPool b p)))
  forAll (List.range 16384) s (fun q s => if s.f (qd q 0) 5 4 = pmQueue b q then s else s.wrF (qd q 0) 5 4 (pmQueue b q))

/-- Step 5 on a state (R471): covered resources reset, the map, the device-wide records, the sections in table order. -/
def stepFive (s : State) (i : Image) : Trial :=
  let s := forAll i.covers s (fun p s => s.resetPart p true)
  let s := if i.full then s.mapApply i.pmap else s
  let T := i.secs.foldl devApply { st := s }
  let T := { T with st := forAll (devObjects i) T.st (fun o s => s.objApply o) }
  i.secs.foldl secApply T

/-! ## Validation (R472) -/

/-- A partition has its port (R390). -/
def hasPort (s : State) (p : Nat) : Bool := decide (p < 4) && s.present (Fin.ofNat 4 p)

/-- The power that FLOOR records declare. -/
def floorPower (l : List CfgRec) : Nat := ((l.filter (fun r => r.kind == 5)).map (fun r => leAt r.body 4 4)).sum

/-- The checks of the map with status RESOURCE. -/
def mapShort (s : State) (b : List Byte) : Bool :=
  let banks (p u : Nat) : Nat := ((List.range 32).filter (fun k => leAt b (496 + k) 1 % 4 == p && pmUse b k == u)).length
  !(List.range 496).all (fun o => s.hasPort (leAt b o 1)) ||
  !(List.range 16384).all (fun q => s.hasPort (pmQueue b q)) ||
  (List.range 32).any (fun k => pmUse b k != 0 && (!s.hasPort (leAt b (496 + k) 1 % 4) || s.arrOut 0 k)) ||
  (List.range 16).any (fun g => s.arrOut 2 g) || (List.range 8).any (fun g => s.arrOut 3 g) ||
  (List.range 4).any (fun p =>
    if s.hasPort p then banks p 1 == 0 || decide (2048 * banks p 1 - 64 < pmPool b p)
    else decide (pmBase b p < pmLimit b p) || pmPool b p != 0) ||
  (List.range 4).any (fun p => decide (pmBase b p < pmLimit b p ∧ s.dcCap < pmLimit b p * 1048576) ||
    (List.range p).any (fun q => decide (pmBase b p < pmLimit b p ∧ pmBase b q < pmLimit b q) &&
      overlap (pmBase b p) (pmLimit b p - pmBase b p) (pmBase b q) (pmLimit b q - pmBase b q)))

/-- The checks of the records with status RESOURCE: retained copies, floors, scratchpads out of service. -/
def recsShort (s : State) (i : Image) : Bool :=
  let banks (p : Fin 4) : Nat := ((List.range 32).filter (fun k =>
    if i.full then leAt i.pmap (496 + k) 1 % 4 == p.val && pmUse i.pmap k == 3
    else s.pmap.bank[Fin.ofNat 32 k] == p && s.bankUse k == 3)).length
  let others := (List.finRange 4).filter (fun q => !i.covers.contains q)
  i.covers.any (fun p => decide (2097152 * banks p < ((i.recsOf p).map CfgRec.keptLen).sum)) ||
  decide (s.pwr.budget < floorPower i.allRecs + (others.map (fun q => floorPower s.sc.kept[q])).sum) ||
  i.allRecs.any (fun r => r.kind == 2 && (List.range (2 ^ min 4 (leAt r.body 0 1))).any (fun k => s.arrOut 1 (r.index + k)))

/-- The checks of the map with status ARG: handler-resident regions. -/
def mapWrong (b : List Byte) (i : Image) : Bool :=
  let code (e : Nat) : Nat := (i.allRecs.find? (fun r => r.kind == 2 && decide (r.index ≤ e ∧ e < r.index + 2 ^ min 4 (leAt r.body 0 1)))).elim 0
    (fun r => leAt r.body 8 4)
  decide (64 < leAt b 4672 4) || (pmRegions b).any (fun r =>
    let (kind, k, a, z) := r
    match kind with
    | 0 => decide (256 ≤ k ∨ 32 ≤ z ∨ z < a ∨ 4096 * a < code k)
    | 1 => decide (32 ≤ k ∨ 512 ≤ z ∨ z < a)
    | _ => true)

/-- The status that step 4 gives (R472): 0 when the image may be applied. -/
def validate (s : State) (i : Image) : Nat :=
  let T := s.stepFive i
  if (i.full && s.mapShort i.pmap) || s.recsShort i then 7
  else if (i.full && mapWrong i.pmap i) || (!i.full && (!s.sc.loaded || i.mapHash != sha s.sc.pmap)) || T.arg then 2
  else if T.state_ then 1
  else 0

/-! ## Floors (R489) -/

/-- The FLOOR records in force for a class. -/
def floors (s : State) (c : Nat) : List CfgRec :=
  ((List.finRange 4).flatMap (fun p => s.sc.kept[p])).filter (fun r => r.kind == 5 && r.index == c)

/-- The floors of the loaded partitions come into force. -/
def floorApply (s : State) : State :=
  let s := forAll (List.range 14) s (fun c s =>
    let l := s.floors c
    let f := if !throttled c then 0 else if l.isEmpty then 16 else (l.map (fun r => min 1024 (leAt r.body 0 4))).foldl max 0
    let w := min 65535 ((l.map (fun r => leAt r.body 4 4)).foldl max 0)
    (s.wrF (R.PG_CLASS c) 10 0 f).wrF (R.PG_CLASS_DRAW c) 31 16 w)
  let s := s.wrF R.PG_DRAW 31 16 (min 65535 ((List.range 14).map (fun c => s.f (R.PG_CLASS_DRAW c) 31 16)).sum)
  s.setX s.pwr.x

/-! ## The end of a load (R470 step 6) -/

/-- The retained copies of an image's partitions (R471). -/
def keepCopies (s : State) (i : Image) : State :=
  forAll i.covers s (fun p s => s.setSc (fun c => { c with
    kept := c.kept.set p ((i.recsOf p).filterMap CfgRec.keptForm),
    imgVer := c.imgVer.set p i.version, ifVer := c.ifVer.set p (256 * i.major + i.minor) }))

/-- Step 5 and step 6: the image is in force. -/
def applyImage (s : State) (l : Load) (i : Image) : State :=
  let d := match l.by_ with | .cmd q => if s.cmdRuns q 4 then s.cmdHead q else none | _ => none
  let s := (s.stepFive i).st
  let s := forAll i.covers s (fun p s => s.detach p)
  let s := s.keepCopies i
  let s := if i.full then
      let s := s.wrF R.HP_IFVER 15 0 (256 * i.major + i.minor)
      s.setSc (fun c => { c with loaded := true, pmap := i.pmap })
    else s
  let s := forAll (List.range 32) s (fun b s => if s.bankUse b = 0 then s.setArr 0 b (fun A => { A with dia := true, wakeAt := none }) else s)
  let s := s.setSc (fun c => { c with load := none, img := i.covers.foldl (fun (v : Vector Nat 4) (p : Fin 4) => v.set p 2) c.img })
  let s := ({ s with loading := false }).floorApply
  let s := s.scEvents i.covers 1 [(1, if i.full then 0 else 1), (8, i.version)]
  let s := match l.by_, d with
    | .cmd q, some d => s.cplKeep q d 0 (stamp i.version)
    | .mail p, _ => s.mailDone (Fin.ofNat 4 p) 0 i.version
    | _, _ => s
  if i.full && (s.phase == 4 || s.phase == 12) then s.startupEnd 5 else s

end State
end Sys2Proof.Machine
end

