-- ==== Sys2Proof/Machine/Boot.lean ====
section
/-! DEFINITION. PORST_N, PERST# and start-up (R409, R410, R475 to R477), the provisioning record (R480, R481), the staging and
the end of loads, PLL locks and trainings with what start-up makes of them, tamper sources and the end of a Cocoon wipe. -/

namespace Sys2Proof.Machine

open Bits

/-- A load of start-up. -/
def LoadBy.isStart (b : LoadBy) : Bool := match b with | .start _ => true | _ => false

namespace State

/-! ## PERST# (R391, R410, R473) -/

/-- Replay of a partition's retained copy (R471): REG and SGLOCAL records act again; ENGINE records find their code in place. -/
def replay (s : State) (p : Fin 4) : State :=
  ((s.sc.kept[p]).foldl (fun T r =>
    match r.kind with | 1 => recReg T (some p) r | 3 => recApply p false T r | _ => T) ({ st := s } : Trial)).st

/-- A load that the partition asked for is abandoned (R473): before step 5 the previous image stays; after it the covered
partitions have no image, and after a full load there is none at all. -/
def loadAbandon (s : State) (p : Fin 4) : State :=
  match s.sc.load with
  | none => s
  | some l =>
    if s.issuer l ≠ p ∨ l.by_.isStart then s
    else
      let s := { (s.setSc (fun c => { c with load := none, img := l.prev, mail := c.mail.set p none })) with loading := false }
      if l.image.isNone then s
      else
        let ps := covered l
        let s := forAll ps s (fun q s => (s.resetPart q true).detach q)
        let s := s.setSc (fun c => { c with
          img := ps.foldl (fun (v : Vector Nat 4) (q : Fin 4) => v.set q 0) c.img,
          ifVer := ps.foldl (fun (v : Vector Nat 4) (q : Fin 4) => v.set q 0) c.ifVer,
          imgVer := ps.foldl (fun (v : Vector Nat 4) (q : Fin 4) => v.set q 0) c.imgVer,
          kept := ps.foldl (fun (v : Vector (List CfgRec) 4) (q : Fin 4) => v.set q []) c.kept })
        if l.full then ({ (s.wrF R.HP_IFVER 15 0 0).noImageLayout with phase := 12 }).floorApply else s.floorApply

/-- The port returns to its reset state, with what its host has under way (R410); what its reads have latched stays until
PORST_N (R439). -/
def portReset (s : State) (p : Fin 4) : State :=
  let s := s.setPort p (fun _ => {})
  { s with asleep := s.asleep.filter (fun c => c.m != .hp p), winWait := s.winWait.filter (fun w => w.port != p.val) }

/-- PERST# of a port takes effect (R410): the port and its partition are reset, the others are told, and the partition returns
to what its image declares. -/
def perstNow (s : State) (p : Fin 4) : State :=
  let s := (s.loadAbandon p).mtAbort p
  let s := ((s.resetPart p false).detach p).portReset p
  let s := s.setSc (fun c => { c with mail := c.mail.set p none })
  let r := evRecord s.now 0x01 8 p []
  let s := forAll ((List.finRange 4).filter (fun q => q != p && s.present q)) s (fun q s => (s.bump (R.HP_EVT_CNT q 8)).pushEv q r)
  s.replay p

/-- PERST# is released (R391). -/
def perstRelease (s : State) (p : Fin 4) : State :=
  if s.sc.perst.any (fun e => e.1 == p) then
    s.setSc (fun c => { c with perst := c.perst.map (fun (e : Fin 4 × Bool) => if e.1 = p then (p, true) else e) })
  else if s.present p then s.setPort p (fun P => { P with perst := false })
  else s

/-- PERST# is asserted (R410, R473): during a full load of another issuer it waits for the load's end. -/
def perstAssert (s : State) (p : Fin 4) : State :=
  if !s.present p || s.port[p].perst then s
  else match s.sc.load with
    | some l =>
      let own := s.issuer l == p && !l.by_.isStart
      if l.full && !own then
        s.setSc (fun c => { c with perst := c.perst.filter (fun e => e.1 != p) ++ [(p, false)] })
      else s.perstNow p
    | none => s.perstNow p

/-- The PERST#s that waited for a load take effect once none runs (R473). -/
def perstWaiting (s : State) : State :=
  if s.sc.load.isSome then s
  else
    let l := s.sc.perst
    let s := s.setSc (fun c => { c with perst := [] })
    forAll l s (fun e s => let s := s.perstNow e.1; if e.2 then s.perstRelease e.1 else s)

/-! ## Staging and the end of a load (R467, R470) -/

/-- Who an AUTH failure names as its source (R486). -/
def authSource (l : Load) : Nat :=
  match l.by_, l.src with
  | .start _, _ => 0
  | .mail _, _ => 3
  | _, .host => 2
  | _, _ => 1

/-- The image has been staged: it is checked and validated, or the load fails (R467, R470, R472). It waits for host scratch that sleeps or is
under test (R337, R344, R345), and for the end of a wipe where it needs a key (R353). -/
def imageStaged (s : State) (flashFail : Bool) : State :=
  match s.sc.load with
  | none => s
  | some l =>
    if l.image.isSome then s
    else if flashFail && l.src == .flash then s.loadFail 8 2
    else
    let reach := match l.src with | .scratch => s.scratchReach s.owner l.addr l.len | _ => (true, s)
    if !reach.1 then reach.2
    else
    let s := match l.src with | .scratch => (reach.2.scratchRead s.owner l.addr l.len 0).2 | _ => s
    if s.cocoon.wiping && s.loadCheck l == .auth 5 then s
    else match s.loadCheck l with
      | .notYet => s
      | .fail status step => (if step = 3 then s.authOk else s).loadFail status step
      | .auth stage =>
        let hold := (s.setSc (fun c => { c with load := none })).authFail (s.issuer l) (authSource l) stage
        (hold.setSc (fun c => { c with load := some l })).loadFail 9 3
      | .good i =>
        let s := s.authOk
        match s.validate i with
        | 0 =>
          let s := match l.by_ with | .start _ => s.scNote 2 | _ => s
          (s.setSc (fun c => { c with load := some { l with image := some i } })).startCheck
        | st => s.loadFail st 4

/-- The records are applied and the load ends (R470 steps 5 and 6). -/
def loadEnd (s : State) : State :=
  match s.sc.load with
  | some l =>
    match l.image with
    | some i =>
      let start := l.by_.isStart
      if start ∧ s.phase ≠ 4 then s
      else
        let s := if start then s.scNote 1 else s
        s.applyImage l i
    | none => s
  | none => s

/-! ## Provisioning (R480, R481) -/

/-- A provisioning record is valid on this device (R480, R481). -/
def provValid (s : State) (r : List Byte) : Bool :=
  leAt r 0 4 == magicProv && leAt r 4 2 == 1 && slice r 16 16 == padTo 16 s.sc.fuse.device &&
    (slice r 928 96 == leBytes 96 (Config.attestSign (slice r 0 928)).toNat || Config.attestVerify (slice r 0 928) (slice r 928 96))

/-- The record of the PROV slots with the highest RECORD_SEQ among the valid ones. -/
def provRecord (s : State) : Option (List Byte) :=
  (((s.slots 2).take 2).map (fun e => s.flashBytes e.1 1024)).foldl (fun best r =>
    if !s.provValid r then best
    else match best with
      | some b => if leAt b 32 4 < leAt r 32 4 then some r else best
      | none => some r) none

/-- Keys are restored into the Cocoon (R481): their generation is the record's RECORD_SEQ. -/
def restoreKeys (s : State) (r : List Byte) : State :=
  if s.sc.tampered then s else { s.qSealSync with sealKey := some (leAt r 32 4) }

/-- The values of a provisioning record come into force (R357, R414, R480, R490). -/
def provApply (s : State) (r : List Byte) : State :=
  let o : Fin 4 := Fin.ofNat 4 (leAt r 6 1)
  let s := if leAt r 6 1 < 4 ∧ s.present o then { s with owner := o } else s
  let s := s.wrF R.HP_CFG 9 8 s.owner
  let b := min 8500 (max 3000 (leAt r 36 4))
  let s := (s.wr R.PG_BUDGET (word b)).setPwr (fun w => { w with budget := b })
  let s := s.wr R.DC_CFG (word (leAt r 40 4))
  let s := forAll (List.range 16) s (fun c s =>
    let s := ((s.wr (R.DC_TIM0 c) (word (leAt r 44 4))).wr (R.DC_TIM1 c) (word (leAt r 48 4))).wr (R.DC_TIM2 c) (word (leAt r 52 4))
    (s.wr (R.DC_SWZ c 0) (word (leAt r (64 + 8 * c) 4))).wr (R.DC_SWZ c 1) (word (leAt r (68 + 8 * c) 4)))
  let s := forAll (List.range 4) s (fun q s => s.wrF (R.TB_DPLL_CTL q) 1 0 (leAt r 56 1 / 4 ^ q % 4))
  s.setSc (fun c => { c with prov := some r })

/-! ## Start-up (R475 to R477) -/

/-- The base bit of each address mask for the fitted geometry (R360, R361). -/
def maskReset (s : State) : State :=
  let c := log2 s.nch
  forAll (List.range 8) s (fun i s =>
    s.wr (R.DC_XOR_MASK i) (word (2 ^ (if i < 4 then i else if i < 6 then 2 + c + (i - 4) else 4 + c + (i - 6)))))

/-- Step 5 of start-up: the provisioning record, keys, the PCIe identity, training and calibration (R475). -/
def bringup (s : State) : State :=
  let kept := s.sc.fuse.lc = 1 ∨ s.sc.fuse.lc = 2
  let s := match s.provRecord with
    | some r => if kept then (s.provApply r).restoreKeys r else s
    | none => s.scNote 1
  let s := (s.maskReset.noImageLayout).floorApply
  let s := forAll s.fitted s.remap (fun c s => (s.wrF (R.DC_CTL c) 0 0 1).startTrain c)
  let s := forAll (List.finRange 16) s (fun g s => s.setGrp g (fun G => { G with calAt := some s.tb.count }))
  let s := ({ s with phase := 3 }).scNote 3
  if s.sc.marched then s.startLoad 0 else s

/-- Firmware of a version starts (R475 steps 4 and 5). -/
def firmwareStart (s : State) (version : Nat) : State :=
  let s := s.authOk.setSc (fun c => { c with fwVer := version })
  let s := ({ s with phase := 2 }).scEvents (List.finRange 4) 0 [(8, version)]
  s.bringup

/-- No firmware authenticates (R477): RECOVERY, with the fused identity and P0 as owner. -/
def recovery (s : State) : State := ((({ s with owner := 0 }).wrF R.HP_CFG 9 8 0).noImageLayout).startupEnd 14

/-- The firmware slots are tried in directory order (R457, R466 to R468). -/
def firmwareSlots (s : State) : List (Nat × Nat) → State
  | [] => s.recovery
  | (a, n) :: r =>
    match s.firmwareCheck (s.flashBytes a n) with
    | .good i => s.firmwareStart i.version
    | .auth stage => firmwareSlots ((s.scNote 1).authFail s.owner 4 stage) r
    | _ => firmwareSlots (s.scNote 1) r

/-- The boot ROM's step 3: the tamper detectors are armed (R527), the directory is read, firmware is tried (R475). -/
def romBoot (s : State) : State :=
  if s.phase = 1 ∧ !s.cocoon.wiping then
    let s := if s.sc.tamperIn ∧ !s.sc.tampered then s.tamper 0 else s
    let s := s.scNote (2 - ((s.dirAt 0).toList.length + (s.dirAt 0x1000).toList.length))
    s.firmwareSlots (s.slots 1)
  else s

/-- The start-up march has ended (R340): arrays are repaired or out of service, and hold their reset contents. By then the system
controller's wipe-and-verify of the Cocoon has ended too; a Cocoon array that its spares cannot mend fails the verify (R354; log entry 155). -/
def marchDone (s : State) (fails : List (Nat × Nat × Nat)) : State :=
  if s.sc.marched ∨ s.phase = 0 ∨ s.phase = 15 then s
  else
    let s := forAll (fails.filter (fun e => arrExists e.1 e.2.1)) s (fun e s => s.repairAt e.1 e.2.1 e.2.2)
    let s := ({ s with sram := [], sramBad := [] }).setSc (fun c => { c with marched := true })
    let s := s.scNote 1
    let s := if s.phase = 3 then s.startLoad 0 else s
    if (List.range 16).any (fun i => s.arrOut 4 i) then ({ s with cocoon := { s.cocoon with verifyFail := true } }).fatal 0xF1 0 else s

/-- The zeroing of acquisition memory has ended (R538). -/
def zeroingDone (s : State) : State :=
  if s.phase = 3 ∧ !s.sc.zeroed ∧ s.fitted.all (fun c => s.dc[c].st == .active) then
    ((({ s with mem := [], bad := [] }).setSc (fun c => { c with zeroed := true })).scNote 1).startCheck
  else s

/-- A channel has failed its training at start-up (R477): no image is loaded. -/
def dramFail (s : State) : State :=
  if s.phase = 3 then
    let s := match s.sc.load with
      | some l => { (s.setSc (fun c => { c with load := none, img := l.prev })) with loading := false }
      | none => s
    s.startupEnd 13
  else s

/-- A training has ended: the quadrant may be back, and what waited for the channel is served (R76, R365). -/
def trained (s : State) (c : Fin 16) : State := (s.quadBack (quadOf c)).serveAll 0

/-- The reset of the whole device (R409). What lies outside it stays: the boot flash, the fuses, the levels at its pins, the
cells of acquisition memory, and the queue of commands. -/
def porst (s : State) : State :=
  { State.reset with
    fixed := s.fixed, free := s.free, pending := s.pending, mem := s.mem,
    ch := Vector.ofFn (fun (c : Fin 128) => { ({} : ChSt) with vp := s.ch[c].vp, vn := s.ch[c].vn }),
    trg := { ({} : TrgSt) with ball := s.trg.ball },
    sc := { ({} : ScSt) with
      fuse := s.sc.fuse, flash := s.sc.flash, flashLen := s.sc.flashLen, tamperIn := s.sc.tamperIn, lcAt := s.sc.fuse.lc } }

/-- The bits of a register that are fused (R442). -/
def fusedBits (a : Nat) : Word :=
  match RegTable.find a with
  | some (r, _) => r.fields.foldl (fun w f => match f.rst with | .fused => w ||| f.bits | _ => w) 0#32
  | none => 0#32

/-- PORST_N is released (R44, R389, R475 step 1): straps and fuses, and the boot ROM starts. -/
def porstRelease (s : State) (refsel portcfg : Fin 4) : State :=
  if s.phase ≠ 0 then s
  else
    let s := forAll s.fixed s (fun e s => s.wr e.1 (splice (fusedBits e.1) (s.rd e.1) e.2))
    let s := (s.wrF R.TB_REF_CTL 1 0 refsel).wrF R.HP_CFG 1 0 portcfg
    let n := match portcfg.val with | 1 => 2 | 2 => 4 | _ => 1
    let s := forAll (List.range n) s (fun p s => s.wrF (R.HP_STATUS p) 16 16 1)
    let s := s.setTb (fun t => { t with freq := refsel, monFreq := refsel, inForce := { t.inForce with refCtl := s.rd R.TB_REF_CTL } })
    ({ s with phase := 1 }).scNote 1

/-- A life-cycle transition ends with its wipe (R481, R484): keys are restored where the state restores them, and the command
completes with the new generation. -/
def lifeEnd (s : State) (cause : Nat) : State :=
  let s := if cause = 2 ∧ (s.sc.fuse.lc = 1 ∨ s.sc.fuse.lc = 2) then
      (match s.provRecord with | some r => s.restoreKeys r | none => s)
    else s
  forAll s.rings s (fun q s => s.cmdEnd q 0x0E 0 (stamp (s.f R.SC_LC 15 0)))

/-- The Cocoon's wipe and verify end (R353, R354): the cause is recorded, the wipe counted and told. -/
def wipeEnd (s : State) (verifyFail : Bool) : State :=
  if s.cocoon.wiping then
    let cause := s.cocoon.cause
    let s := { s with cocoon := { s.cocoon with wiping := false, verifyFail := s.cocoon.verifyFail || verifyFail } }
    let s := (s.wrF R.SB_COCOON_STATUS 9 8 cause).eventAll R.SB_COCOON_WIPES 0xE0 8 0 none [(1, cause), (1, b2n verifyFail)]
    if verifyFail then s.fatal 0xF1 0 else s.lifeEnd cause
  else s

/-- An access to an island has not completed in time (R437): it ends in a bus error, the island is failed, and so end the
accesses that wait for it. -/
def islandTimeout (s : State) (c : Part) : State :=
  match islandOf c.bar c.off with
  | none => s
  | some i =>
    if s.failed.contains i then s
    else
      let s := (({ s with resp := [], failed := insertBy (fun x y => x ≤ y) i s.failed }).busError c 4).fatal 0xF3 i
      s.serveAll 0

end State

/-! ## Steps -/

/-- PERST_ASSERT: PERST# of a port resets it and its partition (R410). -/
def execPerstAssert (p : Fin 4) (s : State) : Host.Outcome State Fault Refusal := .next (s.perstAssert p)

/-- PERST_RELEASE: PERST# is released, and link training starts (R391). -/
def execPerstRelease (p : Fin 4) (s : State) : Host.Outcome State Fault Refusal := .next (s.perstRelease p)

/-- PORST_ASSERT: PORST_N resets the whole device (R409). -/
def execPorstAssert (s : State) : Host.Outcome State Fault Refusal := .next s.porst

/-- PORST_RELEASE: PORST_N is released; the straps REFSEL and PORTCFG are sampled (R475 step 1). -/
def execPorstRelease (refsel portcfg : Fin 4) (s : State) : Host.Outcome State Fault Refusal := .next (s.porstRelease refsel portcfg)

/-- SC_FW_OK: the boot ROM authenticates firmware, and start-up goes on to BRINGUP, or to RECOVERY (R475, R477). -/
def execScFwOk (s : State) : Host.Outcome State Fault Refusal := .next s.romBoot

/-- STARTUP_MARCH_DONE: the start-up march ends; `fails` are its failing rows: memory, index, row (R340, R350, R351). -/
def execStartupMarchDone (fails : List (Nat × Nat × Nat)) (s : State) : Host.Outcome State Fault Refusal := .next (s.marchDone fails)

/-- STARTUP_ZEROING_DONE: the zeroing of all of DC_CAP ends (R538). -/
def execStartupZeroingDone (s : State) : Host.Outcome State Fault Refusal := .next s.zeroingDone

/-- IMAGE_STAGED: the image has been staged, checked and validated, or the load fails; `flashFail` says that a flash read failed
(R467, R470). -/
def execImageStaged (flashFail : Bool) (s : State) : Host.Outcome State Fault Refusal := .next (s.imageStaged flashFail).perstWaiting

/-- SC_IMG_LOADED: the image records are applied and the load completes (R470, R471). -/
def execScImgLoaded (s : State) : Host.Outcome State Fault Refusal := .next s.loadEnd.perstWaiting

/-- PLL_LOCK: a PLL declares lock (R48): 0 TBPLL or its spare, 1 to 4 a DPLL, 5 SGPLL. -/
def execPllLock (which : Fin 6) (s : State) : Host.Outcome State Fault Refusal :=
  if which.val = 0 then
    let t := s.tbpllLock
    .next (if !s.tb.ever ∧ t.tb.ever then (t.scNote 1).startCheck else t)
  else if which.val = 5 then .next s.sgpllLock
  else
    let q := Fin.ofNat 4 (which.val - 1)
    .next ((s.dpllLock q).quadBack q)

/-- FAST_RETRAIN_DONE: a fast retrain ends (R383). -/
def execFastRetrainDone (c : Fin 16) (ok : Bool) (s : State) : Host.Outcome State Fault Refusal :=
  match s.dc[c].st with
  | .retrain => .next ((s.fastDone c ok).trained c)
  | _ => .next s

/-- FULL_TRAINING_DONE: a full training ends with its delays, or fails at a step (R381). A failure at start-up is DRAM_FAIL
(R477); one of a training that a failed fast retrain led to is the fault DRAM_TRAIN (R502, R503). -/
def execFullTrainingDone (c : Fin 16) (fail : Option Nat) (wr rd ca : List Nat) (vref : Word) (s : State) :
    Host.Outcome State Fault Refusal :=
  match s.dc[c].st with
  | .training =>
    let dead := s.dc[c].fullFor && fail.isSome
    let s := (s.fullDone c fail wr rd ca vref).trained c
    let s := if fail.isSome then s.dramFail
      else if s.phase = 3 ∧ s.fitted.all (fun c => s.dc[c].st == .active) then s.scNote 1 else s
    .next (if dead then s.fatal 0xF4 0 else s)
  | _ => .next s

/-- SB_COCOON_WIPE: the Cocoon's wipe and verify end (R353, R354). While none is under way, `ecc` says that an uncorrectable word in the
Cocoon begins one. -/
def execSbCocoonWipe (ecc verifyFail : Bool) (s : State) : Host.Outcome State Fault Refusal :=
  .next (if s.cocoon.wiping then s.wipeEnd verifyFail else if ecc ∧ s.phase ≠ 0 then s.wipe 3 else s)

/-- TAMPER_PIN: TAMPER_N has been low for 1 µs, or is high again (R485, R487). -/
def execTamperPin (low : Bool) (s : State) : Host.Outcome State Fault Refusal :=
  let t := s.setSc (fun c => { c with tamperIn := low })
  .next (if low ∧ !s.sc.tamperIn ∧ s.phase ≠ 0 then t.tamper 0 else t)

/-- TAMPER_SUPPLY: a supply has left its tamper range for 50 ns (R485). -/
def execTamperSupply (s : State) : Host.Outcome State Fault Refusal := .next (if s.phase = 0 then s else s.tamper 1)

/-- TAMPER_CLOCK: two consecutive periods of a clock deviate by more than 25 % (R485). -/
def execTamperClock (s : State) : Host.Outcome State Fault Refusal := .next (if s.phase = 0 then s else s.tamper 2)

/-- LOCKSTEP_MISMATCH: the two system controller cores disagree (R478, R503). -/
def execLockstepMismatch (s : State) : Host.Outcome State Fault Refusal := .next (if s.phase = 0 then s else s.fatal 0xF0 0)

/-- ISLAND_HEARTBEAT_LOSS: a clocked island sends no heartbeat for 10 µs (R503). -/
def execIslandHeartbeatLoss (i : Fin 9) (s : State) : Host.Outcome State Fault Refusal :=
  .next (if s.phase = 0 then s else s.fatal 0xF3 i)

/-- ISLAND_TIMEOUT: an access of a master that entered an island's queue fails to complete in time (R437). -/
def execIslandTimeout (m : Master) (bar : Bar) (off : Nat) (data : Word) (read : Bool) (s : State) :
    Host.Outcome State Fault Refusal := .next (s.islandTimeout { m := m, bar := bar, off := off, data := data, read := read })

end Sys2Proof.Machine
end

