-- ==== Sys2Proof/Machine/Commands.lean ====
section
/-! DEFINITION. The commands of the CMD rings (R415, R416, R420 to R426) and the life-cycle actions (R483, R484). -/

namespace Sys2Proof.Machine

open Bits

namespace State

/-! ## When a command executes (R420, R423) -/

/-- The front command of a ring, when it waits to execute and has an opcode. -/
def cmdTake (s : State) (q op : Nat) : Option (List Byte) :=
  match s.cmdHead q with
  | some d => if s.qType q == 2 && !(s.ringSt q).busy && leAt d 0 1 == op then some d else none
  | none => none

/-- The tests that come before those of the command itself: a fault (R504), a load of the partition, attachment and image
(R416, R423). -/
def cmdGate (s : State) (p : Fin 4) (op : Nat) : Nat :=
  if s.phase = 15 ∧ op ≠ 0 ∧ op ≠ 3 then 8
  else if op = 0 then 0
  else if op ≠ 4 ∧ s.sc.img[p] = 1 then 1
  else if op = 1 ∨ op = 3 then 0
  else if !s.port[p].attached then 1
  else if op ≠ 4 ∧ s.sc.img[p] ≠ 2 then 1
  else 0

/-- The front command of a ring executes, if it has the opcode and is one that the step names. -/
def cmdRun (s : State) (q op : Nat) (named : List Byte → Bool) (run : Fin 4 → List Byte → State → State) : State :=
  match s.cmdTake q op with
  | none => s
  | some d =>
    if !named d then s
    else match s.cmdGate (s.qPart q) op with
      | 0 => run (s.qPart q) d s
      | st => s.cmdDone q st 0

/-- Every descriptor of an opcode. -/
def always (_ : List Byte) : Bool := true

/-! ## ATTACH, DETACH and DIGEST (R416, R426) -/

/-- A driver version is supported by an interface version (R416). -/
def versionOk (want have_ : Nat) : Bool := want / 256 == have_ / 256 && decide (want % 256 ≤ have_ % 256)

/-- ATTACH (R416): without a loaded image the interface version is 0.0 (R477). -/
def cmdAttach (q : Nat) (p : Fin 4) (d : List Byte) (s : State) : State :=
  let v := leAt d 16 2
  let iv := if s.sc.img[p] = 2 then s.sc.ifVer[p] else 0
  if versionOk v iv then
    let s := s.setPort p (fun P => { P with attached := true, version := v, driver := stamp (leAt d 24 8) })
    s.cmdDone q 0 (stamp (iv + 65536 * p.val + 262144 * b2n (p == s.owner) + 524288 * b2n s.port[p].fenced))
  else (s.hpEvent p 7 [(2, v)]).cmdDone q 4 0

/-- DETACH. -/
def cmdDetach (q : Nat) (p : Fin 4) (_ : List Byte) (s : State) : State :=
  (s.setPort p (fun P => { P with attached := false })).cmdDone q 0 0

/-- DIGEST (R426): it waits while the port may not issue, and a fence fails it. -/
def cmdDigest (q : Nat) (p : Fin 4) (d : List Byte) (s : State) : State :=
  let a := leAt d 16 8
  if s.sc.load.isSome then s.cmdDone q 1 0
  else if a % 64 ≠ 0 then s.cmdDone q 2 0
  else if s.port[p].fenced then s.cmdDone q 8 0
  else if !s.mayIssue p then s
  else
    let s := s.nextDseq p
    let n := s.port[p].dseq
    (s.post p (.digest q) a (s.digest p n)).cmdDone q 0 (stamp n)

/-! ## LOAD (R423, R470) -/

/-- Every resource of a partition is idle (R423). -/
def partIdle (s : State) (p : Fin 4) : Bool :=
  (List.finRange 16).all (fun g => s.pmap.grp[g] != p || s.grp[g].st == .idle) &&
    (List.finRange 8).all (fun q => s.pmap.seq[q] != p || s.restingQ q) &&
    (List.finRange 16).all (fun u => s.pmap.iu[u] != p || !s.fb (R.IU_CTL u) 0) &&
    (List.finRange 8).all (fun g => s.pmap.sg[g] != p || s.sg[g].st == .idle) &&
    (List.finRange 256).all (fun e => s.pmap.me[e] != p || (s.eng[e].st != 2 && s.eng[e].st != 3))

/-- The status of a LOAD at its acceptance (R423, R473): 0 when it is accepted. -/
def loadStatus (s : State) (p : Fin 4) (d : List Byte) : Nat :=
  let full := leAt d 16 1 != 1
  if s.sc.load.isSome then 5
  else if !s.partIdle p then 1
  else if full ∧ !(List.finRange 4).all (fun r => s.partIdle r) then 5
  else if full ∧ p ≠ s.owner then 3
  else if 1 < leAt d 16 1 ∨ 1 < leAt d 17 1 ∨ leAt d 32 4 = 0 ∨
      (leAt d 17 1 = 0 ∧ s.sc.flashLen < leAt d 24 8 + leAt d 32 4) then 2
  else 0

/-- LOAD (R470): an accepted load begins, and reads its source where that is host memory. -/
def cmdLoad (q : Nat) (p : Fin 4) (d : List Byte) (s : State) : State :=
  match s.loadStatus p d with
  | 0 =>
    let host := leAt d 17 1 == 1
    let life := s.sc.loads
    let s := s.loadBegin {
      by_ := .cmd q, src := if host then .host else .flash, full := leAt d 16 1 == 0, part := p, addr := leAt d 24 8, len := leAt d 32 4 }
    let s := s.cmdHold q
    if host then s.askRead p .load (leAt d 24 8) (leAt d 32 4) life else s
  | st => s.cmdDone q st 0

/-! ## Commands over several units (R420, R423) -/

/-- Act on units in order while each one's status is 0: the status that decides, and the state where all have acted. -/
def unitsTry (status : Nat → State → Nat) (act : Nat → State → State) : List Nat → State → Nat × State
  | [], s => (0, s)
  | k :: r, s => match status k s with
    | 0 => unitsTry status act r (act k s)
    | n => (n, s)

/-- A command acts on all the units of a mask or on none. -/
def unitsDo (s : State) (q n mask : Nat) (status : Nat → State → Nat) (act : Nat → State → State) (result : BitVec 64) : State :=
  match unitsTry status act (ones n (word mask)) s with
  | (0, t) => t.cmdDone q 0 result
  | (st, _) => s.cmdDone q st 0

/-- The status codes for the refusal causes of R89, R136 and R305 (R423). -/
def grpStatusOf (p : Fin 4) (k : Nat) (s : State) : Nat :=
  let g := Fin.ofNat 16 k
  if s.pmap.grp[g] ≠ p then 2 else match s.grpCause g with | none => 0 | some c => if c < 2 then 1 else 2
def seqStatusOf (p : Fin 4) (k : Nat) (s : State) : Nat :=
  let g := Fin.ofNat 8 k
  if s.pmap.seq[g] ≠ p then 2 else match s.armCause g with | none => 0 | some c => if c < 2 then 1 else 2
def sgStatusOf (p : Fin 4) (k : Nat) (s : State) : Nat :=
  let g := Fin.ofNat 8 k
  if s.pmap.sg[g] ≠ p then 2 else match s.sgCause g with | none => 0 | some (c, _) => if c < 2 then 1 else 2

/-- A unit is the partition's, and in a state in which it may be stopped. -/
def grpStopStatus (p : Fin 4) (k : Nat) (s : State) : Nat :=
  let g := Fin.ofNat 16 k
  if s.pmap.grp[g] ≠ p then 2 else match s.grp[g].st with | .held | .wait | .run => 0 | _ => 1
def seqStopStatus (p : Fin 4) (k : Nat) (s : State) : Nat :=
  let g := Fin.ofNat 8 k
  if s.pmap.seq[g] ≠ p then 2 else if s.restingQ g then 1 else 0
def sgStopStatus (p : Fin 4) (k : Nat) (s : State) : Nat :=
  let g := Fin.ofNat 8 k
  if s.pmap.sg[g] ≠ p then 2 else match s.sg[g].st with | .wait | .run => 0 | _ => 1

/-- The stop stamp that a group in RUN takes from a stop request (R92): a pending stop of R139 that lies earlier stands. -/
def haltStamp (s : State) (g : Fin 16) : Option Stamp :=
  match s.grp[g].st with
  | .run => earliest (s.stamp32 :: (s.grp[g].pendStops).map (·.2))
  | _ => none

/-- The RESULT of GROUP_HALT: the stop stamp of the first named group in RUN. -/
def haltResult (s : State) (mask : Nat) : BitVec 64 :=
  ((ones 16 (word mask)).findSome? (fun k => s.haltStamp (Fin.ofNat 16 k))).getD 0

/-! ## JUMP (R301 to R303) -/

/-- JUMP: the request arrives now; its completion follows the jump. -/
def cmdJump (q : Nat) (p : Fin 4) (d : List Byte) (s : State) : State :=
  let k := leAt d 16 1
  if 8 ≤ k ∨ s.pmap.sg[Fin.ofNat 8 k] ≠ p then s.cmdDone q 2 0
  else s.jumpAsk (Fin.ofNat 8 k) ⟨s.stamp32, .cmd q⟩

/-! ## SHARED (R415, R424) -/

/-- The bytes of an object's value block, and the registers it holds in address order. -/
def valueLen (o : Nat) : Nat := match o with | 0 => 12 | 1 => 8 | 2 => 516 | 3 => 4 | 4 => 64 | _ => 4
def valueRegs (o : Nat) : List Nat :=
  match o with
  | 0 => [R.TB_REF_CTL, R.TB_LOCK_CTL, R.TB_DITHER_SEED]
  | 1 => [R.TB_SG_FCW, R.TB_SG_CTL]
  | 2 => R.TB_RAMP_CTL :: (List.range 64).flatMap (fun k => [R.TB_RAMP_DELTA k, R.TB_RAMP_DUR k])
  | 3 => [R.TB_SYNC_CTL]
  | 4 => (List.range 16).map R.TRG_IO_CTL
  | _ => [R.PG_BUDGET]

/-- An action of an object that R424 lists. -/
def actionOk (o a : Nat) : Bool := decide (o ≤ 5) && (a == 0 || (o == 1 && (a == 1 || a == 2)) || (o == 3 && a == 1))

/-- The states in which an action completes with STATE (R424). -/
def sharedState (s : State) (o a : Nat) : Bool :=
  match o, a with
  | 0, _ => s.tb.coast || s.tb.relocking
  | 1, 0 => !s.sgQuiet
  | 1, 1 => s.tb.ramp.run
  | 2, _ => s.tb.ramp.run
  | _, _ => false

/-- The present generation of an object is not the one given, or its state forbids the action. -/
def sharedStop (s : State) (d : List Byte) : Bool :=
  let o := leAt d 16 1
  leAt d 18 2 != s.f (genReg o) 15 0 || s.sharedState o (leAt d 17 1)

/-- The status of a SHARED command before its block is read. -/
def sharedStatus (s : State) (p : Fin 4) (d : List Byte) : Nat :=
  let o := leAt d 16 1
  let a := leAt d 17 1
  if p ≠ s.owner then 3
  else if !actionOk o a then 2
  else if s.sharedStop d then 1
  else if leAt d 32 4 ≠ (if a = 0 then valueLen o else 0) then 2
  else 0

/-- SHARED, APPLY: its block is read first. -/
def cmdShared (q : Nat) (p : Fin 4) (d : List Byte) (s : State) : State :=
  match s.sharedStatus p d with
  | 0 =>
    let s := s.setRing q (fun G => { G with busy := true, value := [], asks := G.asks + 1 })
    s.askRead p (.value q) (leAt d 24 8) (leAt d 32 4) (s.ringSt q).asks
  | st => s.cmdDone q st 0

/-- SHARED, an action without a block. -/
def cmdSharedAct (q : Nat) (act : Nat → State → State) (p : Fin 4) (d : List Byte) (s : State) : State :=
  match s.sharedStatus p d with
  | 0 =>
    let s := act (leAt d 18 2) s
    s.cmdDone q 0 (stamp (s.f (genReg (leAt d 16 1)) 15 0))
  | st => s.cmdDone q st 0

/-- The status of a value block that has come: an FCW outside R67, a budget outside its range or below the floors (R490). -/
def valueStatus (s : State) (o : Nat) (b : List Byte) : Nat :=
  let x := leAt b 0 4
  match o with
  | 1 => if x < 0x20000000 ∨ 0x40000000 < x then 2 else 0
  | 5 =>
    let w := x % 16384
    if w < 3000 ∨ 8500 < w then 2 else if w < s.f R.PG_DRAW 31 16 then 1 else 0
  | _ => 0

/-- The registers of a block are written and applied as the register path does. -/
def sharedApply (s : State) (p : Fin 4) (o gen : Nat) (b : List Byte) : State :=
  let rs := valueRegs o
  let s := forAll ((List.range rs.length).zip rs) s (fun e s =>
    s.regWrite { m := .hp p, off := e.2, data := word (leAt b (4 * e.1) 4) } 0)
  match o with
  | 0 => s.tbApply R.TB_APPLY gen
  | 1 => s.sgApply R.TB_SG_APPLY gen
  | 2 => s.wrF R.TB_SG_GEN 15 0 (gen + 1)
  | 3 => s.wrF R.TB_SYNC_GEN 15 0 (gen + 1)
  | 4 => s.ioApply (.hp p) R.TRG_IO_APPLY gen
  | _ => s.pgApply p R.PG_APPLY gen

/-- The whole value block of a waiting SHARED command has come: it is applied (R424). -/
def sharedFinish (s : State) (q : Nat) : State :=
  match s.cmdHead q with
  | some d =>
    let b := (((s.ringSt q).value.foldr (insertBy (fun x y => decide (x.1 ≤ y.1))) []).flatMap (·.2))
    if s.cmdRuns q 0x0C && b.length == leAt d 32 4 then
      let o := leAt d 16 1
      let p := s.qPart q
      let s := s.setRing q (fun G => { G with value := [] })
      if s.sharedStop d then s.cmdDone q 1 0
      else match s.valueStatus o b with
        | 0 =>
          let s := s.sharedApply p o (leAt d 18 2) b
          s.cmdDone q 0 (stamp (s.f (genReg o) 15 0))
        | st => s.cmdDone q st 0
    else s
  | none => s

/-! ## READOUT (R425) -/

/-- The channels that a range of acquisition memory touches. -/
def rangeChans (s : State) (a n : Nat) : List (Fin 16) :=
  ((List.range (ceilDiv n 64 + 1)).map (fun k => s.dcChan (min (a + 64 * k) (a + n - 1)))).eraseDups

/-- The pieces of a READOUT that are still to come: each is read once its channels are ACTIVE, and posted, units with an uncorrectable error
poisoned. A channel that is DISABLED or FAILED ends the command with FAULT and the bytes written (R365; log entry 157). -/
def readoutGo (q : Nat) (p : Fin 4) (a host : Nat) : List (Nat × Nat) → State → State
  | [], s => s
  | e :: r, s =>
    let cs := s.rangeChans (a + e.1) e.2
    if cs.any (fun c => s.dc[c].st == .disabled || s.dc[c].st == .failed) then s.cmdDone q 8 (stamp e.1)
    else if !cs.all (fun c => s.dc[c].st == .active) || !s.mayIssue p then s
    else
      let port := 25 + p.val
      let (bs, bad, s) := s.acqRead p port 3 (a + e.1) e.2
      let s := s.dcRequest port 3 (a + e.1) false
      let s := (s.post p (.readout q) (host + e.1) bs bad).setRing q (fun G => { G with got := e.1 + e.2 })
      readoutGo q p a host r s

/-- A READOUT in front goes on where it stopped. -/
def readoutMore (s : State) (q : Nat) (d : List Byte) : State :=
  let p := s.qPart q
  readoutGo q p (leAt d 16 8) (leAt d 24 8)
    ((pieces (s.mps p) (leAt d 24 8) (leAt d 32 4 + 1) 0 (leAt d 32 4)).filter (fun e => decide ((s.ringSt q).got ≤ e.1))) s

/-- READOUT: it waits for its first channels and for the port. -/
def cmdReadout (q : Nat) (p : Fin 4) (d : List Byte) (s : State) : State :=
  let a := leAt d 16 8
  let host := leAt d 24 8
  let n := leAt d 32 4
  if n = 0 ∨ n % 64 ≠ 0 ∨ host % 64 ≠ 0 ∨ !s.inShare p a n then s.cmdDone q 2 0
  else
    let cs := s.rangeChans a n
    if cs.any (fun c => s.dc[c].st == .disabled || s.dc[c].st == .failed) || s.port[p].fenced then s.cmdDone q 8 0
    else if !(s.rangeChans a 64).all (fun c => s.dc[c].st == .active) || !s.mayIssue p then s
    else ((s.cmdHold q).setRing q (fun G => { G with got := 0 })).readoutMore q d

/-- A READOUT goes on where it had to stop; when all its writes have been issued and acknowledged it ends. -/
def readoutDone (s : State) (q : Nat) : State :=
  match s.cmdHead q with
  | some d =>
    if !s.cmdRuns q 0x0D then s
    else if (s.ringSt q).got < leAt d 32 4 then s.readoutMore q d
    else if s.port[s.qPart q].tx.any (fun t => t.kind == .readout q) then s else s.cmdDone q 0 (stamp (leAt d 32 4))
  | none => s

/-! ## LIFECYCLE (R482 to R484) -/

/-- Erase, and store, bytes of the boot flash. -/
def flashErase (s : State) (a n : Nat) : State :=
  s.setSc (fun c => { c with flash := c.flash.filter (fun e => !decide (a ≤ e.1 ∧ e.1 < a + n)) })
def flashPut (s : State) (a : Nat) (l : List Byte) : State :=
  forAll ((List.range l.length).zip l) s (fun e s => s.flashSet (a + e.1) e.2)

/-- The states from which an action is legal, and the length of its block. -/
def lifeFrom (s : State) (action : Nat) : Bool :=
  match action with
  | 0 => s.sc.fuse.lc == 0
  | 1 => s.sc.fuse.lc == 1 && s.sc.fuse.reprov != 0
  | 2 => s.sc.fuse.lc == 1
  | _ => s.sc.fuse.lc != 3
def lifeLen (action : Nat) : Nat := match action with | 0 => 288 | 1 => 288 | 2 => 0 | _ => 128

/-- A provisioning block passes its checks (R484). -/
def blockOk (s : State) (b : List Byte) : Bool :=
  let key := slice b 192 96
  let none_ := zeros b 192 96
  let ven (o : Nat) : Bool := leAt b o 2 != 0 && leAt b o 2 != 0xFFFF
  slice b 16 16 == padTo 16 s.sc.fuse.device && decide (leAt b 6 1 < 4) && s.present (Fin.ofNat 4 (leAt b 6 1)) && ven 8 && ven 10 &&
    (none_ || Config.onCurve key) && !((leAt b 7 1).testBit 1 && none_) && leAt b 7 1 != 0

/-- A return token passes its checks (R484). -/
def tokenOk (s : State) (b : List Byte) : Bool :=
  leAt b 0 4 == magicToken && zeros b 4 4 && zeros b 24 8 && slice b 8 16 == padTo 16 s.sc.fuse.device &&
    Config.returnVerify s.sc.fuse.retHash (slice b 0 32) (slice b 32 96)

/-- The status of a LIFECYCLE command (R483). -/
def lifeStatus (s : State) (p : Fin 4) (d : List Byte) : Nat :=
  let a := leAt d 16 1
  let off := leAt d 20 4
  let len := leAt d 24 4
  if p ≠ s.owner then 3
  else if leAt d 18 2 ≠ s.f R.SC_LC 15 0 ∨ s.sc.load.isSome ∨ !(List.finRange 4).all (fun r => s.partIdle r) ∨
      (a ≤ 3 ∧ !s.lifeFrom a) then 1
  else if 3 < a ∨ leAt d 17 1 ≠ 0 ∨ !zeros d 28 36 ∨ off % 64 ≠ 0 ∨ len ≠ lifeLen a ∨ s.scratchSize s.owner < off + len then 2
  else
    let b := s.scratchBytes s.owner off len
    if (match a with | 0 | 1 => s.blockOk b | 2 => true | _ => s.tokenOk b) then 0 else 9

/-- The record that a block becomes (R480): RECORD_SEQ one above the previous record's, new keys, and the device's signature. -/
def newRecord (s : State) (b : List Byte) : List Byte :=
  let seq := (match s.provRecord with | some r => leAt r 32 4 | none => 0) + 1
  let r := slice b 0 32 ++ leBytes 4 seq ++ slice b 36 252 ++ padTo 96 (Config.sealPub seq) ++ padTo 96 (Config.imagePub seq)
    ++ padTo 124 (Config.wrapKeys seq) ++ padTo 324 []
  r ++ leBytes 96 (Config.attestSign r).toNat

/-- What an action does to the fuses and to the PROV slots (R484). -/
def lifeEffect (s : State) (a : Nat) (b : List Byte) : State :=
  let prov := (s.slots 2).take 2
  match a with
  | 0 | 1 =>
    let r := s.newRecord b
    let s := s.setSc (fun c => { c with
      fuse := { c.fuse with lc := 1, reprov := if a = 1 then c.fuse.reprov - 1 else c.fuse.reprov } })
    forAll prov s (fun e s => (s.flashErase e.1 e.2).flashPut e.1 r)
  | 2 => s.setSc (fun c => { c with fuse := { c.fuse with lc := 2 } })
  | _ => forAll prov (s.setSc (fun c => { c with fuse := { c.fuse with lc := 3 } })) (fun e s => s.flashErase e.1 e.2)

/-- A LIFECYCLE command (R483, R484): fuses, the wipe, the generation, the events; it completes when the wipe has ended. It waits for host
scratch that sleeps or is under test (R337, R344, R345) and for the end of a wipe under way (R353). -/
def cmdLife (q : Nat) (p : Fin 4) (d : List Byte) (s : State) : State :=
  let reads : Bool := match s.lifeStatus p d with | 0 | 9 => true | _ => false
  let off := leAt d 20 4
  let len := leAt d 24 4
  let reach := if reads then s.scratchReach s.owner off len else (true, s)
  if !reach.1 then reach.2
  else if reads ∧ s.cocoon.wiping then s
  else
  let s := if reads then (reach.2.scratchRead s.owner off len 0).2 else s
  match s.lifeStatus p d with
  | 0 =>
    let a := leAt d 16 1
    let b := s.scratchBytes s.owner off len
    let s := (s.cmdHold q).lifeEffect a b
    let s := s.wipe 2
    let s := s.wrF R.SC_LC 15 0 (s.f R.SC_LC 15 0 + 1)
    s.scEvents (List.finRange 4) 5 [(1, s.sc.fuse.lc), (2, s.f R.SC_LC 15 0)]
  | st => s.cmdDone q st 0

/-- ACTION of a LIFECYCLE descriptor; numbers that R484 does not list go with PROVISION. -/
def lifeNamed (a : Nat) (d : List Byte) : Bool := if a = 0 then leAt d 16 1 == 0 || decide (3 < leAt d 16 1) else leAt d 16 1 == a

end State

/-! ## Steps: each executes the command at the front of CMD queue `q` -/

/-- NOP (R423). -/
def execNop (q : Fin 16384) (s : State) : Host.Outcome State Fault Refusal :=
  .next (s.cmdRun q 0x00 State.always (fun _ _ s => s.cmdDone q 0 0))

/-- ATTACH (R416). -/
def execAttach (q : Fin 16384) (s : State) : Host.Outcome State Fault Refusal :=
  .next (s.cmdRun q 0x01 State.always (State.cmdAttach q))

/-- DETACH (R416). -/
def execDetach (q : Fin 16384) (s : State) : Host.Outcome State Fault Refusal :=
  .next (s.cmdRun q 0x02 State.always (State.cmdDetach q))

/-- DIGEST (R426). -/
def execDigest (q : Fin 16384) (s : State) : Host.Outcome State Fault Refusal :=
  .next (s.cmdRun q 0x03 State.always (State.cmdDigest q))

/-- LOAD_FULL: LOAD of any scope but a partition's (R423, R470). -/
def execLoadFull (q : Fin 16384) (s : State) : Host.Outcome State Fault Refusal :=
  .next (s.cmdRun q 0x04 (fun d => leAt d 16 1 != 1) (State.cmdLoad q))

/-- LOAD_PARTITION: LOAD with scope 1 (R423, R470). -/
def execLoadPartition (q : Fin 16384) (s : State) : Host.Outcome State Fault Refusal :=
  .next (s.cmdRun q 0x04 (fun d => leAt d 16 1 == 1) (State.cmdLoad q))

/-- GROUP_GO: RESULT is Cw × 1,024 (R89, R423). -/
def execGroupGo (q : Fin 16384) (s : State) : Host.Outcome State Fault Refusal :=
  .next (s.cmdRun q 0x05 State.always (fun p d s =>
    s.unitsDo q 16 (leAt d 16 2) (State.grpStatusOf p) (fun k s => s.groupGo (Fin.ofNat 16 k)) s.now))

/-- GROUP_HALT: RESULT is E when a named group was in RUN (R92, R423). -/
def execGroupHalt (q : Fin 16384) (s : State) : Host.Outcome State Fault Refusal :=
  .next (s.cmdRun q 0x06 State.always (fun p d s =>
    s.unitsDo q 16 (leAt d 16 2) (State.grpStopStatus p) (fun k s => s.groupHalt (Fin.ofNat 16 k)) (s.haltResult (leAt d 16 2))))

/-- ARM: RESULT is (Cw + 32) × 1,024 (R136, R423). -/
def execArm (q : Fin 16384) (s : State) : Host.Outcome State Fault Refusal :=
  .next (s.cmdRun q 0x07 State.always (fun p d s =>
    s.unitsDo q 8 (leAt d 16 1) (State.seqStatusOf p) (fun k s => s.trgArm (Fin.ofNat 8 k)) s.stamp32))

/-- DISARM (R141, R423). -/
def execDisarm (q : Fin 16384) (s : State) : Host.Outcome State Fault Refusal :=
  .next (s.cmdRun q 0x08 State.always (fun p d s =>
    s.unitsDo q 8 (leAt d 16 1) (State.seqStopStatus p) (fun k s => s.trgHalt (Fin.ofNat 8 k)) 0))

/-- SG_GO_COMMAND: RESULT is Cw × 1,024 (R305, R423). -/
def execSgGoCommand (q : Fin 16384) (s : State) : Host.Outcome State Fault Refusal :=
  .next (s.cmdRun q 0x09 State.always (fun p d s =>
    s.unitsDo q 8 (leAt d 16 1) (State.sgStatusOf p) (fun k s => s.sgGo (Fin.ofNat 8 k)) s.now))

/-- SG_HALT_COMMAND (R307, R423). -/
def execSgHaltCommand (q : Fin 16384) (s : State) : Host.Outcome State Fault Refusal :=
  .next (s.cmdRun q 0x0A State.always (fun p d s =>
    s.unitsDo q 8 (leAt d 16 1) (State.sgStopStatus p) (fun k s => s.sgHalt (Fin.ofNat 8 k)) 0))

/-- JUMP (R301 to R303, R423). -/
def execJump (q : Fin 16384) (s : State) : Host.Outcome State Fault Refusal :=
  .next (s.cmdRun q 0x0B State.always (State.cmdJump q))

/-- SHARED_APPLY: SHARED with action 0, and with what R424 does not list (R424). -/
def execSharedApply (q : Fin 16384) (s : State) : Host.Outcome State Fault Refusal :=
  .next (s.cmdRun q 0x0C (fun d => leAt d 17 1 == 0 || !State.actionOk (leAt d 16 1) (leAt d 17 1)) (State.cmdShared q))

/-- SHARED_RAMP_GO (R69, R424). -/
def execSharedRampGo (q : Fin 16384) (s : State) : Host.Outcome State Fault Refusal :=
  .next (s.cmdRun q 0x0C (fun d => leAt d 16 1 == 1 && leAt d 17 1 == 1)
    (State.cmdSharedAct q (fun gen s => s.rampGo R.TB_RAMP_GO gen false true)))

/-- SHARED_RAMP_STOP (R71, R424). -/
def execSharedRampStop (q : Fin 16384) (s : State) : Host.Outcome State Fault Refusal :=
  .next (s.cmdRun q 0x0C (fun d => leAt d 16 1 == 1 && leAt d 17 1 == 2)
    (State.cmdSharedAct q (fun gen s => s.rampGo R.TB_RAMP_GO gen true false)))

/-- SHARED_FIRE (R424, R536). -/
def execSharedFire (q : Fin 16384) (s : State) : Host.Outcome State Fault Refusal :=
  .next (s.cmdRun q 0x0C (fun d => leAt d 16 1 == 3 && leAt d 17 1 == 1)
    (State.cmdSharedAct q (fun gen s => s.syncFire R.TB_SYNC_FIRE gen)))

/-- READOUT (R425). -/
def execReadout (q : Fin 16384) (s : State) : Host.Outcome State Fault Refusal :=
  .next (s.cmdRun q 0x0D State.always (State.cmdReadout q))

/-- READOUT_DONE: the writes of a READOUT are done, and it completes (R425). -/
def execReadoutDone (q : Fin 16384) (s : State) : Host.Outcome State Fault Refusal := .next (s.readoutDone q)

/-- PROVISION (R483, R484). -/
def execProvision (q : Fin 16384) (s : State) : Host.Outcome State Fault Refusal :=
  .next (s.cmdRun q 0x0E (State.lifeNamed 0) (State.cmdLife q))

/-- REPROVISION (R483, R484). -/
def execReprovision (q : Fin 16384) (s : State) : Host.Outcome State Fault Refusal :=
  .next (s.cmdRun q 0x0E (State.lifeNamed 1) (State.cmdLife q))

/-- FINALISE (R483, R484). -/
def execFinalise (q : Fin 16384) (s : State) : Host.Outcome State Fault Refusal :=
  .next (s.cmdRun q 0x0E (State.lifeNamed 2) (State.cmdLife q))

/-- RETURN (R483, R484). -/
def execReturn (q : Fin 16384) (s : State) : Host.Outcome State Fault Refusal :=
  .next (s.cmdRun q 0x0E (State.lifeNamed 3) (State.cmdLife q))

end Sys2Proof.Machine
end

