-- ==== Sys2Proof/Machine/HostSteps.lean ====
section
/-! DEFINITION. The steps that are accesses of a master with rows of their own, and the rest of what the system controller, the
memories and the ports finish by themselves. Each register command is the write of its register (R6). -/

namespace Sys2Proof.Machine

open Bits

namespace State

/-! ## Patrol scrubbing, promotion, Diapause (R329, R337, R368, R371) -/

/-- Port 0 of a bank writes a 64-bit word at the moment when a master without repeat reaches it through port 1 (R333): a read has returned the
old data, and a write of different data is dropped, with SB_COLL. A message port or the system controller repeats its write, which then
stands as if it had come alone. `t` is the state after that master's access. -/
def bankCollide (t : State) (b o : Nat) (read : Bool) (master : Nat) (w : BitVec 64) : State :=
  let a := sramAt 0 b (o / 8 * 8)
  let put (s : State) : State := (s.sramWr a (lo32 w)).sramWr (a + 4) (hi32 w)
  if read then put t
  else if t.sramRd (a + 4) ++ t.sramRd a = w then t
  else
    ((put t).bump (R.SB_COLL_CNT b)).sbEvent (t.arrPart 0 b) 2 b [(4, o / 8 * 8), (1, 1), (1, (Config.masterCode master).toNat)]

/-- The SRAM patrol reads a word: arrays in Diapause are left out, and a slice under test is not idle (R329). `ecc` is what it
finds: 0 good, 1 a corrected error, which is written back, 2 an uncorrectable word; `coll` what the queue manager writes to the word of a bank
at that moment, if it does (R333). -/
def patrol (s : State) (mem index off ecc : Nat) (coll : Option (BitVec 64)) : State :=
  if !arrExists mem index || decide (arrSize mem ≤ off) || s.sleeping mem index || s.mtStalls mem index off false then s
  else if mem = 2 then
    match ecc with | 0 => s | 1 => s.sbCe 2 index off | _ => s.sbUe 2 index off 4
  else
    let t := (s.sramCheck mem index off ecc 4).2
    match mem, coll with
    | 0, some w => t.bankCollide index off (ecc != 1) 4 w
    | _, _ => t

/-- The DRAM patrol reads the unit of an address in class C4 (R368); a unit that is uncorrectable stays so (R367). -/
def dcPatrol (s : State) (a outcome ns : Nat) : State :=
  if s.f R.DC_SCRUB 7 0 = 0 ∨ s.dcCap ≤ a ∨ !s.dcActive a then s
  else s.accessDone (s.dcChan a) 29 4 (a / 64 * 64) (if s.bad.contains (a / 64) then 2 else outcome) ns

/-- The age limit of a class in TBCLK counts; C0 and C1 have none (R371). -/
def ageLimit (s : State) (cls : Nat) : Option Nat :=
  match cls with
  | 2 => some (500 * s.f R.DC_AGE 9 0)
  | 3 => some (500 * s.f R.DC_AGE 19 10)
  | 4 => some (500 * s.f R.DC_AGE 29 20)
  | _ => none

/-- A request of a channel is promoted once its age has passed its limit (R371). -/
def promote (s : State) (c : Fin 16) (i : Nat) : State :=
  match s.dc[c].reqs[i]? with
  | some r =>
    match s.ageLimit r.cls with
    | some lim => if s.since r.at_ (lim + 1) then s.setDc c (fun d => { d with reqs := d.reqs.set i { r with prom := true } }) else s
    | none => s
  | none => s

/-- A start that waited for its scratchpad follows 12 µs after its ME_GO (R336). -/
def goDue (s : State) (e : Fin 256) : State :=
  match s.eng[e].goWait with
  | some t => if !s.sleeping 1 e ∧ s.since t 24000 then s.engStart e else s
  | none => s

/-- A woken array serves again (R337): waiting accesses follow. A start may still be due when the array is awake. -/
def wakeDone (s : State) (mem index : Nat) : State :=
  let due (s : State) : State := if mem = 1 then s.goDue (Fin.ofNat 256 index) else s
  if s.sleeping mem index ∧ (s.arrSt mem index).wakeAt.isSome then
    (due (s.setArr mem index (fun A => { A with dia := false, wakeAt := none }))).serveAll 0
  else due s

/-! ## Mailbox services (R479) -/

/-- FW_RECOVER: firmware in host scratch is checked and starts (R467, R475 step 4, R477), once no wipe keeps the Cocoon (R353). -/
def fwRecover (s : State) (p : Fin 4) (off len ecc : Nat) : State :=
  if s.cocoon.wiping then s
  else
  let (b, s) := s.scratchRead s.owner off len ecc
  match s.firmwareCheck b with
  | .good i => (s.mailDone p 0 i.version).firmwareStart i.version
  | .auth stage => ((s.scNote 1).authFail p 4 stage).mailDone p 9 0
  | .fail st _ => (s.scNote 1).mailDone p st 0
  | .notYet => s

/-- A mailbox service ends. `flashFail` says that the flash failed, in which case the range is as it was; `ecc` is what the first word read
from host scratch meets. A service waits while its range of host scratch sleeps or is under test (R337, R344, R345). IMAGE_LOAD ends with
its load. -/
def mailEnd (s : State) (p : Fin 4) (flashFail : Bool) (ecc : Nat) : State :=
  match s.sc.mail[p] with
  | none => s
  | some j =>
    let arg (k : Nat) : Nat := (j.args.getD k 0#32).toNat
    let reach := if j.svc = 2 then (true, s) else s.scratchReach s.owner (arg 2) (arg 1)
    if j.bad ≠ 0 then s.mailDone p j.bad 0
    else match j.svc with
      | 0 => s.mailDone p 0 s.sc.fwVer
      | 4 => s
      | 5 => if reach.1 then reach.2.fwRecover p (arg 2) (arg 1) ecc else reach.2
      | svc =>
        if flashFail then s.mailDone p 8 0
        else if !reach.1 then reach.2
        else
          let s := reach.2
          let s := match svc with
            | 1 => s.scratchPut s.owner (arg 2) (s.flashBytes (arg 0) (arg 1))
            | 2 => s.flashErase (arg 0) (arg 1)
            | _ =>
              let (new, s) := s.scratchRead s.owner (arg 2) (arg 1) ecc
              s.flashPut (arg 0) ((s.flashBytes (arg 0) (arg 1)).zipWith (fun x y => x &&& y) new)
          s.mailDone p 0 (arg 1)

/-- A completion arrives at a port, and a SHARED command whose block is whole goes on (R405, R424). -/
def readComes (s : State) (p : Fin 4) (tag : Nat) (bytes : List Byte) (poison : Bool) : State :=
  let s := s.completion p tag bytes poison
  forAll s.rings s (fun q s => s.sharedFinish q)

/-- A word for DC_TRN_CMD (R384). -/
def trnWord (op rank bank : Nat) (pat : Bool) (arg : Nat) : Word :=
  word (op + 16 * rank + 32 * bank + 512 * b2n pat + 65536 * arg)

end State

/-! ## Steps: writes of a master `m` to the command registers -/

/-- CH_AT_GO: a write to CH_AT_GO[i] (R16). -/
def execChAtGo (m : Master) (i : Fin 4) (w : Word) (s : State) : Host.Outcome State Fault Refusal :=
  .next (s.busWrite m (R.CH_AT_GO i) w)

/-- CH_CNT_CLR: a write to CH_CNT_CLR[i] (R41). -/
def execChCntClr (m : Master) (i : Fin 4) (w : Word) (s : State) : Host.Outcome State Fault Refusal :=
  .next (s.busWrite m (R.CH_CNT_CLR i) w)

/-- TDC_CAL_GO: a write to TDC_CAL_GO (R29, R42). -/
def execTdcCalGo (m : Master) (w : Word) (s : State) : Host.Outcome State Fault Refusal := .next (s.busWrite m R.TDC_CAL_GO w)

/-- TDC_CNT_CLR: a write to TDC_CNT_CLR (R42). -/
def execTdcCntClr (m : Master) (w : Word) (s : State) : Host.Outcome State Fault Refusal := .next (s.busWrite m R.TDC_CNT_CLR w)

/-- TB_SYNC_FIRE: a write to TB_SYNC_FIRE (R74, R536). -/
def execTbSyncFire (m : Master) (gen : BitVec 16) (s : State) : Host.Outcome State Fault Refusal :=
  .next (s.busWrite m R.TB_SYNC_FIRE (gen.setWidth 32))

/-- TB_APPLY: a write to TB_APPLY (R78, R537). -/
def execTbApply (m : Master) (gen : BitVec 16) (s : State) : Host.Outcome State Fault Refusal :=
  .next (s.busWrite m R.TB_APPLY (gen.setWidth 32))

/-- TB_SG_APPLY: a write to TB_SG_APPLY (R67, R78). -/
def execTbSgApply (m : Master) (gen : BitVec 16) (s : State) : Host.Outcome State Fault Refusal :=
  .next (s.busWrite m R.TB_SG_APPLY (gen.setWidth 32))

/-- RAMP_GO: a write to TB_RAMP_GO that starts the ramp (R69, R78). -/
def execRampGo (m : Master) (gen : BitVec 16) (s : State) : Host.Outcome State Fault Refusal :=
  .next (s.busWrite m R.TB_RAMP_GO (word (65536 * gen.toNat + 1)))

/-- RAMP_STOP: a write to TB_RAMP_GO that stops the ramp (R71, R78). -/
def execRampStop (m : Master) (gen : BitVec 16) (s : State) : Host.Outcome State Fault Refusal :=
  .next (s.busWrite m R.TB_RAMP_GO (word (65536 * gen.toNat + 2)))

/-- CH_GRP_GO: a write to CH_GRP_GO (R89, R90). -/
def execChGrpGo (m : Master) (w : Word) (s : State) : Host.Outcome State Fault Refusal := .next (s.busWrite m R.CH_GRP_GO w)

/-- CH_GRP_HALT: a write to CH_GRP_HALT (R92). -/
def execChGrpHalt (m : Master) (w : Word) (s : State) : Host.Outcome State Fault Refusal := .next (s.busWrite m R.CH_GRP_HALT w)

/-- TRG_ARM: a write to TRG_ARM (R136, R137). -/
def execTrgArm (m : Master) (w : Word) (s : State) : Host.Outcome State Fault Refusal := .next (s.busWrite m R.TRG_ARM w)

/-- TRG_HALT: a write to TRG_HALT (R141). -/
def execTrgHalt (m : Master) (w : Word) (s : State) : Host.Outcome State Fault Refusal := .next (s.busWrite m R.TRG_HALT w)

/-- TRG_IO_APPLY: a write to TRG_IO_APPLY (R147). -/
def execTrgIoApply (m : Master) (gen : BitVec 16) (s : State) : Host.Outcome State Fault Refusal :=
  .next (s.busWrite m R.TRG_IO_APPLY (gen.setWidth 32))

/-- IU_ENABLE: a write to IU_CTL[u] with EN = 1 (R190). -/
def execIuEnable (m : Master) (u : Fin 16) (w : Word) (s : State) : Host.Outcome State Fault Refusal :=
  .next (s.busWrite m (R.IU_CTL u) (w ||| 1#32))

/-- IU_DISABLE: a write to IU_CTL[u] with EN = 0 (R190). -/
def execIuDisable (m : Master) (u : Fin 16) (w : Word) (s : State) : Host.Outcome State Fault Refusal :=
  .next (s.busWrite m (R.IU_CTL u) (w &&& ~~~1#32))

/-- IU_SNAP: a write to IU_SNAP (R206). -/
def execIuSnap (m : Master) (w : Word) (s : State) : Host.Outcome State Fault Refusal := .next (s.busWrite m R.IU_SNAP w)

/-- IU_SNAP_CLR: a write to IU_SNAP_CLR (R206). -/
def execIuSnapClr (m : Master) (w : Word) (s : State) : Host.Outcome State Fault Refusal := .next (s.busWrite m R.IU_SNAP_CLR w)

/-- ME_GO: a write to ME_GO[k] (R231). -/
def execMeGo (m : Master) (k : Fin 8) (w : Word) (s : State) : Host.Outcome State Fault Refusal :=
  .next (s.busWrite m (R.ME_GO k) w)

/-- ME_STOP: a write to ME_STOP[k] (R231). -/
def execMeStop (m : Master) (k : Fin 8) (w : Word) (s : State) : Host.Outcome State Fault Refusal :=
  .next (s.busWrite m (R.ME_STOP k) w)

/-- ME_KICK: a write to ME_KICK of an engine (R238). -/
def execMeKick (m : Master) (e : Fin 256) (w : Word) (s : State) : Host.Outcome State Fault Refusal :=
  .next (s.busWrite m (State.engReg R.ME_KICK e) w)

/-- ME_SPD_ACCESS: an access to ME_SPD of an engine; `ecc` is what it finds (R232, R327). -/
def execMeSpdAccess (m : Master) (e : Fin 256) (read : Bool) (data : Word) (ecc : Fin 3) (s : State) : Host.Outcome State Fault Refusal :=
  .next (s.bus m .bar0 (State.engReg R.ME_SPD e) [data] read 15 ecc false)

/-- QUEUE_ENABLE: a write to word 0 of a queue's descriptor with EN = 1 (R255, R256). -/
def execQueueEnable (m : Master) (q : Fin 16384) (w : Word) (s : State) : Host.Outcome State Fault Refusal :=
  .next (s.busWrite m (State.qd q 0) (w ||| 8#32))

/-- QUEUE_DISABLE: a write to word 0 of a queue's descriptor with EN = 0 (R255). -/
def execQueueDisable (m : Master) (q : Fin 16384) (w : Word) (s : State) : Host.Outcome State Fault Refusal :=
  .next (s.busWrite m (State.qd q 0) (w &&& ~~~8#32))

/-- DOORBELL: a write to the doorbell of queue q at port p (R271). -/
def execDoorbell (p : Fin 4) (q : Fin 16384) (x : Word) (s : State) : Host.Outcome State Fault Refusal :=
  .next (s.bus (.hp p) .bar2 (0x40 * q) [x] false 15 0 false)

/-- SG_GO: a write to SG_GO (R305). -/
def execSgGo (m : Master) (w : Word) (s : State) : Host.Outcome State Fault Refusal := .next (s.busWrite m R.SG_GO w)

/-- SG_HALT: a write to SG_HALT (R307). -/
def execSgHalt (m : Master) (w : Word) (s : State) : Host.Outcome State Fault Refusal := .next (s.busWrite m R.SG_HALT w)

/-- SG_JUMP: a write of REQ = 1 to SG_JUMP[g] (R301). -/
def execSgJump (m : Master) (g : Fin 8) (s : State) : Host.Outcome State Fault Refusal := .next (s.busWrite m (R.SG_JUMP g) 1#32)

/-- STREAM_ENABLE: a write to SG_STR_CTL[g] with EN = 1 (R308). -/
def execStreamEnable (m : Master) (g : Fin 8) (w : Word) (s : State) : Host.Outcome State Fault Refusal :=
  .next (s.busWrite m (R.SG_STR_CTL g) (w ||| 0x80000000#32))

/-- SG_STR_DB: a write to SG_STR_DB[g] (R308). -/
def execSgStrDb (m : Master) (g : Fin 8) (w : Word) (s : State) : Host.Outcome State Fault Refusal :=
  .next (s.busWrite m (R.SG_STR_DB g) w)

/-- SG_CAL: a write of GO = 1 to SG_CAL[g], into channel group `grp` of the generator (R320). -/
def execSgCal (m : Master) (g : Fin 8) (grp : Bool) (s : State) : Host.Outcome State Fault Refusal :=
  .next (s.busWrite m (R.SG_CAL g) (if grp then 17#32 else 1#32))

/-- SG_LS_ACCESS: an access to SG_LS_DATA[g]; `ecc` is what it finds (R292, R327). -/
def execSgLsAccess (m : Master) (g : Fin 8) (read : Bool) (data : Word) (ecc : Fin 3) (s : State) : Host.Outcome State Fault Refusal :=
  .next (s.bus m .bar0 (R.SG_LS_DATA g) [data] read 15 ecc false)

/-- SB_DIA_ENTER: a write to SB_DIA_ENTER (R335). -/
def execSbDiaEnter (m : Master) (w : Word) (s : State) : Host.Outcome State Fault Refusal := .next (s.busWrite m R.SB_DIA_ENTER w)

/-- SB_DIA_SP_ENTER: a write to SB_DIA_SP_ENTER[k] (R336). -/
def execSbDiaSpEnter (m : Master) (k : Fin 8) (w : Word) (s : State) : Host.Outcome State Fault Refusal :=
  .next (s.busWrite m (R.SB_DIA_SP_ENTER k) w)

/-- SB_DIA_WAKE: a write to SB_DIA_WAKE (R337). -/
def execSbDiaWake (m : Master) (w : Word) (s : State) : Host.Outcome State Fault Refusal := .next (s.busWrite m R.SB_DIA_WAKE w)

/-- SB_DIA_SP_WAKE: a write to SB_DIA_SP_WAKE[k] (R337). -/
def execSbDiaSpWake (m : Master) (k : Fin 8) (w : Word) (s : State) : Host.Outcome State Fault Refusal :=
  .next (s.busWrite m (R.SB_DIA_SP_WAKE k) w)

/-- MT_GO: a write to SB_MT_CTL[p] with GO = 1 (R341, R343). -/
def execMtGo (m : Master) (p : Fin 4) (w : Word) (s : State) : Host.Outcome State Fault Refusal :=
  .next (s.busWrite m (R.SB_MT_CTL p) ((w ||| 0x80000000#32) &&& ~~~0x40000000#32))

/-- MT_ABORT: a write to SB_MT_CTL[p] with ABORT = 1 (R348). -/
def execMtAbort (m : Master) (p : Fin 4) (w : Word) (s : State) : Host.Outcome State Fault Refusal :=
  .next (s.busWrite m (R.SB_MT_CTL p) ((w ||| 0x40000000#32) &&& ~~~0x80000000#32))

/-- DC_ENABLE: a write to DC_CTL[c] with EN = 1 (R378, R379). -/
def execDcEnable (m : Master) (c : Fin 16) (w : Word) (s : State) : Host.Outcome State Fault Refusal :=
  .next (s.busWrite m (R.DC_CTL c) (w ||| 1#32))

/-- DC_DISABLE: a write to DC_CTL[c] with EN = 0 (R379). Window accesses to a channel that is DISABLED then end (R365). -/
def execDcDisable (m : Master) (c : Fin 16) (w : Word) (s : State) : Host.Outcome State Fault Refusal :=
  .next ((s.busWrite m (R.DC_CTL c) (w &&& ~~~1#32)).serveAll 0)

/-- SELF_REFRESH_ACK: a controller acknowledges self-refresh entry (R76, R380). Window accesses to a channel that is DISABLED then end (R365). -/
def execSelfRefreshAck (c : Fin 16) (s : State) : Host.Outcome State Fault Refusal := .next ((s.srAck c).serveAll 0)

/-- FILL_GO: a write to DC_FILL_CTL[p] with GO = 1 (R369). -/
def execFillGo (m : Master) (p : Fin 4) (w : Word) (s : State) : Host.Outcome State Fault Refusal :=
  .next (s.busWrite m (R.DC_FILL_CTL p) (w ||| 0x80000000#32))

/-- TRN_MRW: a write to DC_TRN_CMD[c] with OP 0 (R384). -/
def execTrnMrw (m : Master) (c : Fin 16) (rank : Fin 2) (bank : Fin 16) (pat : Bool) (arg : Fin 65536) (s : State) : Host.Outcome State Fault Refusal :=
  .next (s.busWrite m (R.DC_TRN_CMD c) (State.trnWord 0 rank bank pat arg))

/-- TRN_MRR: a write to DC_TRN_CMD[c] with OP 1 (R384). -/
def execTrnMrr (m : Master) (c : Fin 16) (rank : Fin 2) (bank : Fin 16) (pat : Bool) (arg : Fin 65536) (s : State) : Host.Outcome State Fault Refusal :=
  .next (s.busWrite m (R.DC_TRN_CMD c) (State.trnWord 1 rank bank pat arg))

/-- TRN_WRITE: a write to DC_TRN_CMD[c] with OP 2 (R384). -/
def execTrnWrite (m : Master) (c : Fin 16) (rank : Fin 2) (bank : Fin 16) (pat : Bool) (arg : Fin 65536) (s : State) : Host.Outcome State Fault Refusal :=
  .next (s.busWrite m (R.DC_TRN_CMD c) (State.trnWord 2 rank bank pat arg))

/-- TRN_READ: a write to DC_TRN_CMD[c] with OP 3 (R384). -/
def execTrnRead (m : Master) (c : Fin 16) (rank : Fin 2) (bank : Fin 16) (pat : Bool) (arg : Fin 65536) (s : State) : Host.Outcome State Fault Refusal :=
  .next (s.busWrite m (R.DC_TRN_CMD c) (State.trnWord 3 rank bank pat arg))

/-- TRN_FIFO_WRITE: a write to DC_TRN_CMD[c] with OP 4 (R384). -/
def execTrnFifoWrite (m : Master) (c : Fin 16) (rank : Fin 2) (bank : Fin 16) (pat : Bool) (arg : Fin 65536) (s : State) : Host.Outcome State Fault Refusal :=
  .next (s.busWrite m (R.DC_TRN_CMD c) (State.trnWord 4 rank bank pat arg))

/-- TRN_FIFO_READ: a write to DC_TRN_CMD[c] with OP 5 (R384). -/
def execTrnFifoRead (m : Master) (c : Fin 16) (rank : Fin 2) (bank : Fin 16) (pat : Bool) (arg : Fin 65536) (s : State) : Host.Outcome State Fault Refusal :=
  .next (s.busWrite m (R.DC_TRN_CMD c) (State.trnWord 5 rank bank pat arg))

/-- TRN_SR_ENTRY: a write to DC_TRN_CMD[c] with OP 6 (R384). -/
def execTrnSrEntry (m : Master) (c : Fin 16) (rank : Fin 2) (bank : Fin 16) (pat : Bool) (arg : Fin 65536) (s : State) : Host.Outcome State Fault Refusal :=
  .next (s.busWrite m (R.DC_TRN_CMD c) (State.trnWord 6 rank bank pat arg))

/-- TRN_SR_EXIT: a write to DC_TRN_CMD[c] with OP 7 (R384). -/
def execTrnSrExit (m : Master) (c : Fin 16) (rank : Fin 2) (bank : Fin 16) (pat : Bool) (arg : Fin 65536) (s : State) : Host.Outcome State Fault Refusal :=
  .next (s.busWrite m (R.DC_TRN_CMD c) (State.trnWord 7 rank bank pat arg))

/-- TRN_ZQ: a write to DC_TRN_CMD[c] with OP 8 (R384). -/
def execTrnZq (m : Master) (c : Fin 16) (rank : Fin 2) (bank : Fin 16) (pat : Bool) (arg : Fin 65536) (s : State) : Host.Outcome State Fault Refusal :=
  .next (s.busWrite m (R.DC_TRN_CMD c) (State.trnWord 8 rank bank pat arg))

/-- FENCE_RELEASE: a write of RELEASE = 1 to HP_FENCE[p] (R413). -/
def execFenceRelease (m : Master) (p : Fin 4) (s : State) : Host.Outcome State Fault Refusal :=
  .next (s.busWrite m (R.HP_FENCE p) 1#32)

/-- DIGEST_SNAP: a write of GO = 1 to HP_DIGEST_SNAP (R426). -/
def execDigestSnap (m : Master) (s : State) : Host.Outcome State Fault Refusal := .next (s.busWrite m R.HP_DIGEST_SNAP 1#32)

/-- CFGI_CAPTURE: a write of CAPTURE = 1 to CFGI_COMMIT[p] (R451). -/
def execCfgiCapture (m : Master) (p : Fin 4) (s : State) : Host.Outcome State Fault Refusal :=
  .next (s.busWrite m (R.CFGI_COMMIT p) 1#32)

/-- CFGI_VALUE: a write of VALUE = 1 to CFGI_COMMIT[p] (R451). -/
def execCfgiValue (m : Master) (p : Fin 4) (s : State) : Host.Outcome State Fault Refusal :=
  .next (s.busWrite m (R.CFGI_COMMIT p) 2#32)

/-- INFO: a write to SC_MB_CMD[p] with SVC 0 (R479). -/
def execInfo (m : Master) (p : Fin 4) (s : State) : Host.Outcome State Fault Refusal := .next (s.busWrite m (R.SC_MB_CMD p) 0#32)

/-- FLASH_READ: a write to SC_MB_CMD[p] with SVC 1 (R479). -/
def execFlashRead (m : Master) (p : Fin 4) (s : State) : Host.Outcome State Fault Refusal :=
  .next (s.busWrite m (R.SC_MB_CMD p) 1#32)

/-- FLASH_ERASE: a write to SC_MB_CMD[p] with SVC 2 (R479). -/
def execFlashErase (m : Master) (p : Fin 4) (s : State) : Host.Outcome State Fault Refusal :=
  .next (s.busWrite m (R.SC_MB_CMD p) 2#32)

/-- FLASH_WRITE: a write to SC_MB_CMD[p] with SVC 3 (R479). -/
def execFlashWrite (m : Master) (p : Fin 4) (s : State) : Host.Outcome State Fault Refusal :=
  .next (s.busWrite m (R.SC_MB_CMD p) 3#32)

/-- IMAGE_LOAD: a write to SC_MB_CMD[p] with SVC 4 (R479). -/
def execImageLoad (m : Master) (p : Fin 4) (s : State) : Host.Outcome State Fault Refusal :=
  .next (s.busWrite m (R.SC_MB_CMD p) 4#32)

/-- FW_RECOVER: a write to SC_MB_CMD[p] with SVC 5 (R479). -/
def execFwRecover (m : Master) (p : Fin 4) (s : State) : Host.Outcome State Fault Refusal :=
  .next (s.busWrite m (R.SC_MB_CMD p) 5#32)

/-- PG_APPLY: a write to PG_APPLY (R490). -/
def execPgApply (m : Master) (gen : BitVec 16) (s : State) : Host.Outcome State Fault Refusal :=
  .next (s.busWrite m R.PG_APPLY (gen.setWidth 32))

/-- MON_SNAP: a write to MON_SNAP (R509). -/
def execMonSnap (m : Master) (w : Word) (s : State) : Host.Outcome State Fault Refusal := .next (s.busWrite m R.MON_SNAP w)

/-- MON_SNAP_CLR: a write to MON_SNAP_CLR (R509). -/
def execMonSnapClr (m : Master) (w : Word) (s : State) : Host.Outcome State Fault Refusal := .next (s.busWrite m R.MON_SNAP_CLR w)

/-! ## Steps: the memory windows of a port -/

/-- An access of a port to one 64-bit word of its scratch window reaches a bank at once: the bank and the offset. -/
def State.scratchServed (s : State) (p : Fin 4) (off n : Nat) (read : Bool) (be : Nat) (poison : Bool) : Option (Nat × Nat) :=
  match s.scratchAt p off with
  | some (b, o) =>
    let dead := match islandOf .bar0 (0x2000000 + off) with | some i => s.failed.contains i | none => false
    if s.portOpen p .bar0 && decide (1 ≤ n ∧ off % 8 + 4 * n ≤ 8) && off % 4 == 0 && be == 15 && !(poison && !read) && (read || s.phase != 15) && !dead &&
        !s.waitsFor (.hp p) && !s.sleeping 0 b && !s.mtStalls 0 b o false then some (b, o) else none
  | none => none

/-- SCRATCH_WINDOW_ACCESS: an access of port p to its host scratch window (R334). `coll` is what the queue manager writes to the
same 64-bit word at the same moment, if it does (R333). -/
def execScratchWindowAccess (p : Fin 4) (off : Fin 0x1000000) (data : List Word) (read : Bool) (be : Fin 16) (ecc : Fin 3) (poison : Bool)
    (coll : Option (BitVec 64)) (s : State) : Host.Outcome State Fault Refusal :=
  let t := s.bus (.hp p) .bar0 (0x2000000 + off) data read be ecc poison
  .next (match coll, s.scratchServed p off data.length read be poison with
    | some w, some (b, o) => t.bankCollide b o read 2 w
    | _, _ => t)

/-- ACQ_WINDOW_ACCESS: an access of port p to its acquisition-memory window (R365). -/
def execAcqWindowAccess (p : Fin 4) (off : Fin 0x1000000) (data : List Word) (read : Bool) (be : Fin 16) (ecc : Fin 3) (poison : Bool) (s : State) : Host.Outcome State Fault Refusal :=
  .next (s.bus (.hp p) .bar0 (0x3000000 + off) data read be ecc poison)

/-- WINDOW_WAIT_TIMEOUT: a window access has waited 1 ms (R365). -/
def execWindowWaitTimeout (p : Fin 4) (s : State) : Host.Outcome State Fault Refusal := .next (s.winTimeout p)

/-! ## Steps: what the part finishes by itself -/

/-- PATROL_SCRUB: the SRAM patrol reads one word (R329). -/
def execPatrolScrub (mem : Fin 4) (index : Fin 256) (off : Nat) (met : ScrubRead) (s : State) :
    Host.Outcome State Fault Refusal := .next (s.patrol mem index off met.ecc met.coll)

/-- DIAPAUSE_WAKE_DONE: a woken array serves its first access (R337). -/
def execDiapauseWakeDone (mem : Fin 2) (index : Fin 256) (s : State) : Host.Outcome State Fault Refusal :=
  .next (s.wakeDone mem index)

/-- MT_SLICE_DONE: the march engine finishes a slice; `fails` are its failing byte offsets (R344, R345). -/
def execMtSliceDone (p : Fin 4) (fails : List Nat) (s : State) : Host.Outcome State Fault Refusal :=
  .next ((s.mtSliceDone p fails).serveAll 0)

/-- DC_PATROL: the DRAM patrol reads a unit; it took `ns` nanoseconds (R368). -/
def execDcPatrol (a : Nat) (outcome : Fin 3) (ns : Nat) (s : State) : Host.Outcome State Fault Refusal :=
  .next (s.dcPatrol a outcome ns)

/-- REQUEST_PROMOTE: request i of a channel passes its age limit (R371). -/
def execRequestPromote (c : Fin 16) (i : Nat) (s : State) : Host.Outcome State Fault Refusal := .next (s.promote c i)

/-- READ_COMPLETION: a completion arrives at port p (R402, R405). -/
def execReadCompletion (p : Fin 4) (tag : Fin 1024) (bytes : List Byte) (poison : Bool) (s : State) : Host.Outcome State Fault Refusal :=
  .next (s.readComes p tag bytes poison)

/-- DIGEST_SNAP_DONE: the digest snapshot of a partition is ready (R426). -/
def execDigestSnapDone (p : Fin 4) (s : State) : Host.Outcome State Fault Refusal :=
  .next (s.setPort p (fun P => { P with snapping := false }))

/-- MAILBOX_DONE: the mailbox service of partition p ends (R479). -/
def execMailboxDone (p : Fin 4) (met : MailMeet) (s : State) : Host.Outcome State Fault Refusal :=
  .next (s.mailEnd p met.flashFail met.ecc)

end Sys2Proof.Machine
end

