-- ==== Sys2Proof/Machine/Dispatch.lean ====
section
/-! DEFINITION. One arm for each command: its meaning, on everything but the queue. -/

namespace Sys2Proof.Machine

def exec (i : Instr) (s : State) : Host.Outcome State Fault Refusal :=
  match i with
  | .registerWrite m bar off data be ecc poison => Sys2Proof.Machine.execRegisterWrite m bar off data be ecc poison s
  | .latchingRead m bar off words be ecc => Sys2Proof.Machine.execLatchingRead m bar off words be ecc s
  | .edgeEvent c vp vn b res ecc => Sys2Proof.Machine.execEdgeEvent c vp vn b res ecc s
  | .collapseEntry c back b vp vn res ecc => Sys2Proof.Machine.execCollapseEntry c back b vp vn res ecc s
  | .chAtGo m k w => Sys2Proof.Machine.execChAtGo m k w s
  | .chAtDone c counts => Sys2Proof.Machine.execChAtDone c counts s
  | .chCntClr m k w => Sys2Proof.Machine.execChCntClr m k w s
  | .tdcCalGo m w => Sys2Proof.Machine.execTdcCalGo m w s
  | .tdcCalAuto g => Sys2Proof.Machine.execTdcCalAuto g s
  | .tdcCalDone g hists lens => Sys2Proof.Machine.execTdcCalDone g hists lens s
  | .tdcCntClr m w => Sys2Proof.Machine.execTdcCntClr m w s
  | .lineLengthMeasure lens => Sys2Proof.Machine.execLineLengthMeasure lens s
  | .sensorSample temps => Sys2Proof.Machine.execSensorSample temps s
  | .lossOfReference => Sys2Proof.Machine.execLossOfReference s
  | .refFreqWindow n => Sys2Proof.Machine.execRefFreqWindow n s
  | .refQualified => Sys2Proof.Machine.execRefQualified s
  | .applyQualifyTimeout => Sys2Proof.Machine.execApplyQualifyTimeout s
  | .pllLock which => Sys2Proof.Machine.execPllLock which s
  | .pllLossOfLock which => Sys2Proof.Machine.execPllLossOfLock which s
  | .tbpllLossOfLock => Sys2Proof.Machine.execTbpllLossOfLock s
  | .relockBoundary d => Sys2Proof.Machine.execRelockBoundary d s
  | .lolSuspendEnd => Sys2Proof.Machine.execLolSuspendEnd s
  | .counterWrap => Sys2Proof.Machine.execCounterWrap s
  | .rampUpdate => Sys2Proof.Machine.execRampUpdate s
  | .sampledSync own phase => Sys2Proof.Machine.execSampledSync own phase s
  | .syncRestart => Sys2Proof.Machine.execSyncRestart s
  | .tbSyncFire m gen => Sys2Proof.Machine.execTbSyncFire m gen s
  | .tbApply m gen => Sys2Proof.Machine.execTbApply m gen s
  | .tbSgApply m gen => Sys2Proof.Machine.execTbSgApply m gen s
  | .rampGo m gen => Sys2Proof.Machine.execRampGo m gen s
  | .rampStop m gen => Sys2Proof.Machine.execRampStop m gen s
  | .ptmDialogue p fine => Sys2Proof.Machine.execPtmDialogue p fine s
  | .ptmResponse p master delay => Sys2Proof.Machine.execPtmResponse p master delay s
  | .chGrpGo m w => Sys2Proof.Machine.execChGrpGo m w s
  | .heldRelease g => Sys2Proof.Machine.execHeldRelease g s
  | .groupRun g => Sys2Proof.Machine.execGroupRun g s
  | .chGrpHalt m w => Sys2Proof.Machine.execChGrpHalt m w s
  | .grpDrained g => Sys2Proof.Machine.execGrpDrained g s
  | .channelEnableStamp c => Sys2Proof.Machine.execChannelEnableStamp c s
  | .cmpMissing g => Sys2Proof.Machine.execCmpMissing g s
  | .marginEmit g => Sys2Proof.Machine.execMarginEmit g s
  | .packItem g ecc bad => Sys2Proof.Machine.execPackItem g ecc bad s
  | .blockFlush g => Sys2Proof.Machine.execBlockFlush g s
  | .blockWritten g => Sys2Proof.Machine.execBlockWritten g s
  | .resourceEnableStamp k n => Sys2Proof.Machine.execResourceEnableStamp k n s
  | .pcDurHit p => Sys2Proof.Machine.execPcDurHit p s
  | .iqTimeout q => Sys2Proof.Machine.execIqTimeout q s
  | .counterTerminal n => Sys2Proof.Machine.execCounterTerminal n s
  | .matcherMessage => Sys2Proof.Machine.execMatcherMessage s
  | .seqDecision q residue => Sys2Proof.Machine.execSeqDecision q residue s
  | .trgArm m w => Sys2Proof.Machine.execTrgArm m w s
  | .trgArmed q => Sys2Proof.Machine.execTrgArmed q s
  | .seqRunEntry q => Sys2Proof.Machine.execSeqRunEntry q s
  | .trgDone q => Sys2Proof.Machine.execTrgDone q s
  | .trgHalt m w => Sys2Proof.Machine.execTrgHalt m w s
  | .trgIoApply m gen => Sys2Proof.Machine.execTrgIoApply m gen s
  | .trigIoInput k level => Sys2Proof.Machine.execTrigIoInput k level s
  | .trigIoLaunch k => Sys2Proof.Machine.execTrigIoLaunch k s
  | .trigIoPulseEnd k => Sys2Proof.Machine.execTrigIoPulseEnd k s
  | .iuEnable m u w => Sys2Proof.Machine.execIuEnable m u w s
  | .iuDisable m u w => Sys2Proof.Machine.execIuDisable m u w s
  | .iuEnableStamp u => Sys2Proof.Machine.execIuEnableStamp u s
  | .iuDisableStamp u => Sys2Proof.Machine.execIuDisableStamp u s
  | .iuDecide u fail => Sys2Proof.Machine.execIuDecide u fail s
  | .iuSnap m w => Sys2Proof.Machine.execIuSnap m w s
  | .iuSnapClr m w => Sys2Proof.Machine.execIuSnapClr m w s
  | .iuSnapshotDone u => Sys2Proof.Machine.execIuSnapshotDone u s
  | .idleSymbol x => Sys2Proof.Machine.execIdleSymbol x s
  | .symbolDelivery x => Sys2Proof.Machine.execSymbolDelivery x s
  | .symbolRelease e => Sys2Proof.Machine.execSymbolRelease e s
  | .meGo m k w => Sys2Proof.Machine.execMeGo m k w s
  | .meStop m k w => Sys2Proof.Machine.execMeStop m k w s
  | .meSpdAccess m e read data ecc => Sys2Proof.Machine.execMeSpdAccess m e read data ecc s
  | .meKick m e w => Sys2Proof.Machine.execMeKick m e w s
  | .meAdd e h => Sys2Proof.Machine.execAdd e h s
  | .meSub e h => Sys2Proof.Machine.execSub e h s
  | .meAnd e h => Sys2Proof.Machine.execAnd e h s
  | .meOr e h => Sys2Proof.Machine.execOr e h s
  | .meXor e h => Sys2Proof.Machine.execXor e h s
  | .meSll e h => Sys2Proof.Machine.execSll e h s
  | .meSrl e h => Sys2Proof.Machine.execSrl e h s
  | .meSra e h => Sys2Proof.Machine.execSra e h s
  | .meMul e h => Sys2Proof.Machine.execMul e h s
  | .meSlt e h => Sys2Proof.Machine.execSlt e h s
  | .meSltu e h => Sys2Proof.Machine.execSltu e h s
  | .meAddi e h => Sys2Proof.Machine.execAddi e h s
  | .meAndi e h => Sys2Proof.Machine.execAndi e h s
  | .meOri e h => Sys2Proof.Machine.execOri e h s
  | .meXori e h => Sys2Proof.Machine.execXori e h s
  | .meSlli e h => Sys2Proof.Machine.execSlli e h s
  | .meSrli e h => Sys2Proof.Machine.execSrli e h s
  | .meSrai e h => Sys2Proof.Machine.execSrai e h s
  | .meLui e h => Sys2Proof.Machine.execLui e h s
  | .meExt e h => Sys2Proof.Machine.execExt e h s
  | .meIns e h => Sys2Proof.Machine.execIns e h s
  | .meRev e h => Sys2Proof.Machine.execRev e h s
  | .meCrc e h => Sys2Proof.Machine.execCrc e h s
  | .meLw e h => Sys2Proof.Machine.execLw e h s
  | .meSw e h => Sys2Proof.Machine.execSw e h s
  | .meLhu e h => Sys2Proof.Machine.execLhu e h s
  | .meSh e h => Sys2Proof.Machine.execSh e h s
  | .meLbu e h => Sys2Proof.Machine.execLbu e h s
  | .meSb e h => Sys2Proof.Machine.execSb e h s
  | .meBeq e h => Sys2Proof.Machine.execBeq e h s
  | .meBne e h => Sys2Proof.Machine.execBne e h s
  | .meBlt e h => Sys2Proof.Machine.execBlt e h s
  | .meBge e h => Sys2Proof.Machine.execBge e h s
  | .meBltu e h => Sys2Proof.Machine.execBltu e h s
  | .meBgeu e h => Sys2Proof.Machine.execBgeu e h s
  | .meJal e h => Sys2Proof.Machine.execJal e h s
  | .meJalr e h => Sys2Proof.Machine.execJalr e h s
  | .meSpop e h => Sys2Proof.Machine.execSpop e h s
  | .meSget e h => Sys2Proof.Machine.execSget e h s
  | .meSdif e h => Sys2Proof.Machine.execSdif e h s
  | .meTset e h => Sys2Proof.Machine.execTset e h s
  | .meMwr e h => Sys2Proof.Machine.execMwr e h s
  | .meMsnd e h => Sys2Proof.Machine.execMsnd e h s
  | .meLsnd e h => Sys2Proof.Machine.execLsnd e h s
  | .meLget e h => Sys2Proof.Machine.execLget e h s
  | .meCsr e h => Sys2Proof.Machine.execCsr e h s
  | .meWait e h => Sys2Proof.Machine.execWait e h s
  | .meHalt e h => Sys2Proof.Machine.execHalt e h s
  | .engineUnblock e => Sys2Proof.Machine.execEngineUnblock e s
  | .timerPending e t => Sys2Proof.Machine.execTimerPending e t s
  | .gangMsgRelease e => Sys2Proof.Machine.execGangMsgRelease e s
  | .qmAccept e => Sys2Proof.Machine.execQmAccept e s
  | .pageFill q page => Sys2Proof.Machine.execPageFill q page s
  | .queueEnable m q w => Sys2Proof.Machine.execQueueEnable m q w s
  | .queueDisable m q w => Sys2Proof.Machine.execQueueDisable m q w s
  | .queueDrained q => Sys2Proof.Machine.execQueueDrained q s
  | .ringWrite q n hurt index => Sys2Proof.Machine.execRingWrite q n hurt index s
  | .interruptModTimeout q => Sys2Proof.Machine.execInterruptModTimeout q s
  | .doorbell p q x => Sys2Proof.Machine.execDoorbell p q x s
  | .sgGo m w => Sys2Proof.Machine.execSgGo m w s
  | .sgStart g => Sys2Proof.Machine.execSgStart g s
  | .jumpLatchClose g => Sys2Proof.Machine.execJumpLatchClose g s
  | .segmentEnd g => Sys2Proof.Machine.execSegmentEnd g s
  | .sgJump m g => Sys2Proof.Machine.execSgJump m g s
  | .seqJumpArrival g => Sys2Proof.Machine.execSeqJumpArrival g s
  | .sgHalt m w => Sys2Proof.Machine.execSgHalt m w s
  | .sgStopped g => Sys2Proof.Machine.execSgStopped g s
  | .streamEnable m g w => Sys2Proof.Machine.execStreamEnable m g w s
  | .sgStrDb m g w => Sys2Proof.Machine.execSgStrDb m g w s
  | .streamChunkRead g => Sys2Proof.Machine.execStreamChunkRead g s
  | .prefetchData g n => Sys2Proof.Machine.execPrefetchData g n s
  | .sgUnderrun g => Sys2Proof.Machine.execSgUnderrun g s
  | .sgResume g => Sys2Proof.Machine.execSgResume g s
  | .sgCal m g grp => Sys2Proof.Machine.execSgCal m g grp s
  | .sgCalDone g trims => Sys2Proof.Machine.execSgCalDone g trims s
  | .sgLsAccess m g read data ecc => Sys2Proof.Machine.execSgLsAccess m g read data ecc s
  | .patrolScrub mem index off met => Sys2Proof.Machine.execPatrolScrub mem index off met s
  | .sbDiaEnter m w => Sys2Proof.Machine.execSbDiaEnter m w s
  | .sbDiaSpEnter m k w => Sys2Proof.Machine.execSbDiaSpEnter m k w s
  | .sbDiaWake m w => Sys2Proof.Machine.execSbDiaWake m w s
  | .sbDiaSpWake m k w => Sys2Proof.Machine.execSbDiaSpWake m k w s
  | .diapauseWakeDone mem index => Sys2Proof.Machine.execDiapauseWakeDone mem index s
  | .startupMarchDone fails => Sys2Proof.Machine.execStartupMarchDone fails s
  | .mtGo m p w => Sys2Proof.Machine.execMtGo m p w s
  | .mtAbort m p w => Sys2Proof.Machine.execMtAbort m p w s
  | .mtSliceDone p fails => Sys2Proof.Machine.execMtSliceDone p fails s
  | .sbCocoonWipe ecc verifyFail => Sys2Proof.Machine.execSbCocoonWipe ecc verifyFail s
  | .scratchWindowAccess p off data read be ecc poison coll => Sys2Proof.Machine.execScratchWindowAccess p off data read be ecc poison coll s
  | .dramAccessDone c port cls a outcome ns => Sys2Proof.Machine.execDramAccessDone c port cls a outcome ns s
  | .dcPatrol a outcome ns => Sys2Proof.Machine.execDcPatrol a outcome ns s
  | .fillGo m p w => Sys2Proof.Machine.execFillGo m p w s
  | .dcFillDone p fail => Sys2Proof.Machine.execDcFillDone p fail s
  | .startupZeroingDone => Sys2Proof.Machine.execStartupZeroingDone s
  | .requestPromote c k => Sys2Proof.Machine.execRequestPromote c k s
  | .refreshDue c r => Sys2Proof.Machine.execRefreshDue c r s
  | .mr4Poll c r m hot => Sys2Proof.Machine.execMr4Poll c r m hot s
  | .dcEnable m c w => Sys2Proof.Machine.execDcEnable m c w s
  | .dcDisable m c w => Sys2Proof.Machine.execDcDisable m c w s
  | .selfRefreshAck c => Sys2Proof.Machine.execSelfRefreshAck c s
  | .fullTrainingDone c fail wr rd ca vref => Sys2Proof.Machine.execFullTrainingDone c fail wr rd ca vref s
  | .fastRetrainDone c ok => Sys2Proof.Machine.execFastRetrainDone c ok s
  | .trnMrw m c rank bank pat arg => Sys2Proof.Machine.execTrnMrw m c rank bank pat arg s
  | .trnMrr m c rank bank pat arg => Sys2Proof.Machine.execTrnMrr m c rank bank pat arg s
  | .trnWrite m c rank bank pat arg => Sys2Proof.Machine.execTrnWrite m c rank bank pat arg s
  | .trnRead m c rank bank pat arg => Sys2Proof.Machine.execTrnRead m c rank bank pat arg s
  | .trnFifoWrite m c rank bank pat arg => Sys2Proof.Machine.execTrnFifoWrite m c rank bank pat arg s
  | .trnFifoRead m c rank bank pat arg => Sys2Proof.Machine.execTrnFifoRead m c rank bank pat arg s
  | .trnSrEntry m c rank bank pat arg => Sys2Proof.Machine.execTrnSrEntry m c rank bank pat arg s
  | .trnSrExit m c rank bank pat arg => Sys2Proof.Machine.execTrnSrExit m c rank bank pat arg s
  | .trnZq m c rank bank pat arg => Sys2Proof.Machine.execTrnZq m c rank bank pat arg s
  | .trnCmdDone c mrr errs beats => Sys2Proof.Machine.execTrnCmdDone c mrr errs beats s
  | .acqWindowAccess p off data read be ecc poison => Sys2Proof.Machine.execAcqWindowAccess p off data read be ecc poison s
  | .windowWaitTimeout p => Sys2Proof.Machine.execWindowWaitTimeout p s
  | .perstAssert p => Sys2Proof.Machine.execPerstAssert p s
  | .perstRelease p => Sys2Proof.Machine.execPerstRelease p s
  | .hpLinkUp p speed width => Sys2Proof.Machine.execHpLinkUp p speed width s
  | .hotReset p => Sys2Proof.Machine.execHotReset p s
  | .linkDown p => Sys2Proof.Machine.execLinkDown p s
  | .writeAcknowledged p => Sys2Proof.Machine.execWriteAcknowledged p s
  | .fenceRelease m p => Sys2Proof.Machine.execFenceRelease m p s
  | .bmeClear p => Sys2Proof.Machine.execBmeClear p s
  | .bmeGraceEnd p => Sys2Proof.Machine.execBmeGraceEnd p s
  | .bmeSet p => Sys2Proof.Machine.execBmeSet p s
  | .d3hotEntry p => Sys2Proof.Machine.execD3hotEntry p s
  | .d0Return p => Sys2Proof.Machine.execD0Return p s
  | .msixUnmask p => Sys2Proof.Machine.execMsixUnmask p s
  | .readCompletion p tag bytes poison => Sys2Proof.Machine.execReadCompletion p tag bytes poison s
  | .completionTimeout p tag => Sys2Proof.Machine.execCompletionTimeout p tag s
  | .nop q => Sys2Proof.Machine.execNop q s
  | .attach q => Sys2Proof.Machine.execAttach q s
  | .detach q => Sys2Proof.Machine.execDetach q s
  | .digest q => Sys2Proof.Machine.execDigest q s
  | .loadFull q => Sys2Proof.Machine.execLoadFull q s
  | .loadPartition q => Sys2Proof.Machine.execLoadPartition q s
  | .groupGo q => Sys2Proof.Machine.execGroupGo q s
  | .groupHalt q => Sys2Proof.Machine.execGroupHalt q s
  | .arm q => Sys2Proof.Machine.execArm q s
  | .disarm q => Sys2Proof.Machine.execDisarm q s
  | .sgGoCommand q => Sys2Proof.Machine.execSgGoCommand q s
  | .sgHaltCommand q => Sys2Proof.Machine.execSgHaltCommand q s
  | .jump q => Sys2Proof.Machine.execJump q s
  | .sharedApply q => Sys2Proof.Machine.execSharedApply q s
  | .sharedRampGo q => Sys2Proof.Machine.execSharedRampGo q s
  | .sharedRampStop q => Sys2Proof.Machine.execSharedRampStop q s
  | .sharedFire q => Sys2Proof.Machine.execSharedFire q s
  | .readout q => Sys2Proof.Machine.execReadout q s
  | .readoutDone q => Sys2Proof.Machine.execReadoutDone q s
  | .provision q => Sys2Proof.Machine.execProvision q s
  | .reprovision q => Sys2Proof.Machine.execReprovision q s
  | .finalise q => Sys2Proof.Machine.execFinalise q s
  | .lcReturn q => Sys2Proof.Machine.execReturn q s
  | .digestSnap m => Sys2Proof.Machine.execDigestSnap m s
  | .digestSnapDone p => Sys2Proof.Machine.execDigestSnapDone p s
  | .imageStaged flashFail => Sys2Proof.Machine.execImageStaged flashFail s
  | .scImgLoaded => Sys2Proof.Machine.execScImgLoaded s
  | .islandTimeout m bar off data read => Sys2Proof.Machine.execIslandTimeout m bar off data read s
  | .islandHeartbeatLoss k => Sys2Proof.Machine.execIslandHeartbeatLoss k s
  | .cfgiPass p strikes => Sys2Proof.Machine.execCfgiPass p strikes s
  | .cfgiCapture m p => Sys2Proof.Machine.execCfgiCapture m p s
  | .cfgiValue m p => Sys2Proof.Machine.execCfgiValue m p s
  | .porstAssert => Sys2Proof.Machine.execPorstAssert s
  | .porstRelease refsel portcfg => Sys2Proof.Machine.execPorstRelease refsel portcfg s
  | .scFwOk => Sys2Proof.Machine.execScFwOk s
  | .info m p => Sys2Proof.Machine.execInfo m p s
  | .flashRead m p => Sys2Proof.Machine.execFlashRead m p s
  | .flashErase m p => Sys2Proof.Machine.execFlashErase m p s
  | .flashWrite m p => Sys2Proof.Machine.execFlashWrite m p s
  | .imageLoad m p => Sys2Proof.Machine.execImageLoad m p s
  | .fwRecover m p => Sys2Proof.Machine.execFwRecover m p s
  | .mailboxDone p met => Sys2Proof.Machine.execMailboxDone p met s
  | .tamperPin low => Sys2Proof.Machine.execTamperPin low s
  | .tamperSupply => Sys2Proof.Machine.execTamperSupply s
  | .tamperClock => Sys2Proof.Machine.execTamperClock s
  | .lockstepMismatch => Sys2Proof.Machine.execLockstepMismatch s
  | .thermalEnd => Sys2Proof.Machine.execThermalEnd s
  | .pgEstimate draws x => Sys2Proof.Machine.execPgEstimate draws x s
  | .pgCalibrate ack vout iout => Sys2Proof.Machine.execPgCalibrate ack vout iout s
  | .tokenGrant c n x => Sys2Proof.Machine.execTokenGrant c n x s
  | .pgApply m gen => Sys2Proof.Machine.execPgApply m gen s
  | .vcoreStep work ack meas => Sys2Proof.Machine.execVcoreStep work ack meas s
  | .pmbRetry ok => Sys2Proof.Machine.execPmbRetry ok s
  | .monSample m occ => Sys2Proof.Machine.execMonSample m occ s
  | .monSnap m w => Sys2Proof.Machine.execMonSnap m w s
  | .monSnapClr m w => Sys2Proof.Machine.execMonSnapClr m w s
  | .monSnapshotDone m => Sys2Proof.Machine.execMonSnapshotDone m s
  | .illegalInstruction e => Sys2Proof.Machine.execIllegalInstruction e s
  | .sealerChainStep => Sys2Proof.Machine.execSealerChainStep s
  | .perBankRefreshDone c r => Sys2Proof.Machine.execPerBankRefreshDone c r s
  | .tagRetirementEnd p tag => Sys2Proof.Machine.execTagRetirementEnd p tag s

end Sys2Proof.Machine
end

