-- ==== Sys2Proof/Machine/Step.lean ====
section
/-! DEFINITION. One step: the command at the front of the queue, or, on an empty queue, one TBCLK edge (log entry 1). -/

namespace Sys2Proof.Machine

/-- What the block does while no command waits: the counter counts TBCLK edges once TBPLL has first locked (R54), and the jump
requests whose arrival stamps it reaches arrive (R303). -/
def State.idle (s : State) : State := if s.tb.ever then s.tick.jumpsArrive else s

/-- One step. -/
def step (s : State) : Host.Outcome State Fault Refusal :=
  match s.pending with
  | [] => .next s.idle
  | c :: r => exec c { s with pending := r }

/-- The command that a word spells, put at the front of the queue; the state unchanged where the word spells none. -/
def State.withFetchWord (s : State) (nbits w : Nat) : State :=
  match decodeTableWord nbits w with
  | none => s
  | some c => { s with pending := c :: s.pending }

end Sys2Proof.Machine
end

