-- ==== Sys2Proof/Safety.lean ====
section
/-! DEFINITION. What a sound state is: legal modes, and the canonical form of the acquisition memory. -/

namespace Sys2Proof.Machine

/-- The canonical form of the acquisition memory: addresses strictly rising, and no entry equal to the zero that an unlisted
address reads as (log entry 2). -/
def Memory.wf (m : List Host.Cell) : Bool := Tab.wf (fun _ => 0#8) m

/-- The phases of GLB_STATUS (R442, R475, R476, R504). -/
def legalPhase (n : Nat) : Bool := decide (n ≤ 5) || (decide (12 ≤ n) && decide (n ≤ 15))

/-- The modes of the device are legal: its start-up phase and its life-cycle state (R476, R482). -/
def State.modesLegal (s : State) : Prop := legalPhase s.phase = true ∧ s.sc.fuse.lc ≤ 3

/-- The acquisition memory is in canonical form. -/
def State.memCanonical (s : State) : Prop := Memory.wf s.mem = true

/-- A step goes on: it neither faults nor refuses. -/
def State.goesOn (s : State) : Prop := ∃ t, step s = .next t

end Sys2Proof.Machine
end

