-- ==== Sys2Proof/Certificates/Slice0/Obligations.lean ====
section
/-! DEFINITION. The statements about the model. Each follows the rules that its entry in OBLIGATIONS.json cites. The names of
`Sys2Proof.Claims` are the shared hypotheses and conclusions. -/

namespace Sys2Proof.Claims

open Machine Bits State

/-! ## The Moth engines -/

/-- No march test has the slice of an engine's scratchpad that holds byte `a` in front. -/
def NoMarchAt (s : State) (e : Fin 256) (a : Nat) : Prop :=
  ∀ (p : Fin 4) (k n : Nat) (r : List (Nat × Nat)), s.mt[p].busy = true → s.mt[p].mem = 1 → s.mt[p].index = e.val →
    s.mt[p].slices = (k, n) :: r → k ≠ a / 4096

/-- Engine `e` executes, and the word at its pc is the legal instruction with opcode `op` (R230, R232, R242). -/
def Fetches (s : State) (e : Fin 256) (op : Nat) : Prop :=
  s.eng[e].st = 2 ∧ s.pcOk e = true ∧ (s.engWord e).op = op ∧ (s.engWord e).legal (s.gangSize e) = true ∧
    s.sleeping 1 e = false ∧ NoMarchAt s e s.eng[e].pc ∧ s.sramBadAt (sramAt 1 e s.eng[e].pc) = false

/-- The fetch is not uncorrectable and the residue check passes, at once or on the retry (R244, R245). -/
def Clean (h : Haz) : Prop := h.fetch.val ≠ 2 ∧ h.res.val ≠ 2

/-- The engine executes its instruction, which meets no error that stops it. -/
def Runs (s : State) (e : Fin 256) (op : Nat) (h : Haz) : Prop := Fetches s e op ∧ Clean h

/-- What no engine instruction but its own operation changes: the other engines, both memories, the other blocks. -/
def OthersKept (s t : State) (e : Fin 256) : Prop :=
  (∀ k : Fin 256, k ≠ e → t.eng[k] = s.eng[k]) ∧ t.mem = s.mem ∧ t.ch = s.ch ∧ t.grp = s.grp ∧ t.trg = s.trg ∧ t.tb = s.tb ∧
    t.iu = s.iu ∧ t.sg = s.sg ∧ t.port = s.port ∧ t.phase = s.phase ∧ t.sc = s.sc

/-- Register D of the engine takes `v`, g0 apart, and the engine goes on at `next`; nothing else of the engine changes
(R229, R243). -/
def Writes (s t : State) (e : Fin 256) (v : Word) (next : Nat) : Prop :=
  (∀ n : Nat, n < 16 → t.gpr e n = if n = (s.engWord e).d ∧ n ≠ 0 then v else s.gpr e n) ∧
    t.eng[e] = { s.eng[e] with regs := t.eng[e].regs, pc := next } ∧ t.sram = s.sram ∧ OthersKept s t e

/-- An instruction with opcode `op` that writes `v` to register D and goes on behind itself. -/
def WritesRow (c : Fin 256 → Haz → Instr) (op : Nat) (v : State → Fin 256 → EngWord → Word) : Prop :=
  ∀ (s : State) (e : Fin 256) (h : Haz), Runs s e op h →
    ∃ t, exec (c e h) s = .next t ∧ Writes s t e (v s e (s.engWord e)) (s.eng[e].pc + 4)

/-- An instruction with opcode `op` that writes register D bit by bit: bit k is `f k`. -/
def BitsRow (c : Fin 256 → Haz → Instr) (op : Nat) (f : State → Fin 256 → EngWord → Nat → Bool) : Prop :=
  ∀ (s : State) (e : Fin 256) (h : Haz), Runs s e op h →
    ∃ t v, exec (c e h) s = .next t ∧ Writes s t e v (s.eng[e].pc + 4) ∧ ∀ k : Nat, k < 32 → v.getLsbD k = f s e (s.engWord e) k

/-- A branch with opcode `op`: taken, it goes on at its own address plus 4 × OFF, modulo 2^32; else behind itself (R242). -/
def BranchRow (c : Fin 256 → Haz → Instr) (op : Nat) (test : Word → Word → Prop) : Prop :=
  ∀ (s : State) (e : Fin 256) (h : Haz), Runs s e op h → ∃ t, exec (c e h) s = .next t ∧
    (test (s.gpr e (s.engWord e).d) (s.gpr e (s.engWord e).a) →
      t.eng[e] = { s.eng[e] with pc := (BitVec.ofInt 32 ((s.eng[e].pc : Int) + 4 * signed 18 (s.engWord e).imm)).toNat }) ∧
    (¬ test (s.gpr e (s.engWord e).d) (s.gpr e (s.engWord e).a) → t.eng[e] = { s.eng[e] with pc := s.eng[e].pc + 4 }) ∧
    t.sram = s.sram ∧ OthersKept s t e

/-- The address of a load or store: a + sext(IMM), modulo 2^32 (R243). -/
def effAddr (s : State) (e : Fin 256) : Nat :=
  (s.gpr e (s.engWord e).a + BitVec.ofInt 32 (signed 18 (s.engWord e).imm)).toNat

/-- The address is aligned for `n` bytes, lies in the data region (R232), is not under test, and its word is good. -/
def Reachable (s : State) (e : Fin 256) (n : Nat) (h : Haz) : Prop :=
  effAddr s e % n = 0 ∧ s.inData e (effAddr s e) n = true ∧ NoMarchAt s e (effAddr s e) ∧
    s.sramBadAt (sramAt 1 e (effAddr s e)) = false ∧ h.data.val ≠ 2

/-- A load of `n` bytes, zero-extended. -/
def LoadRow (c : Fin 256 → Haz → Instr) (op n : Nat) : Prop :=
  ∀ (s : State) (e : Fin 256) (h : Haz), Runs s e op h → Reachable s e n h →
    ∃ t, exec (c e h) s = .next t ∧
      Writes s t e (word ((s.padRd e (effAddr s e)).toNat / 2 ^ (8 * (effAddr s e % 4)) % 2 ^ (8 * n))) (s.eng[e].pc + 4)

/-- A store of the low `n` bytes of register D: no other word of an on-chip memory changes. -/
def StoreRow (c : Fin 256 → Haz → Instr) (op n : Nat) : Prop :=
  ∀ (s : State) (e : Fin 256) (h : Haz), Runs s e op h → Reachable s e n h →
    ∃ t, exec (c e h) s = .next t ∧
      t.padRd e (effAddr s e) =
        setFld (s.padRd e (effAddr s e)) (8 * (effAddr s e % 4) + 8 * n - 1) (8 * (effAddr s e % 4)) (s.gpr e (s.engWord e).d).toNat ∧
      (∀ a : Nat, a / 4 ≠ sramAt 1 e (effAddr s e) / 4 → t.sramRd a = s.sramRd a) ∧
      t.eng[e] = { s.eng[e] with pc := s.eng[e].pc + 4 } ∧ OthersKept s t e

/-- The state in which a WAIT that has been fetched looks for events: a residue retry is counted, and the port has every symbol that
the edges decide by now (R227, R233, R244). -/
def looking (s : State) (e : Fin 256) (h : Haz) : State :=
  let u := (s.sramCheck 1 e s.eng[e].pc h.fetch 0).2
  (if h.res.val = 1 then u.bump (engReg R.ME_RES_CNT e) else u).portFed e

/-- The engine waits: it stays at the instruction, in WAIT (R230). -/
def Waits (s t : State) (e : Fin 256) : Prop := t.eng[e] = { s.eng[e] with st := 3 }

/-- An engine in FAULT with a cause: ME_PC and ME_CAUSE record it (R246). -/
def Faulted (s t : State) (e : Fin 256) (cause : Nat) : Prop :=
  t.eng[e] = { s.eng[e] with st := 5 } ∧ t.rd (engReg R.ME_CAUSE e) = word cause ∧ t.rd (engReg R.ME_PC e) = word s.eng[e].pc

/-- The instructions that R243 checks by residue, with their opcodes. -/
def checkedRows : List ((Fin 256 → Haz → Instr) × Nat) :=
  [(.meAdd, 0x01), (.meSub, 0x02), (.meAnd, 0x03), (.meOr, 0x04), (.meXor, 0x05), (.meSll, 0x06), (.meSrl, 0x07), (.meSra, 0x08),
   (.meMul, 0x09), (.meSlt, 0x0A), (.meSltu, 0x0B), (.meAddi, 0x10), (.meAndi, 0x11), (.meOri, 0x12), (.meXori, 0x13),
   (.meSlli, 0x14), (.meSrli, 0x15), (.meSrai, 0x16), (.meExt, 0x18), (.meIns, 0x19), (.meLw, 0x20), (.meSw, 0x21),
   (.meLhu, 0x22), (.meSh, 0x23), (.meLbu, 0x24), (.meSb, 0x25), (.meBeq, 0x28), (.meBne, 0x29), (.meBlt, 0x2A), (.meBge, 0x2B),
   (.meBltu, 0x2C), (.meBgeu, 0x2D), (.meJal, 0x2E), (.meJalr, 0x2F), (.meSdif, 0x32), (.meTset, 0x33), (.meWait, 0x39)]

/-- The instructions that R243 does not check. -/
def plainRows : List ((Fin 256 → Haz → Instr) × Nat) :=
  [(.meLui, 0x17), (.meRev, 0x1A), (.meCrc, 0x1B), (.meSpop, 0x30), (.meSget, 0x31), (.meMwr, 0x34), (.meMsnd, 0x35),
   (.meLsnd, 0x36), (.meLget, 0x37), (.meCsr, 0x38), (.meHalt, 0x3A)]

/-- The loads and stores, with their opcodes and widths in bytes. -/
def memoryRows : List ((Fin 256 → Haz → Instr) × Nat × Nat) :=
  [(.meLw, 0x20, 4), (.meSw, 0x21, 4), (.meLhu, 0x22, 2), (.meSh, 0x23, 2), (.meLbu, 0x24, 1), (.meSb, 0x25, 1)]

/-- The data bits of CRC in the order in which R241 takes them. -/
def crcBits (a : Word) (count : Nat) (msbf : Bool) : List Bool :=
  (List.range count).map (fun k => a.getLsbD (if msbf then count - 1 - k else k))

/-! ## Writes to command registers -/

/-- A one-word write of master `m` reaches the register at BAR0 offset `a`: a host port takes memory accesses, the register's
island has not failed, no earlier part of the master waits, no fault has stopped the device, and in RECOVERY a host port reaches
GLB and the system controller alone (R391, R432, R437, R438, R477, R504). -/
def Open (s : State) (m : Master) (a : Nat) : Prop :=
  s.phase ≠ 15 ∧ (s.phase = 14 → m = .sc ∨ a < 0x10000 ∨ 0x1800000 ≤ a) ∧
    (∀ i, islandOf .bar0 a = some i → s.failed.contains i = false) ∧ s.waitsFor m = false ∧
    ∀ p : Fin 4, m = .hp p → s.portOpen p .bar0 = true

/-- The master is privileged (R6): the owner port or the system controller. -/
def Owner (s : State) (m : Master) : Prop := m = .sc ∨ m = .hp s.owner

/-- The state in which a write to a command register has been taken: no answer is due, and the register keeps its stored bits. -/
def taken (s : State) (a : Nat) : State := ({ s with resp := [] } : State).wr a (s.rd a)

/-- A command register at `a` with one bit for each of `n` units: a write acts on every named unit in order, when all of them are
the master's (R6, R434). -/
def BitRow (c : Master → Word → Instr) (a n : Nat) (own : Own) (op : Nat → State → State) : Prop :=
  ∀ (s : State) (m : Master) (w : Word), Open s m a →
    (∀ j : Nat, j < n → w.getLsbD j = true → s.reaches m (s.partOf own j) = true) →
    exec (c m w) s = .next (forAll (ones n w) (taken s a) op)

/-- A counter has counted one (R7). -/
def CountsOne (s t : State) (a : Nat) : Prop := t.rd a = sat32 (s.rd a) 1

/-- The word that names one unit. -/
def oneBit (n : Nat) : Word := 1#32 <<< n

/-- What the packer of a group works on: everything up to the present has been taken (R27, R105). -/
def packing (s : State) (g : Fin 16) : State := forAll s.settle.grp[g].winDone s.settle (fun _ s => s.marginEmit g)

/-- The registers whose writes only store: none of their fields starts anything or follows a rule of its own. -/
def quietRow (r : RegRow) : Bool :=
  (enBit r).isNone && r.own != .mixed && r.descWord.isNone &&
    !([R.ME_SPD 0 0, R.SG_LS_DATA 0, R.CH_DESKEW 0, R.TRG_PC_MASK 0 0, R.TB_DPLL_CTL 0, R.DC_CFG, R.SG_STR_CTL 0, R.SG_JSRC 0] : List Nat).contains
      r.base

/-- The bits of the fields of a row with one access type. -/
def bitsOf (r : RegRow) (a : Acc) : Word := r.fields.foldl (fun w f => if f.acc = a then w ||| f.bits else w) 0#32

/-- The state in which an access has been taken and nothing has been answered. -/
def heard (s : State) : State := { s with resp := [] }

/-- The travel time of raw bin `b` of a TDC, in 1/64 tu (R25). -/
def travelOf (s : State) (tdc : Fin 128) (b : Nat) : Nat :=
  min 65535 (if b < 255 then (s.tableAt tdc b * (s.rd (R.TDC_LLM_RATIO tdc)).toNat + 0x8000) / 65536
    else (((s.rd (R.TDC_B254 tdc)).toNat % 65536 * (s.rd (R.TDC_LLM_RATIO tdc)).toNat + 0x8000) / 65536 + 65536) / 2)

/-- The stamp of R25 for an edge sampled at count `n` in raw bin `b` of the channel's own TDC. -/
def edgeStamp (s : State) (c : Fin 128) (n : Count) (b : Nat) : Stamp :=
  BitVec.ofInt 64 (((n.toNat * 65536 : Nat) - (travelOf s c b : Int) + 64 * signed 17 (fld (s.rd (R.CH_DESKEW c)) 16 0) +
    signed 16 (fld (s.rd (R.CH_ZERO c)) 15 0) + 32) / 64)

/-- The shortest travel time that raw bin `b` may stand for. -/
def travelLeast (s : State) (tdc : Fin 128) (b : Nat) : Nat := if b = 0 then 0 else travelOf s tdc (b - 1)

/-- The TDC of a channel is past its dead time of 250 ps at the latest instant that the bin of an edge allows, in 1/64 tu; a bin's
instant may lie up to two periods before the last one (R20, log entry 122). -/
def DeadTimeOver (s : State) (c : Fin 128) (n : Count) (b : Nat) : Prop :=
  ∀ u : BitVec 70, s.ch[c].lastTrip = some u →
    163840 ≤ (BitVec.ofInt 70 ((n.toNat * 65536 : Nat) - (travelLeast s c b : Int)) - u + 131072#70).toNat

/-- An edge event of an enabled channel of a running group in EVENTS, sampled at count `n` in raw bin `b`, is stamped and goes to
staging. The group is not split, and the bin's table word is good. -/
def Stages (s : State) (c : Fin 128) (n : Count) (b : Nat) : Prop :=
  s.powered c = true ∧ s.splitG (grpOf c) = false ∧ s.modeG (grpOf c) = 1 ∧ s.ch[c].at_ = none ∧ s.tdcInCal c = false ∧
    s.tb.gaps = [] ∧ s.ch[c].badWords = [] ∧ s.ch[c].ovf = none ∧ s.ch[c].stg.length < 65536 ∧ DeadTimeOver s c n b ∧
    s.inRun (grpOf c) (edgeStamp s c n b) = true ∧ s.enAt c (edgeStamp s c n b) = true

/-- The open points of an auto-threshold sweep (R18). -/
def OpenPoint (counts : List Nat) (frac k : Nat) : Prop := counts.foldl max 0 * frac ≤ counts.getD k 0 * 16

/-- The stored bits of the register at `a`: those of its RW and EG fields. -/
def fieldBits (a : Nat) : Word :=
  match RegTable.find a with | some (r, _) => bitsOf r .RW ||| bitsOf r .EG | none => 0#32

/-- The state in which a write of `w` to the register at `a` has stored its fields, but for its enable, bit `b`. -/
def configured (s : State) (a : Nat) (w : Word) (b : Nat) : State :=
  (heard s).wr a (setFld (splice (fieldBits a) (s.rd a) w) b b (s.f a b b))

/-- The state in which a write of `w` to word 0 of a descriptor that is OFF has stored its fields in the layout of the TYPE
written, but for EN (R285). -/
def descStored (s : State) (q : Nat) (w : Word) : State :=
  ((heard s).wr (qd q 0) (setFld (splice ((descRow 0).layout (typeCode (fld w 2 0))).writable (s.rd (qd q 0)) w) 3 3
    (s.f (qd q 0) 3 3))).retype q (s.qType q)

/-- ME_SPD of engine `e` reaches the word at ME_SPA: the word lies in the data region, is good and awake, and no march test holds
its slice. -/
def SpdReaches (s : State) (m : Master) (e : Fin 256) : Prop :=
  Open s m (engReg R.ME_SPD e) ∧ s.reaches m s.pmap.me[e] = true ∧ s.inData e (s.f (engReg R.ME_SPA e) 16 2 * 4) 4 = true ∧
    s.sleeping 1 e = false ∧ s.mtStalls 1 e (s.f (engReg R.ME_SPA e) 16 2 * 4) false = false ∧
    s.sramBadAt (sramAt 1 e (s.f (engReg R.ME_SPA e) 16 2 * 4)) = false

/-- Nothing waits to be taken in stamp order, and no generator delivers expected items (R27, R106, R117). -/
def Quiet (s : State) : Prop :=
  s.trg.flow = [] ∧ s.trg.enPend = [] ∧ ∀ g : Fin 8, s.sg[g].st ≠ .run ∨ s.entSrc g s.sg[g].entry ≠ 3

/-- Nothing that feeds the sequencers is under way: no comparator counts its DUR, and no qualifier has an open timeout (R121, R123). -/
def Fed (s : State) : Prop :=
  Quiet s ∧ (∀ p : Fin 64, s.trg.pc[p].enter = none) ∧ ∀ q : Fin 32, s.trg.iq[q].tmo = []

/-- A hit of a source at a stamp has been produced (R115). -/
def HitAt (s : State) (src : Nat) (t : Stamp) : Prop := s.trg.hits.any (fun h => h.src == src && h.stamp == t) = true

/-- A marker waits in the stream of a group (R162). -/
def Marked (s : State) (g : Fin 16) (t : Stamp) (k : MarkKind) : Prop := ∃ m ∈ s.grp[g].marks, m.stamp = t ∧ m.kind = k

/-- What an extractor has produced once everything that the edges decide has come (R27, R226). -/
def extracted (s : State) (x : Fin 128) : State := s.settle.xtNow x

/-- Start `a` of unit `u` is the oldest and due, with settings PAIR = FIRST, MODE TI and REC = 0, and `stops` are the stops that the
unit holds; no stamp, snapshot or fault stands in between (R190, R193, R196, R206, R208). -/
def Decides (s : State) (u : Fin 16) (a : EdgeRec) (r : List EdgeRec) (stops : List IuStop) : Prop :=
  Quiet s ∧ s.iu[u].pend = [] ∧ s.iu[u].disS = none ∧ s.iu[u].starts = a :: r ∧ s.iu[u].stops = stops ∧ s.iu[u].evicted = false ∧
    s.iu[u].fault = false ∧ s.iu[u].failNext = false ∧ s.iu[u].snap = none ∧ s.iuDue u a.stamp = true ∧
    (s.iuCfg u a.stamp).recip = false ∧ (s.iuCfg u a.stamp).all_ = false ∧ (s.iuCfg u a.stamp).rec_ = false

/-- Stop `b` lies in the window of start `a`, and the pair is clean: no error, no collapse entry, no gap of the stop channel
(R192, R199). -/
def CleanPair (s : State) (u : Fin 16) (a b : EdgeRec) : Prop :=
  s.inWindow u a b = true ∧ a.err = false ∧ b.err = false ∧ a.coll = none ∧ b.coll = none ∧
    s.blind (Fin.ofNat 128 (s.iuCfg u a.stamp).chB) (shift a.stamp (s.iuCfg u a.stamp).lo) b.stamp = false

/-- A doorbell write at port `p` reaches queue `q` (R396, R397). -/
def Rings (s : State) (p : Fin 4) (q : Fin 16384) : Prop :=
  s.portOpen p .bar2 = true ∧ s.phase ≤ 5 ∧ (∀ i, islandOf .bar2 (0x40 * q) = some i → s.failed.contains i = false) ∧
    s.waitsFor (.hp p) = false

/-- Queue `q` is an OBS queue that is ON and belongs to `p`, without DEDUP and sealing, with REJECT on overflow, and every page
of it stays resident when `n` more slots enter (R254 to R266). -/
def PlainQueue (s : State) (p : Fin 4) (q n : Nat) : Prop :=
  s.qType q = 1 ∧ s.qState q = 1 ∧ s.qPart q = p ∧ s.fb (qd q 0) 11 = false ∧ s.qPolicy q = 0 ∧ (s.qSt q).sealed = none ∧
    (s.qSt q).sealAsk = false ∧ (s.qSt q).owed = none ∧ slotsOf (s.qSt q).msgs + n ≤ 32 * ((s.qSt q).res - 1) ∧ 2 ≤ (s.qSt q).res ∧ q < 16384

/-- A generator plays a segment that is no MTG segment and whose data has come, and no jump request lies ahead of it. -/
def Plays (s : State) (g : Fin 8) : Prop :=
  s.sg[g].st = .run ∧ s.entSrc g s.sg[g].entry ≠ 3 ∧ s.sg[g].starve = none ∧ s.sg[g].jq = [] ∧
    s.segLen g s.sg[g].entry ≤ s.availTo g s.sg[g].okFrom

/-- SG_LS_DATA of generator `g` reaches the word at SG_LS_ADDR: it lies in the LOCAL part of the store, is good, and no march
test holds its slice. -/
def LsReaches (s : State) (m : Master) (g : Fin 8) : Prop :=
  Open s m (R.SG_LS_DATA g) ∧ s.reaches m s.pmap.sg[g] = true ∧ s.f (R.SG_LS_ADDR g) 17 2 * 4 < s.f (R.SG_CFG g) 3 0 * 16384 ∧
    s.mtStalls 3 g (s.f (R.SG_LS_ADDR g) 17 2 * 4) false = false ∧ s.sramBadAt (sramAt 3 g (s.f (R.SG_LS_ADDR g) 17 2 * 4)) = false

/-- The state in which a write of `w` to the register at `a` has stored its fields. -/
def storedAs (s : State) (a : Nat) (w : Word) : State := (heard s).wr a (splice (fieldBits a) (s.rd a) w)

/-- Port `p` takes memory accesses of its windows: no earlier part waits, and start-up has not ended in recovery or in a fault. -/
def WinOpen (s : State) (p : Fin 4) : Prop :=
  s.phase ≠ 14 ∧ s.phase ≠ 15 ∧ s.waitsFor (.hp p) = false ∧ s.portOpen p .bar0 = true

/-- Word `o` of bank `b` is what the scratch window of `p` shows at `off`, and it is awake and not under test (R334). -/
def ScratchReaches (s : State) (p : Fin 4) (off : Fin 0x1000000) (b o : Nat) : Prop :=
  WinOpen s p ∧ off.val % 4 = 0 ∧ s.scratchAt p off = some (b, o) ∧ s.sleeping 0 b = false ∧ s.mtStalls 0 b o false = false

/-- A custom training command with operation code `op` starts on a controller with EN = 0 and TRN_OWN = 1 (R384). -/
def TrnRow (c : Master → Fin 16 → Fin 2 → Fin 16 → Bool → Fin 65536 → Instr) (op : Nat) : Prop :=
  ∀ (s : State) (m : Master) (k : Fin 16) (rank : Fin 2) (bank : Fin 16) (pat : Bool) (arg : Fin 65536), Open s m (R.DC_TRN_CMD k) →
    Owner s m → s.fb (R.DC_CTL k) 0 = false → s.fb (R.DC_CTL k) 1 = true → s.dc[k].trn = none →
    ∃ t, exec (c m k rank bank pat arg) s = .next t ∧ t.dc[k] = { s.dc[k] with trn := some ⟨op, rank, bank, arg⟩ } ∧
      ∀ j : Nat, j < 18 → t.rd (R.DC_TRN_ERR k j) = 0

/-- The same command is ignored while EN is 1, TRN_OWN is 0, or another command runs. -/
def TrnIgnored (c : Master → Fin 16 → Fin 2 → Fin 16 → Bool → Fin 65536 → Instr) : Prop :=
  ∀ (s : State) (m : Master) (k : Fin 16) (rank : Fin 2) (bank : Fin 16) (pat : Bool) (arg : Fin 65536), Open s m (R.DC_TRN_CMD k) →
    Owner s m → s.fb (R.DC_CTL k) 0 = true ∨ s.fb (R.DC_CTL k) 1 = false ∨ s.dc[k].trn.isSome = true →
    ∃ t, exec (c m k rank bank pat arg) s = .next t ∧ t.dc = s.dc

/-- The custom training commands with their operation codes. -/
def trnRows : List ((Master → Fin 16 → Fin 2 → Fin 16 → Bool → Fin 65536 → Instr) × Nat) :=
  [(.trnMrw, 0), (.trnMrr, 1), (.trnWrite, 2), (.trnRead, 3), (.trnFifoWrite, 4), (.trnFifoRead, 5), (.trnSrEntry, 6), (.trnSrExit, 7),
   (.trnZq, 8)]

/-- The port is reached by its host's requests: it exists and is out of PERST#. -/
def Live (s : State) (p : Fin 4) : Prop := s.present p = true ∧ s.port[p].perst = false

/-- Queue `q` is a CMD ring with one fetched command, `d`, of opcode `op`, which has not begun (R276, R418, R420). -/
def Front (s : State) (q : Fin 16384) (op : Nat) (d : List Byte) : Prop :=
  s.qType q = 2 ∧ (s.ringSt q).busy = false ∧ (s.ringSt q).fetched = [d] ∧ leAt d 0 1 = op

/-- The partition of a CMD ring may use commands: no fault has stopped the device, its image is loaded and its driver attached
(R416, R423, R504). -/
def Ready (s : State) (p : Fin 4) : Prop := s.phase ≠ 15 ∧ s.sc.img[p] = 2 ∧ s.port[p].attached = true

/-- The command `d` of ring `q` has completed with a status and a result: its completion waits in the paired ring (R276, R419). -/
def Completes (s t : State) (q : Fin 16384) (d : List Byte) (status : Nat) (result : BitVec 64) : Prop :=
  (t.ringSt q).fetched = [] ∧ (t.ringSt q).busy = false ∧
    (t.ringSt (q.val + 1)).cpl = (s.ringSt (q.val + 1)).cpl ++ [(cplBytes q d status 0 result, false)]

/-- The commands that need an attached driver and a loaded image, and no parameter before that, with their opcodes. -/
def attachedRows : List ((Fin 16384 → Instr) × Nat) :=
  [(.detach, 2), (.groupGo, 5), (.groupHalt, 6), (.arm, 7), (.disarm, 8), (.sgGoCommand, 9), (.sgHaltCommand, 10), (.jump, 11), (.readout, 13)]

/-- The LIFECYCLE commands with their actions and the life-cycle states they lead to. -/
def lifeRows : List ((Fin 16384 → Instr) × Nat × Nat) := [(.provision, 0, 1), (.reprovision, 1, 1), (.finalise, 2, 2), (.lcReturn, 3, 3)]

/-- The SHARED commands without a value block: object, action and effect. -/
def sharedRows : List ((Fin 16384 → Instr) × Nat × Nat × (Nat → State → State)) :=
  [(.sharedRampGo, 1, 1, fun gen s => s.rampGo R.TB_RAMP_GO gen false true), (.sharedRampStop, 1, 2, fun gen s => s.rampGo R.TB_RAMP_GO gen true false),
   (.sharedFire, 3, 1, fun gen s => s.syncFire R.TB_SYNC_FIRE gen)]

/-- A mailbox command begins service `svc` with the arguments in SC_MB_ARG and the status that its acceptance gives (R479). -/
def MailRow (c : Master → Fin 4 → Instr) (svc : Nat) : Prop :=
  ∀ (s : State) (m : Master) (p : Fin 4), Open s m (R.SC_MB_CMD p) → s.reaches m p = true →
    (s.sc.mail[p] = none → ∃ t, exec (c m p) s = .next t ∧
      t.sc.mail[p] = some ⟨svc, (List.range 4).map (fun k => s.rd (R.SC_MB_ARG p k)),
        s.mailVerdict p svc ((List.range 4).map (fun k => s.rd (R.SC_MB_ARG p k)))⟩) ∧
    (s.sc.mail[p].isSome = true → ∃ t, exec (c m p) s = .next t ∧ t.sc = s.sc)

/-- Partition `p` runs mailbox service `svc`, which is legal, with three arguments. -/
def Serves (s : State) (p : Fin 4) (svc a n o : Nat) : Prop :=
  ∃ w, s.sc.mail[p] = some ⟨svc, [word a, word n, word o, w], 0⟩ ∧ a < 4294967296 ∧ n < 4294967296 ∧ o < 4294967296

/-- A range of host scratch of the owner partition is awake, outside every march test, and good. -/
def ScratchFree (s : State) (off n : Nat) : Prop := s.scratchReach s.owner off n = (true, s) ∧ s.scratchBad s.owner off n = []

/-- An unrecoverable fault has stopped the device (R504). -/
def Stopped (t : State) (code : Nat) : Prop := t.phase = 15 ∧ t.f R.PG_FAULT 15 0 = code

/-- The commands that never write the acquisition memory: neither do they access it, nor can they make a packer, a fill, a
sealer or a generator do so. -/
def keepsMemory (c : Instr) : Bool :=
  match c with
  | .chAtDone _ _ | .tdcCalDone _ _ _ | .lineLengthMeasure _ | .lossOfReference | .refFreqWindow _ | .refQualified
  | .applyQualifyTimeout | .pllLock _ | .tbpllLossOfLock | .lolSuspendEnd | .rampUpdate | .sampledSync _ _ | .ptmDialogue _ _
  | .ptmResponse _ _ _ | .heldRelease _ | .trgArmed _ | .seqRunEntry _ | .trgDone _ | .trigIoInput _ _ | .trigIoLaunch _
  | .trigIoPulseEnd _ | .meAdd _ _ | .meSub _ _ | .meAnd _ _
  | .meOr _ _ | .meXor _ _ | .meSll _ _ | .meSrl _ _ | .meSra _ _ | .meMul _ _ | .meSlt _ _ | .meSltu _ _ | .meAddi _ _
  | .meAndi _ _ | .meOri _ _ | .meXori _ _ | .meSlli _ _ | .meSrli _ _ | .meSrai _ _ | .meLui _ _ | .meExt _ _ | .meIns _ _
  | .meRev _ _ | .meCrc _ _ | .meLw _ _ | .meSw _ _ | .meLhu _ _ | .meSh _ _ | .meLbu _ _ | .meSb _ _ | .meBeq _ _ | .meBne _ _
  | .meBlt _ _ | .meBge _ _ | .meBltu _ _ | .meBgeu _ _ | .meJal _ _ | .meJalr _ _ | .meSpop _ _ | .meSget _ _ | .meSdif _ _
  | .meTset _ _ | .meMwr _ _ | .meMsnd _ _ | .meLsnd _ _ | .meLget _ _ | .meCsr _ _ | .meHalt _ _
  | .gangMsgRelease _ | .queueDrained _ | .ringWrite _ _ _ _ | .interruptModTimeout _ | .jumpLatchClose _
  | .seqJumpArrival _ | .streamChunkRead _ | .sgUnderrun _ | .sgResume _ | .patrolScrub _ _ _ _ | .startupMarchDone _
  | .requestPromote _ _ | .refreshDue _ _ | .mr4Poll _ _ _ _ | .perstRelease _ | .hpLinkUp _ _ _
  | .hotReset _ | .linkDown _ | .bmeClear _ | .bmeGraceEnd _ | .bmeSet _ | .d3hotEntry _ | .d0Return _ | .msixUnmask _
  | .completionTimeout _ _ | .nop _ | .attach _ | .detach _ | .jump _ | .digestSnapDone _ | .porstRelease _ _
  | .tamperPin _ | .tamperSupply | .tamperClock | .thermalEnd | .pgEstimate _ _
  | .pgCalibrate _ _ _ | .tokenGrant _ _ _ | .vcoreStep _ _ _ | .pmbRetry _ | .monSample _ _ | .monSnapshotDone _
  | .illegalInstruction _ | .perBankRefreshDone _ _ | .tagRetirementEnd _ _ => true
  | _ => false

/-- The commands that may start firmware, which keep the acquisition memory while no masks have been in force. -/
def startsFirmware (c : Instr) : Bool :=
  match c with
  | .scFwOk | .mailboxDone _ _ => true
  | _ => false

/-- The commands that may change the fuses or the boot flash: LIFECYCLE commands and the end of a mailbox service. -/
def actsOnFuses (c : Instr) : Bool :=
  match c with
  | .provision _ | .reprovision _ | .finalise _ | .lcReturn _ | .mailboxDone _ _ => true
  | _ => false

/-- The commands that may change the sealing key: those of R353, R481 and R485, and the reset of the device. -/
def actsOnKeys (c : Instr) : Bool :=
  match c with
  | .sensorSample _ | .sbCocoonWipe _ _ | .provision _ | .reprovision _ | .finalise _ | .lcReturn _ | .imageStaged _
  | .porstAssert | .scFwOk | .mailboxDone _ _ | .tamperPin _ | .tamperSupply | .tamperClock => true
  | _ => false

/-- The commands that may change the start-up phase: steps of start-up and loads, faults, and resets. -/
def actsOnPhase (c : Instr) : Bool :=
  match c with
  | .sensorSample _ | .pllLock _ | .startupMarchDone _ | .sbCocoonWipe _ _ | .startupZeroingDone
  | .fullTrainingDone _ _ _ _ _ _ | .perstAssert _ | .hotReset _ | .linkDown _ | .readCompletion _ _ _ _
  | .completionTimeout _ _ | .provision _ | .reprovision _ | .finalise _ | .lcReturn _ | .imageStaged _ | .scImgLoaded
  | .islandTimeout _ _ _ _ _ | .islandHeartbeatLoss _ | .porstAssert | .porstRelease _ _ | .scFwOk | .mailboxDone _ _
  | .tamperPin _ | .tamperSupply | .tamperClock | .lockstepMismatch => true
  | _ => false

/-- The commands that may change the partition map or the owner partition: start-up, loads, and resets. -/
def actsOnMap (c : Instr) : Bool :=
  match c with
  | .perstAssert _ | .imageStaged _ | .scImgLoaded | .porstAssert | .scFwOk | .mailboxDone _ _ => true
  | _ => false

end Sys2Proof.Claims

open Sys2Proof Machine Claims Bits State

/-- R243: the arithmetic and logic instructions between registers. -/
def Obligations.EngineRegisterArithmetic : Prop :=
  WritesRow .meAdd 0x01 (fun s e i => s.gpr e i.a + s.gpr e i.b) ∧
  WritesRow .meSub 0x02 (fun s e i => s.gpr e i.a - s.gpr e i.b) ∧
  WritesRow .meAnd 0x03 (fun s e i => s.gpr e i.a &&& s.gpr e i.b) ∧
  WritesRow .meOr 0x04 (fun s e i => s.gpr e i.a ||| s.gpr e i.b) ∧
  WritesRow .meXor 0x05 (fun s e i => s.gpr e i.a ^^^ s.gpr e i.b) ∧
  WritesRow .meSll 0x06 (fun s e i => s.gpr e i.a <<< (s.gpr e i.b &&& 31#32)) ∧
  WritesRow .meSrl 0x07 (fun s e i => s.gpr e i.a >>> (s.gpr e i.b &&& 31#32)) ∧
  WritesRow .meSra 0x08 (fun s e i => (s.gpr e i.a).sshiftRight' (s.gpr e i.b &&& 31#32)) ∧
  WritesRow .meMul 0x09 (fun s e i => word ((s.gpr e i.a).toNat * (s.gpr e i.b).toNat)) ∧
  WritesRow .meSlt 0x0A (fun s e i => if (s.gpr e i.a).toInt < (s.gpr e i.b).toInt then 1#32 else 0#32) ∧
  WritesRow .meSltu 0x0B (fun s e i => if (s.gpr e i.a).toNat < (s.gpr e i.b).toNat then 1#32 else 0#32)

/-- R243: the instructions with an immediate operand, and the bit-field instructions. -/
def Obligations.EngineImmediateAndFields : Prop :=
  WritesRow .meAddi 0x10 (fun s e i => s.gpr e i.a + BitVec.ofInt 32 (signed 18 i.imm)) ∧
  WritesRow .meAndi 0x11 (fun s e i => s.gpr e i.a &&& word i.imm) ∧
  WritesRow .meOri 0x12 (fun s e i => s.gpr e i.a ||| word i.imm) ∧
  WritesRow .meXori 0x13 (fun s e i => s.gpr e i.a ^^^ word i.imm) ∧
  WritesRow .meSlli 0x14 (fun s e i => s.gpr e i.a <<< i.imm) ∧
  WritesRow .meSrli 0x15 (fun s e i => s.gpr e i.a >>> i.imm) ∧
  WritesRow .meSrai 0x16 (fun s e i => (s.gpr e i.a).sshiftRight i.imm) ∧
  WritesRow .meLui 0x17 (fun _ _ i => word (i.imm * 65536)) ∧
  BitsRow .meExt 0x18 (fun s e i k => decide (k ≤ i.imm / 32) && (s.gpr e i.a).getLsbD (i.imm % 32 + k)) ∧
  BitsRow .meIns 0x19 (fun s e i k =>
    if i.imm % 32 ≤ k ∧ k ≤ i.imm % 32 + i.imm / 32 then (s.gpr e i.a).getLsbD (k - i.imm % 32) else (s.gpr e i.d).getLsbD k) ∧
  BitsRow .meRev 0x1A (fun s e i k => decide (k ≤ i.imm) && (s.gpr e i.a).getLsbD (i.imm - k))

/-- R241, R242: CRC, JAL and JALR. -/
def Obligations.EngineCrcAndJumps : Prop :=
  WritesRow .meCrc 0x1B (fun s e i =>
    (crcBits (s.gpr e i.a) (i.imm % 32 + 1) ((s.eng[e].crcc[Fin.ofNat 4 (i.imm / 32)]).testBit 5)).foldl
      (crcStep ((s.eng[e].crcc[Fin.ofNat 4 (i.imm / 32)]).testBit 5) (s.eng[e].crcc[Fin.ofNat 4 (i.imm / 32)] % 32 + 1)
        s.eng[e].crcp[Fin.ofNat 4 (i.imm / 32)]) (s.gpr e i.d)) ∧
  (∀ (s : State) (e : Fin 256) (h : Haz), Runs s e 0x2E h → ∃ t, exec (.meJal e h) s = .next t ∧
    Writes s t e (word (s.eng[e].pc + 4))
      (BitVec.ofInt 32 ((s.eng[e].pc : Int) + 4 * signed 22 ((s.engWord e).a * 262144 + (s.engWord e).imm))).toNat) ∧
  (∀ (s : State) (e : Fin 256) (h : Haz), Runs s e 0x2F h → ∃ t, exec (.meJalr e h) s = .next t ∧
    Writes s t e (word (s.eng[e].pc + 4)) (effAddr s e / 4 * 4))

/-- R242, R243: the six branches. -/
def Obligations.EngineBranches : Prop :=
  BranchRow .meBeq 0x28 (fun x y => x = y) ∧
  BranchRow .meBne 0x29 (fun x y => x ≠ y) ∧
  BranchRow .meBlt 0x2A (fun x y => x.toInt < y.toInt) ∧
  BranchRow .meBge 0x2B (fun x y => y.toInt ≤ x.toInt) ∧
  BranchRow .meBltu 0x2C (fun x y => x.toNat < y.toNat) ∧
  BranchRow .meBgeu 0x2D (fun x y => y.toNat ≤ x.toNat)

/-- R232, R243: loads and stores of an engine in its data region. -/
def Obligations.EngineLoadsAndStores : Prop :=
  LoadRow .meLw 0x20 4 ∧ LoadRow .meLhu 0x22 2 ∧ LoadRow .meLbu 0x24 1 ∧
  StoreRow .meSw 0x21 4 ∧ StoreRow .meSh 0x23 2 ∧ StoreRow .meSb 0x25 1

/-- R234, R243: SPOP, SGET and SDIF; SPOP and SGET field 7 wait while the FIFO is empty. -/
def Obligations.EngineSymbolInstructions : Prop :=
  (∀ (s : State) (e : Fin 256) (h : Haz) (y : Sym) (r : List Sym), Runs s e 0x30 h → s.eng[e].fifo = y :: r → s.eng[e].loss = none →
    s.gangSize e = 1 ∨ h.data.val ≠ 2 → ∃ t, exec (.meSpop e h) s = .next t ∧
      (∀ n : Nat, n < 16 → t.gpr e n = if n = (s.engWord e).d ∧ n ≠ 0 then y.data else s.gpr e n) ∧
      t.eng[e].fifo = r ∧ t.eng[e].latch = some y ∧ t.eng[e].pc = s.eng[e].pc + 4 ∧ t.eng[e].st = 2 ∧
      t.eng[e].slot[Fin.ofNat 4 (s.engWord e).imm] = ⟨y.stamp, bit y.info 30, bit y.info 31⟩ ∧
      t.eng[e].sflags = s.eng[e].sflags |||
        (b2n (bit y.info 30) + 2 * b2n (bit y.info 31) + 4 * b2n (fld y.info 21 16 == 0x10)) ∧ OthersKept s t e) ∧
  (∀ (s : State) (e : Fin 256) (h : Haz) (y : Sym) (r : List Sym), Runs s e 0x30 h → s.eng[e].fifo = y :: r → s.eng[e].loss = none →
    1 < s.gangSize e → h.data.val = 2 → ∃ t, exec (.meSpop e h) s = .next t ∧
      t.eng[e].latch = some { y with info := y.info ||| 0x80000000#32 } ∧ t.eng[e].fifo = r ∧ t.eng[e].pc = s.eng[e].pc + 4) ∧
  (∀ (s : State) (e : Fin 256) (h : Haz), Runs s e 0x30 h → s.eng[e].fifo = [] → ∃ t, exec (.meSpop e h) s = .next t ∧ Waits s t e) ∧
  (∀ (s : State) (e : Fin 256) (h : Haz) (y : Sym) (r : List Sym), Runs s e 0x31 h → (s.engWord e).imm = 7 → s.eng[e].fifo = y :: r →
    s.gangSize e = 1 ∨ h.data.val ≠ 2 → ∃ t, exec (.meSget e h) s = .next t ∧ Writes s t e y.info (s.eng[e].pc + 4)) ∧
  (∀ (s : State) (e : Fin 256) (h : Haz), Runs s e 0x31 h → (s.engWord e).imm = 7 → s.eng[e].fifo = [] →
    ∃ t, exec (.meSget e h) s = .next t ∧ Waits s t e) ∧
  (∀ (s : State) (e : Fin 256) (h : Haz) (y : Sym), Runs s e 0x31 h → s.eng[e].latch = some y → (s.engWord e).imm < 7 →
    ∃ t v, exec (.meSget e h) s = .next t ∧ Writes s t e v (s.eng[e].pc + 4) ∧
      ((s.engWord e).imm = 0 → v = y.data) ∧ ((s.engWord e).imm = 1 → v = y.info) ∧
      ((s.engWord e).imm = 2 → v = lo32 y.stamp) ∧ ((s.engWord e).imm = 3 → v = hi32 y.stamp) ∧
      ((s.engWord e).imm = 4 → v = if y.stuffed then y.data >>> 16 else 0#32) ∧
      ((s.engWord e).imm = 5 → y.stuffed = false → v = y.data) ∧
      ((s.engWord e).imm = 6 → y.stuffed = false → v = word (fld y.info 15 8))) ∧
  (∀ (s : State) (e : Fin 256) (h : Haz), Runs s e 0x31 h → s.eng[e].latch = none → (s.engWord e).imm < 7 →
    ∃ t, exec (.meSget e h) s = .next t ∧ Writes s t e 0#32 (s.eng[e].pc + 4)) ∧
  WritesRow .meSdif 0x32 (fun s e i =>
    iword (max (-2147483648) (min 2147483647
      (s.eng[e].slot[Fin.ofNat 4 i.a].stamp - s.eng[e].slot[Fin.ofNat 4 i.b].stamp).toInt)))

/-- R236 to R238, R243: TSET, LSND, LGET and CSR; LSND and LGET wait at a full and at an empty link FIFO. -/
def Obligations.EngineTimersLinksAndCsrs : Prop :=
  (∀ (s : State) (e : Fin 256) (h : Haz), Runs s e 0x33 h → (s.engWord e).d < 8 → ∃ t, exec (.meTset e h) s = .next t ∧
    t.eng[e].timer[Fin.ofNat 2 ((s.engWord e).d / 4)] =
      ⟨some (s.eng[e].slot[Fin.ofNat 4 (s.engWord e).d].stamp + (s.gpr e (s.engWord e).a).setWidth 64), false⟩ ∧
    t.eng[e].pc = s.eng[e].pc + 4 ∧ t.eng[e].regs = s.eng[e].regs ∧ OthersKept s t e) ∧
  (∀ (s : State) (e : Fin 256) (h : Haz), Runs s e 0x33 h → 8 ≤ (s.engWord e).d → ∃ t, exec (.meTset e h) s = .next t ∧
    t.eng[e].timer[Fin.ofNat 2 ((s.engWord e).d / 4)] = ⟨none, false⟩ ∧ t.eng[e].pc = s.eng[e].pc + 4 ∧
    t.eng[e].regs = s.eng[e].regs ∧ OthersKept s t e) ∧
  (∀ (s : State) (e m : Fin 256) (h : Haz), Runs s e 0x36 h → m = Fin.ofNat 256 ((s.gangFirst e).val + (s.engWord e).imm) →
    (s.eng[m].link.length < 8 → ∃ t, exec (.meLsnd e h) s = .next t ∧
      t.eng[m].link = s.eng[m].link ++ [s.gpr e (s.engWord e).a] ∧ t.eng[e].pc = s.eng[e].pc + 4 ∧
      ∀ k : Fin 256, k ≠ e → k ≠ m → t.eng[k] = s.eng[k]) ∧
    (8 ≤ s.eng[m].link.length → ∃ t, exec (.meLsnd e h) s = .next t ∧ Waits s t e)) ∧
  (∀ (s : State) (e : Fin 256) (h : Haz) (w : Word) (r : List Word), Runs s e 0x37 h → s.eng[e].link = w :: r →
    ∃ t, exec (.meLget e h) s = .next t ∧
      (∀ n : Nat, n < 16 → t.gpr e n = if n = (s.engWord e).d ∧ n ≠ 0 then w else s.gpr e n) ∧ t.eng[e].link = r ∧
      t.eng[e].pc = s.eng[e].pc + 4 ∧ OthersKept s t e) ∧
  (∀ (s : State) (e : Fin 256) (h : Haz), Runs s e 0x37 h → s.eng[e].link = [] → ∃ t, exec (.meLget e h) s = .next t ∧ Waits s t e) ∧
  (∀ (s : State) (e : Fin 256) (h : Haz), Runs s e 0x38 h → ∃ t, exec (.meCsr e h) s = .next t ∧
    (∀ n : Nat, n < 16 → t.gpr e n = if n = (s.engWord e).d ∧ n ≠ 0 then csrRead e s ((s.engWord e).imm % 256) else s.gpr e n) ∧
    t.eng[e].pc = s.eng[e].pc + 4 ∧
    ((s.engWord e).imm % 256 = 5 → t.eng[e].kicked = false) ∧
    ((s.engWord e).imm = 4096 → t.eng[e].emask = (s.gpr e (s.engWord e).a).toNat % 32) ∧
    ((s.engWord e).imm = 4097 → t.eng[e].vbase = s.gpr e (s.engWord e).a) ∧
    ((s.engWord e).imm = 4100 → t.eng[e].sflags = (s.gpr e (s.engWord e).a).toNat % 8) ∧
    (∀ j : Fin 4, (s.engWord e).imm = 4104 + 2 * j.val → t.eng[e].crcp[j] = s.gpr e (s.engWord e).a) ∧
    (∀ j : Fin 4, (s.engWord e).imm = 4105 + 2 * j.val → t.eng[e].crcc[j] = (s.gpr e (s.engWord e).a).toNat % 64) ∧ OthersKept s t e)

/-- R238, R239, R243: MWR, MSND of an engine that stands alone, WAIT and HALT; MSND and WAIT wait. WAIT takes the head symbol's event and the
timers' in order of stamp, the symbol first at equal stamps. -/
def Obligations.EngineMessagesWaitAndHalt : Prop :=
  (∀ (s : State) (e : Fin 256) (h : Haz), Runs s e 0x34 h → ∃ t, exec (.meMwr e h) s = .next t ∧
    t.eng[e] = { s.eng[e] with
      buf := s.eng[e].buf.set (Fin.ofNat 60 (s.engWord e).imm) (s.gpr e (s.engWord e).a), pc := s.eng[e].pc + 4 } ∧ OthersKept s t e) ∧
  (∀ (s : State) (e : Fin 256) (h : Haz), Runs s e 0x35 h → s.gangSize e = 1 → s.eng[e].port.length < 4 →
    ∃ t m, exec (.meMsnd e h) s = .next t ∧
      t.eng[e] = { s.eng[e] with port := s.eng[e].port ++ [m], sflags := 0, pc := s.eng[e].pc + 4 } ∧
      m.queue = (s.gpr e (s.engWord e).a).toNat % 16384 ∧ m.type = (s.engWord e).imm % 256 ∧
      m.stamp = s.eng[e].slot[Fin.ofNat 4 (s.engWord e).d].stamp ∧
      m.bytes = (s.eng[e].buf.toList.flatMap wordBytes).take ((s.engWord e).imm / 256)) ∧
  (∀ (s : State) (e : Fin 256) (h : Haz), Runs s e 0x35 h → s.msgRoom e = false → ∃ t, exec (.meMsnd e h) s = .next t ∧ Waits s t e) ∧
  (∀ (s : State) (e : Fin 256) (h : Haz) (k : Nat), Runs s e 0x39 h → (looking s e h).takeEvent e = some k →
    ∃ t, exec (.meWait e h) s = .next t ∧ t.eng[e].ecause = k ∧
      t.eng[e].pc = (((looking s e h).eng[e].vbase &&& 0xFFFFFFF0#32) + word (16 * k)).toNat ∧
      t.eng[e].st = (looking s e h).eng[e].st ∧ (k = 1 → t.eng[e].timer[(0 : Fin 2)] = {}) ∧
      (k = 2 → t.eng[e].timer[(1 : Fin 2)] = {}) ∧ t.eng[e].fifo = (looking s e h).eng[e].fifo ∧ OthersKept (looking s e h) t e) ∧
  (∀ (s : State) (e : Fin 256) (h : Haz), Runs s e 0x39 h → (looking s e h).takeEvent e = none → ∃ t, exec (.meWait e h) s = .next t ∧
    Waits (looking s e h) t e ∧ OthersKept (looking s e h) t e) ∧
  (∀ (s : State) (e : Fin 256) (h : Haz), Runs s e 0x3A h → ∃ t, exec (.meHalt e h) s = .next t ∧
    t.eng[e] = { s.eng[e] with st := 4, pc := s.eng[e].pc + 4 } ∧
    t.rd (R.ME_EVT_CNT (e.val / 64) (e.val % 64) 3) = sat32 (s.rd (R.ME_EVT_CNT (e.val / 64) (e.val % 64) 3)) 1) ∧
  (∀ (s : State) (e : Fin 256) (y : Sym) (r : List Sym) (d : Stamp), s.eng[e].fifo = y :: r → s.eng[e].emask = 31 →
    s.timerPend e 0 = some d → s.timerPend e 1 = none →
    (upto y.stamp d = true → s.takeEvent e = some 0) ∧ (before d y.stamp = true → s.takeEvent e = some 1))

/-- R230: a waiting engine goes back to RUN once what it waits for has come; R242, R246: an illegal fetch faults. -/
def Obligations.EngineUnblocksAndIllegalFetches : Prop :=
  (∀ (s : State) (e : Fin 256), (s.portFed e).eng[e].st = 3 → canResume e (s.portFed e) = true →
    exec (.engineUnblock e) s = .next ((s.portFed e).setEng e (fun E => { E with st := 2 }))) ∧
  (∀ (s : State) (e : Fin 256), (s.portFed e).eng[e].st = 3 → canResume e (s.portFed e) = false → exec (.engineUnblock e) s = .next s) ∧
  (∀ (s : State) (e : Fin 256), s.eng[e].st = 2 → s.sleeping 1 e = false →
    (s.codeSize e < s.eng[e].pc + 4 → ∃ t, exec (.illegalInstruction e) s = .next t ∧ Faulted s t e 3) ∧
    (s.eng[e].pc + 4 ≤ s.codeSize e → s.eng[e].pc % 4 ≠ 0 → ∃ t, exec (.illegalInstruction e) s = .next t ∧ Faulted s t e 2) ∧
    (s.pcOk e = true → (s.engWord e).legal (s.gangSize e) = false → ∃ t, exec (.illegalInstruction e) s = .next t ∧ Faulted s t e 1))

/-- R232, R242 to R246: the faults of executing an instruction: a second residue mismatch, an uncorrectable fetch, an access
not aligned, one outside the data region. -/
def Obligations.EngineFaults : Prop :=
  (∀ x ∈ checkedRows, ∀ (s : State) (e : Fin 256) (h : Haz), Fetches s e x.2 → h.fetch.val ≠ 2 → h.res.val = 2 →
    ∃ t, exec (x.1 e h) s = .next t ∧ Faulted s t e 4) ∧
  (∀ x ∈ checkedRows ++ plainRows, ∀ (s : State) (e : Fin 256) (h : Haz), Fetches s e x.2 → h.fetch.val = 2 →
    ∃ t, exec (x.1 e h) s = .next t ∧ Faulted s t e 5) ∧
  (∀ x ∈ memoryRows, ∀ (s : State) (e : Fin 256) (h : Haz), Runs s e x.2.1 h → effAddr s e % x.2.2 ≠ 0 →
    ∃ t, exec (x.1 e h) s = .next t ∧ Faulted s t e 2) ∧
  (∀ x ∈ memoryRows, ∀ (s : State) (e : Fin 256) (h : Haz), Runs s e x.2.1 h → effAddr s e % x.2.2 = 0 →
    s.inData e (effAddr s e) x.2.2 = false → ∃ t, exec (x.1 e h) s = .next t ∧ Faulted s t e 3)

/-- R46, R57, R537: loss of the reference, by a missing edge or by frequency, and a reference that qualifies. -/
def Obligations.ReferenceLossAndQualification : Prop :=
  (∀ s : State, s.tb.refOk = true → s.tb.applyAt = none → ∃ t, exec .lossOfReference s = .next t ∧
    t.tb.refOk = false ∧ t.tb.relocking = false ∧ t.tb.count = s.tb.count ∧ CountsOne s t (R.TB_EVT_CNT 0) ∧
    (s.tb.ever = true → t.tb.coast = true ∧ (s.tb.coast = false → t.tb.lock = false ∧ t.tb.coastFrom = s.tb.count))) ∧
  (∀ (s : State) (n : Nat), 5 * n < ((5 * n : Int) - 1024 * refFifths s.tb.monFreq).natAbs * 1000 →
    exec (.refFreqWindow n) s = exec .lossOfReference s) ∧
  (∀ (s : State) (n : Nat), ((5 * n : Int) - 1024 * refFifths s.tb.monFreq).natAbs * 1000 ≤ 5 * n →
    exec (.refFreqWindow n) s = .next s) ∧
  (∀ s : State, s.tb.refOk = false ∨ s.tb.applyAt ≠ none → ∃ t, exec .refQualified s = .next t ∧
    t.tb.refOk = true ∧ t.tb.applyAt = none ∧ t.tb.relocking = s.tb.ever ∧ CountsOne s t (R.TB_EVT_CNT 1)) ∧
  (∀ (s : State) (c : Count), s.tb.applyAt = some c → 20000000 ≤ (s.tb.count - c).toNat →
    ∃ t, exec .applyQualifyTimeout s = .next t ∧ t.tb.applyAt = none ∧ t.tb.refOk = false ∧ t.tb.coast = true ∧
      t.tb.relocking = false)

/-- R48, R49, R53, R54, R60, R61, R66, R76, R78: the PLLs lock and lose lock, and the counter starts at the first lock. -/
def Obligations.PllLockAndLossOfLock : Prop :=
  (∀ s : State, s.tb.ever = false → s.tb.refOk = true → ∃ t, exec (.pllLock 0) s = .next t ∧
    t.tb.ever = true ∧ t.tb.lock = true ∧ t.tb.count = 0 ∧ t.tb.lfsr = (if s.tb.inForce.seed = 0#32 then 1#32 else s.tb.inForce.seed)) ∧
  (∀ s : State, s.tb.ever = true → s.tb.relocking = true → s.tb.refOk = true → s.tb.applyAt = none → s.tb.spare = false →
    s.acquiredSpare = true → ∃ t, exec (.pllLock 0) s = .next t ∧ t.tb.spare = true ∧ t.tb.count = s.tb.count) ∧
  (∀ (s : State) (q : Fin 4), s.tb.dpll[q].lock = false → s.acquired (Fin.ofNat 5 q.val) = true →
    ∃ t, exec (.pllLock (Fin.ofNat 6 (q.val + 1))) s = .next t ∧ t.tb.dpll[q].lock = true ∧ t.tb.dpll[q].gated = false) ∧
  (∀ (s : State) (q : Fin 4) (a : Acq), s.tb.acq[Fin.ofNat 5 q.val] = some a →
    (s.acquired (Fin.ofNat 5 q.val) = true ↔ 16 * a.n ≤ (s.tb.count - a.from_).toNat)) ∧
  (∀ s : State, s.tb.sgLock = false → s.acquired 4 = true → ∃ t, exec (.pllLock 5) s = .next t ∧ t.tb.sgLock = true ∧
    (s.tb.sgEver = true → CountsOne s t (R.TB_EVT_CNT 8))) ∧
  (∀ s : State, s.tb.sgLock = false → s.acquired 4 = false → exec (.pllLock 5) s = .next s) ∧
  (∀ (s : State) (q : Fin 4), s.tb.dpll[q].lock = true → s.tb.lolSusp = none → ∃ t, exec (.pllLossOfLock (Fin.ofNat 5 q.val)) s = .next t ∧
    t.tb.dpll[q].lock = false ∧ t.tb.dpll[q].lolAt = some (s.tb.dpll[q].lolAt.getD s.tb.count) ∧
    t.tb.acq[Fin.ofNat 5 q.val] = some ⟨s.tb.count, max 16 (s.f R.TB_LOCK_CTL 23 8)⟩ ∧ CountsOne s t (R.TB_EVT_CNT 5)) ∧
  (∀ s : State, s.tb.sgLock = true → s.tb.lolSusp = none → ∃ t, exec (.pllLossOfLock 4) s = .next t ∧ t.tb.sgLock = false ∧
    t.grid.on = false ∧ t.tb.ramp.run = false) ∧
  (∀ s : State, s.tb.lock = true → s.tb.refOk = true → ∃ t, exec .tbpllLossOfLock s = .next t ∧
    t.tb.lock = false ∧ t.tb.coast = true ∧ t.tb.relocking = true ∧ t.tb.count = s.tb.count ∧ CountsOne s t (R.TB_EVT_CNT 2)) ∧
  (∀ (s : State) (c : Count), s.tb.lolSusp = some c → 4000 ≤ (s.tb.count - c).toNat →
    exec .lolSuspendEnd s = .next (s.setTb (fun x => { x with lolSusp := none })))

/-- R62 to R64: a relock boundary ends coasting, counts the boundary edge as the next TBCLK edge and records its jump. -/
def Obligations.RelockBoundaryEndsCoasting : Prop :=
  ∀ (s : State) (d : Nat), 512 ≤ d → d ≤ 1536 → s.tb.relocking = true → s.tb.spare = true →
    ∃ t, exec (.relockBoundary d) s = .next t ∧ t.tb.count = s.tb.count + 1#54 ∧ t.tb.coast = false ∧ t.tb.lock = true ∧
      t.tb.relocking = false ∧ t.tb.vcoB = !s.tb.vcoB ∧ t.rd R.TB_LAST_JUMP = iword ((d : Int) - 1024) ∧
      CountsOne s t (R.TB_EVT_CNT 3)

/-- R56, R73: the counter passes from 2^54 − 1 to 0, and the dividers restart at a SYNC's instant. -/
def Obligations.CounterWrapAndSyncRestart : Prop :=
  (∀ s : State, s.tb.ever = true → s.tb.count = BitVec.allOnes 54 → ∃ t, exec .counterWrap s = .next t ∧
    t.tb.count = 0#54 ∧ CountsOne s t (R.TB_EVT_CNT 4)) ∧
  (∀ (s : State) (u : Stamp) (r : List Stamp), s.tb.syncAt = u :: r → upto u s.now = true → ∃ t, exec .syncRestart s = .next t ∧
    t.tb.syncAt = r ∧ t.rd64 R.TB_SYNC_TS_LO R.TB_SYNC_TS_HI = u) ∧
  (∀ (s : State) (phase : Fin 5), s.fb R.TB_SYNC_CTL 0 = true → s.tb.coast = false → s.tb.relocking = false → s.tb.sgLock = true →
    ∃ t, exec (.sampledSync false phase) s = .next t ∧ t.tb.syncAt = s.tb.syncAt ++
      [(s.tb.count + BitVec.ofNat 54 ((phase.val + 640 + s.f R.TB_SYNC_CTL 7 4 * refFifths s.tb.freq + 4) / 5)).stamp]) ∧
  (∀ (s : State) (phase : Fin 5), s.tb.ownPulse = true → s.tb.ownOut = false → ∃ t, exec (.sampledSync true phase) s = .next t ∧
    t.tb.ownPulse = false ∧ t.tb.ownOut = true ∧ t.tb.syncAt = s.tb.syncAt ∧
    t.tb.syncOutAt = some (s.now + BitVec.ofNat 64 (phase.val * 1024 / 5 + 4096))) ∧
  (∀ (s : State) (phase : Fin 5), s.tb.ownPulse = false → s.tb.ownOut = true → s.tb.coast = false → s.tb.relocking = false →
    s.tb.sgLock = true → ∃ t, exec (.sampledSync true phase) s = .next t ∧ t.tb.ownOut = false ∧ t.tb.syncAt = s.tb.syncAt ++
      [(s.tb.count + BitVec.ofNat 54 ((phase.val + 640 + s.f R.TB_SYNC_CTL 7 4 * refFifths s.tb.freq + 4) / 5)).stamp])

/-- R69: the ramp moves along its profile, one update every 8 ns. -/
def Obligations.RampUpdatesAlongTheProfile : Prop :=
  (∀ s : State, s.tb.ramp.run = true → s.tb.ramp.waitSync = false → s.tb.ramp.held = false → s.since s.tb.ramp.at_ 16 = true →
    s.tb.ramp.upd + 1 < s.rampDur s.tb.ramp.seg → ∃ t, exec .rampUpdate s = .next t ∧
      t.tb.ramp.upd = s.tb.ramp.upd + 1 ∧ t.tb.ramp.seg = s.tb.ramp.seg ∧ t.tb.ramp.run = true ∧
      t.tb.ramp.at_ = s.tb.ramp.at_ + 16#54 ∧
      t.tb.ramp.num * s.rampDur s.tb.ramp.seg = t.tb.ramp.den *
        (s.tb.ramp.from_ * s.rampDur s.tb.ramp.seg + (s.rampDelta s.tb.ramp.seg - s.tb.ramp.from_) * (s.tb.ramp.upd + 1))) ∧
  (∀ s : State, s.since s.tb.ramp.at_ 16 = false → exec .rampUpdate s = .next s)

/-- R67, R69, R71, R74, R78, R79, R536: the apply and fire registers of the timebase act on the current generation and add one to
it; a PTM dialogue gives a pair of the device's and the host's time. -/
def Obligations.TimebaseApplyAndPtm : Prop :=
  (∀ (s : State) (m : Master) (gen : BitVec 16), Open s m R.TB_APPLY → Owner s m → gen.toNat = s.f R.TB_PLL_GEN 15 0 →
    s.tb.coast = false → s.tb.relocking = false → ∃ t, exec (.tbApply m gen) s = .next t ∧
      t.f R.TB_PLL_GEN 15 0 = (gen.toNat + 1) % 65536 ∧ t.tb.relocking = true ∧ t.tb.lock = false ∧ t.tb.applyAt = some s.tb.count ∧
      t.tb.inForce = ⟨s.rd R.TB_LOCK_CTL, s.rd R.TB_REF_CTL, s.rd R.TB_DITHER_SEED⟩) ∧
  (∀ (s : State) (m : Master) (gen : BitVec 16), Open s m R.TB_APPLY → Owner s m →
    gen.toNat ≠ s.f R.TB_PLL_GEN 15 0 ∨ s.tb.coast = true ∨ s.tb.relocking = true → ∃ t, exec (.tbApply m gen) s = .next t ∧
      t.tb = s.tb ∧ CountsOne s t (R.TB_EVT_CNT 12)) ∧
  (∀ (s : State) (m : Master) (gen : BitVec 16), Open s m R.TB_SYNC_FIRE → Owner s m → gen.toNat = s.f R.TB_SYNC_GEN 15 0 →
    s.f R.TB_SYNC_CTL 2 1 = 2 → s.tb.refOk = true → ∃ t, exec (.tbSyncFire m gen) s = .next t ∧
      t.f R.TB_SYNC_GEN 15 0 = (gen.toNat + 1) % 65536 ∧ t.tb.ownPulse = true) ∧
  (∀ (s : State) (m : Master) (gen : BitVec 16), Open s m R.TB_SG_APPLY → Owner s m → gen.toNat = s.f R.TB_SG_GEN 15 0 →
    s.sgQuiet = true → 0x20000000 ≤ (s.rd R.TB_SG_FCW).toNat → (s.rd R.TB_SG_FCW).toNat ≤ 0x40000000 →
    ∃ t, exec (.tbSgApply m gen) s = .next t ∧ t.f R.TB_SG_GEN 15 0 = (gen.toNat + 1) % 65536 ∧
      t.tb.sgFcw = s.rd R.TB_SG_FCW ∧ t.tb.sgCtl = s.rd R.TB_SG_CTL ∧ t.tb.sgLock = false) ∧
  (∀ (s : State) (m : Master) (gen : BitVec 16), Open s m R.TB_RAMP_GO → Owner s m → gen.toNat = s.f R.TB_SG_GEN 15 0 →
    s.tb.ramp.run = false → ∃ t, exec (.rampGo m gen) s = .next t ∧ t.tb.ramp.run = true ∧
      t.f R.TB_SG_GEN 15 0 = (gen.toNat + 1) % 65536) ∧
  (∀ (s : State) (m : Master) (gen : BitVec 16), Open s m R.TB_RAMP_GO → Owner s m → gen.toNat = s.f R.TB_SG_GEN 15 0 →
    s.tb.ramp.run = true → ∃ t, exec (.rampStop m gen) s = .next t ∧ t.tb.ramp.run = false ∧
      t.f R.TB_SG_GEN 15 0 = (gen.toNat + 1) % 65536) ∧
  (∀ (s : State) (p : Fin 4) (fine : Fin 1024), s.fb (R.TB_PTM_CTL p) 0 = true → s.port[p].link = true →
    s.ptmDue p = true → ∃ t, exec (.ptmDialogue p fine) s = .next t ∧ t.tb.ptmT1[p] = some (s.now + BitVec.ofNat 64 fine.val)) ∧
  (∀ (s : State) (p : Fin 4) (fine : Fin 1024), s.ptmDue p = false → exec (.ptmDialogue p fine) s = .next s) ∧
  (∀ (s : State) (p : Fin 4) (master delay : BitVec 64) (t1 : Stamp), s.tb.ptmT1[p] = some t1 →
    ∃ t, exec (.ptmResponse p master delay) s = .next t ∧ t.rd64 (R.TB_PTM_DEV_LO p) (R.TB_PTM_DEV_HI p) = t1 ∧
      t.rd64 (R.TB_PTM_HOST_LO p) (R.TB_PTM_HOST_HI p) = master - delay ∧
      t.rd (R.TB_PTM_SEQ p) = s.rd (R.TB_PTM_SEQ p) + 1#32)

/-- R6, R434: the command registers with one bit for each group, unit, sequencer or generator act on every unit named. -/
def Obligations.UnitCommandRegisters : Prop :=
  BitRow .chGrpGo R.CH_GRP_GO 16 .grp (fun j s => s.groupGo (Fin.ofNat 16 j)) ∧
  BitRow .chGrpHalt R.CH_GRP_HALT 16 .grp (fun j s => s.groupHalt (Fin.ofNat 16 j)) ∧
  BitRow .tdcCntClr R.TDC_CNT_CLR 16 .grp (fun j s => forAll (List.range 8) s (fun i s =>
    (s.wr (R.TDC_RES_CNT (8 * j + i)) 0#32).wr (R.TDC_ECC_CNT (8 * j + i)) 0#32)) ∧
  BitRow .trgArm R.TRG_ARM 8 .seq (fun j s => s.trgArm (Fin.ofNat 8 j)) ∧
  BitRow .trgHalt R.TRG_HALT 8 .seq (fun j s => s.trgHalt (Fin.ofNat 8 j)) ∧
  BitRow .iuSnap R.IU_SNAP 16 .iu (fun j s => s.iuSnap (Fin.ofNat 16 j) false) ∧
  BitRow .iuSnapClr R.IU_SNAP_CLR 16 .iu (fun j s => s.iuSnap (Fin.ofNat 16 j) true) ∧
  BitRow .sgGo R.SG_GO 8 .sg (fun j s => s.sgGo (Fin.ofNat 8 j)) ∧
  BitRow .sgHalt R.SG_HALT 8 .sg (fun j s => s.sgHalt (Fin.ofNat 8 j)) ∧
  BitRow .sbDiaEnter R.SB_DIA_ENTER 32 .bank (fun j s => s.diaEnter j) ∧
  BitRow .sbDiaWake R.SB_DIA_WAKE 32 .bank (fun j s => s.wakeArr 0 j)

/-- R89, R90: an accepted start puts an idle group into WAIT with the start stamp (Cw + 20,000) × 1,024, or none before a SYNC;
during calibration it goes to HELD; a refused one produces GRP_REFUSED. When the timebase
reaches S the group enters RUN, and CH_GRP_START holds S. -/
def Obligations.GroupsStartAndEnterRun : Prop :=
  (∀ (s : State) (m : Master) (g : Fin 16), Open s m R.CH_GRP_GO → s.reaches m (s.grpPart g) = true → s.grpCause g = none →
    s.calBusy g = false → ∃ t, exec (.chGrpGo m (oneBit g)) s = .next t ∧ t.grp[g].st = .wait ∧ t.grp[g].cw = s.tb.count ∧
      t.grp[g].start = if s.fb (R.CH_GRP_CTL g) 6 then none else some (s.tb.count + 20000#54).stamp) ∧
  (∀ (s : State) (m : Master) (g : Fin 16), Open s m R.CH_GRP_GO → s.reaches m (s.grpPart g) = true → s.grpCause g = none →
    s.calBusy g = true → ∃ t, exec (.chGrpGo m (oneBit g)) s = .next t ∧ t.grp[g].st = .held) ∧
  (∀ (s : State) (m : Master) (g : Fin 16) (c : Nat), Open s m R.CH_GRP_GO → s.reaches m (s.grpPart g) = true →
    s.grpCause g = some c → ∃ t, exec (.chGrpGo m (oneBit g)) s = .next t ∧ t.grp = s.grp ∧ CountsOne s t (R.CH_GRP_EVT_CNT g 3)) ∧
  (∀ (s : State) (g : Fin 16), s.grp[g].st = .held → s.calBusy g = false → ∃ t, exec (.heldRelease g) s = .next t ∧
    t.grp[g].st = .wait) ∧
  (∀ (s : State) (g : Fin 16) (S : Stamp), s.grp[g].st = .wait → s.grp[g].start = some S → upto S s.now = true →
    ∃ t, exec (.groupRun g) s = .next t ∧ t.grp[g].st = .run ∧ t.grp[g].start = some S ∧ t.grp[g].running = S ∧
      t.rd64 (R.CH_GRP_START_LO g) (R.CH_GRP_START_HI g) = S)

/-- R92, R93: a stop request gives a running group the stop stamp (Cw + 32) × 1,024 and puts it into DRAIN; it takes a group in
HELD or WAIT back to IDLE; a group that has drained enters IDLE. -/
def Obligations.GroupStopsAndDrains : Prop :=
  (∀ (s : State) (m : Master) (g : Fin 16), Open s m R.CH_GRP_HALT → s.reaches m (s.grpPart g) = true → s.grp[g].st = .run →
    s.grp[g].pendStops = [] → ∃ t, exec (.chGrpHalt m (oneBit g)) s = .next t ∧ t.grp[g].st = .drain ∧
      t.grp[g].stop = some s.stamp32 ∧ t.rd64 (R.CH_GRP_STOP_LO g) (R.CH_GRP_STOP_HI g) = s.stamp32 ∧
      CountsOne s t (R.CH_GRP_EVT_CNT g 1)) ∧
  (∀ (s : State) (m : Master) (g : Fin 16), Open s m R.CH_GRP_HALT → s.reaches m (s.grpPart g) = true →
    s.grp[g].st = .held ∨ s.grp[g].st = .wait → ∃ t, exec (.chGrpHalt m (oneBit g)) s = .next t ∧ t.grp[g].st = .idle) ∧
  (∀ (s : State) (g : Fin 16), s.settle.grp[g].st = .drain → s.settle.drainDone g = true → ∃ t, exec (.grpDrained g) s = .next t ∧
    t.grp[g].st = .idle ∧ CountsOne s.settle t (R.CH_GRP_EVT_CNT g 2))

/-- R95, R105, R106: a change of EN acts at its stamp; an expected item whose window has passed is missing; the margins of a
window whose last hold is known leave it. -/
def Obligations.EnableStampsMissingItemsAndMargins : Prop :=
  (∀ (s : State) (c : Fin 128), exec (.channelEnableStamp c) s = .next (s.enSync c).settle ∧
    (s.enSync c).ch[c].enPend = s.ch[c].enPend.filter (fun e => !upto e.1 s.now)) ∧
  (∀ (s : State) (c : Fin 128) (t S u : Stamp) (en : Bool), Quiet s → s.ch[c].enPend = [(t, en)] → upto t s.now = true →
    s.packs (grpOf c) = true → s.grp[grpOf c].ended = false → s.grp[grpOf c].start = some S → s.inRun (grpOf c) t = true →
    before S t = true → logBelow s.ch[c].enLog t = some (u, !en) → c.val % 8 ∈ s.dataBits (grpOf c) →
    ∃ v, exec (.channelEnableStamp c) s = .next v ∧ v.ch[c].enPend = [] ∧
      Marked v (grpOf c) t (.gap 2 (!en) false (2 ^ (c.val % 8)) 0 (if en then (if before u S then S else u) else t) 0)) ∧
  (∀ (s : State) (g : Fin 16) (x : Expected) (r : List Expected), Quiet s → s.grp[g].expect = x :: r →
    upto (s.cmpTo g x.launch) (s.now - 98304#64) = true → ∃ t, exec (.cmpMissing g) s = .next t ∧ t.grp[g].expect = r ∧
      CountsOne s t (R.CH_GRP_EVT_CNT g 7) ∧ t.rd (R.CH_GRP_CMP_ITEM_CNT g) = s.rd (R.CH_GRP_CMP_ITEM_CNT g)) ∧
  (∀ (s : State) (g : Fin 16), Quiet s →
    (∀ (x : Expected) (r : List Expected), s.grp[g].expect = x :: r → upto (s.cmpTo g x.launch) (s.now - 98304#64) = false) →
    exec (.cmpMissing g) s = .next s) ∧
  (∀ (s : State) (g : Fin 16) (w : Win) (r : List Win), Quiet s → s.grp[g].winDone = w :: r → s.grp[g].ended = false →
    (s.winHolds g w (s.now - State.lagTu)).wait.any id = false → ∃ t, exec (.marginEmit g) s = .next t ∧ t.grp[g].winDone = r ∧
      ∀ j ∈ s.dataBits g, Marked t g w.lastC (.margin j ((w.setup.getD j none).getD 65535)
        (((s.winHolds g w (s.now - State.lagTu)).hold.getD j none).getD 65535) w.n)) ∧
  (∀ (s : State) (g : Fin 16) (w : Win) (r : List Win), Quiet s → s.grp[g].winDone = w :: r →
    (s.winHolds g w (s.now - State.lagTu)).wait.any id = true → exec (.marginEmit g) s = .next s) ∧
  (∀ (s : State) (g : Fin 16) (x : Expected) (r : List Expected), s.settle.grp[g].expect = x :: r →
    upto (s.settle.cmpTo g x.launch) (s.settle.now - 98304#64) = true → ∃ t, exec (.cmpMissing g) s = .next t ∧
      t.grp[g].expect = r ∧ CountsOne s.settle t (R.CH_GRP_EVT_CNT g 7)) ∧
  (∀ (s : State) (g : Fin 16) (w : Win) (r : List Win), s.settle.grp[g].winDone = w :: r →
    (s.settle.winHolds g w (s.settle.now - State.lagTu)).wait.any id = false → ∃ t, exec (.marginEmit g) s = .next t ∧
      t.grp[g].winDone = r)

/-- R158 to R160: the packer takes the first item in order. A stored edge event of an open block leaves staging as one entry in
the shortest form that holds its delta, and the running stamp moves to it. -/
def Obligations.PackerTakesAnEdge : Prop :=
  ∀ (s : State) (g : Fin 16) (k : CandAt) (c : Fin 128) (e : EdgeRec) (b : OpenBlk),
    (packing s g).grp[g].ended = false → (packing s g).grp[g].sealWait = false → firstCand ((packing s g).cands g) = some k →
    k.cand = .edge c e → (packing s g).mayPack g k.stamp = true → (packing s g).modeG g = 1 →
    (packing s g).stores g e.stamp = true → e.err = false → e.coll = none → grpOf c = g →
    (packing s g).grp[g].blk = some b → b.bytes.length ≤ 460 → (packing s g).deltaOf g e.stamp < 17179869184 →
    ∃ t b', exec (.packItem g 0 false) s = .next t ∧ t.grp[g].blk = some b' ∧ b'.count = b.count + 1 ∧
      b'.bytes = b.bytes ++ edgeEntry (c.val % 8) ((packing s g).deltaOf g e.stamp) ∧ t.grp[g].running = e.stamp ∧
      t.ch[c].stg = (packing s g).ch[c].stg.drop 1

/-- R176, R177: a partly filled block is closed when its FLUSH time has passed, and a closed block that has been written is
counted in CH_GRP_WPTR. -/
def Obligations.BlocksCloseAndAreWritten : Prop :=
  (∀ (s : State) (g : Fin 16) (b : OpenBlk), s.settle.grp[g].blk = some b → s.settle.grp[g].trun = none →
    s.settle.f (R.CH_GRP_PACK g) 15 0 ≠ 0 → s.settle.lastBlock g = false →
    s.settle.passed (b.first + stamp (s.settle.f (R.CH_GRP_PACK g) 15 0 * 2048000)) = true → ∃ t o, exec (.blockFlush g) s = .next t ∧
      t.grp[g].blk = none ∧ t.grp[g].out = some o ∧ o.body = b.bytes ∧ o.count = b.count) ∧
  (∀ (s : State) (g : Fin 16) (b : OutBlk), s.grp[g].out = some b → s.dcActive (s.blockAddr g s.grp[g].writes) = true →
    ∃ t, exec (.blockWritten g) s = .next t ∧ t.grp[g].out = none ∧ t.grp[g].writes = s.grp[g].writes + 1 ∧
      t.rd64 (R.CH_GRP_WPTR_LO g) (R.CH_GRP_WPTR_HI g) = BitVec.ofNat 64 (s.grp[g].writes + 1))

/-- R182 to R185, R278: the sealer takes its oldest job; the block of a sealed run is hashed onto the run's chain. -/
def Obligations.SealerTakesTheOldestJob : Prop :=
  ∀ (s : State) (g : Fin 16) (bytes : List Byte) (seq : Nat) (last : Bool) (r : List SealJob), s.sealQ = .block g bytes seq last :: r →
    ∃ t, exec .sealerChainStep s = .next t ∧ t.sealQ = r ∧ t.grp[g].sealJob = false ∧
      t.grp[g].chain = Config.sha384 ((leBytes 48 s.grp[g].chain.toNat).reverse ++ bytes)

/-- R136, R137, R141: arming, HOLDOFF at the arm stamp, RUN at A + PRE, DONE after T + POST, and a halt. -/
def Obligations.SequencerStates : Prop :=
  (∀ (s : State) (m : Master) (q : Fin 8), Open s m R.TRG_ARM → s.reaches m s.pmap.seq[q] = true → s.armCause q = none →
    ∃ t, exec (.trgArm m (oneBit q)) s = .next t ∧ t.trg.seq[q].st = .armed ∧
      t.trg.seq[q].arm = (if s.fb (R.TRG_SEQ_CTL q) 0 then none else some s.stamp32) ∧
      t.rd64 (R.TRG_SEQ_TRIG_LO q) (R.TRG_SEQ_TRIG_HI q) = 0) ∧
  (∀ (s : State) (m : Master) (q : Fin 8) (c : Nat), Open s m R.TRG_ARM → s.reaches m s.pmap.seq[q] = true → s.armCause q = some c →
    ∃ t, exec (.trgArm m (oneBit q)) s = .next t ∧ t.trg = s.trg ∧ CountsOne s t (R.TRG_SEQ_EVT_CNT q 3)) ∧
  (∀ (s : State) (q : Fin 8) (a : Stamp), s.trg.seq[q].st = .armed → s.trg.seq[q].arm = some a → upto a s.now = true →
    ∃ t, exec (.trgArmed q) s = .next t ∧ t.trg.seq[q].st = .holdoff ∧
      t.rd64 (R.TRG_SEQ_ARM_LO q) (R.TRG_SEQ_ARM_HI q) = a ∧ CountsOne s t (R.TRG_SEQ_EVT_CNT q 0)) ∧
  (∀ (s : State) (q : Fin 8) (a : Stamp), s.trg.seq[q].st = .holdoff → s.trg.seq[q].arm = some a →
    upto (a + s.preQ q) s.now = true → ∃ t, exec (.seqRunEntry q) s = .next t ∧ t.trg.seq[q].st = .run ∧ t.trg.seq[q].stage = 0 ∧
      t.trg.seq[q].entry = a + s.preQ q) ∧
  (∀ (s : State) (q : Fin 8), s.trg.seq[q].st = .post → s.trg.seq[q].ended = false →
    s.passed (s.trg.seq[q].trig + s.postQ q) = true →
    ∃ t, exec (.trgDone q) s = .next t ∧ t.trg.seq[q].ended = true ∧ CountsOne s t (R.TRG_SEQ_EVT_CNT q 2)) ∧
  (∀ (s : State) (m : Master) (q : Fin 8), Open s m R.TRG_HALT → s.reaches m s.pmap.seq[q] = true →
    s.trg.seq[q].st = .armed ∨ s.trg.seq[q].st = .holdoff ∨ s.trg.seq[q].st = .run →
    ∃ t, exec (.trgHalt m (oneBit q)) s = .next t ∧ t.trg.seq[q].st = .idle ∧ t.trg.seq[q].arm = none)

/-- R117, R121, R123: EN of a resource acts at its stamp; a comparator that stayed true for DUR hits at entry plus DUR; a
timeout that has run out leaves its qualifier. -/
def Obligations.TriggerResources : Prop :=
  (∀ (s : State) (k : Fin 4) (n : Fin 64), exec (.resourceEnableStamp k n) s =
    .next (s.resSync (fun x m => x == [ResKind.pc, .iq, .ct, .mm][k] && m == n.val)).settle) ∧
  (∀ (s : State) (n : Fin 32) (t : Stamp) (en : Bool), Quiet { s with trg := { s.trg with enPend := [] } } →
    s.trg.enPend = [(t, .ct, n.val, en)] → upto t s.now = true → ∃ u, exec (.resourceEnableStamp 2 (Fin.ofNat 64 n.val)) s = .next u ∧
      u.trg.enPend = [] ∧ u.trg.ct[n].enLog = (t, en) :: s.trg.ct[n].enLog) ∧
  (∀ (s : State) (n : Fin 64) (t : Stamp) (en : Bool), Quiet { s with trg := { s.trg with enPend := [] } } →
    s.trg.enPend = [(t, .pc, n.val, en)] → upto t (s.now - State.lagTu) = true → upto t s.now = true →
    ∃ u, exec (.resourceEnableStamp 0 n) s = .next u ∧ u.trg.enPend = [] ∧ u.trg.pc[n].en = en) ∧
  (∀ (s : State) (n : Fin 32) (t : Stamp) (en : Bool), Quiet { s with trg := { s.trg with enPend := [] } } →
    s.trg.enPend = [(t, .iq, n.val, en)] → upto t (s.now - State.lagTu) = true → upto t s.now = true →
    ∃ u, exec (.resourceEnableStamp 1 (Fin.ofNat 64 n.val)) s = .next u ∧ u.trg.enPend = [] ∧ u.trg.iq[n].en = en ∧
      u.trg.iq[n].lastA = none ∧ u.trg.iq[n].lastB = none) ∧
  (∀ (s : State) (n : Fin 64), Quiet s → exec (.resourceEnableStamp 3 n) s = .next s) ∧
  (∀ (s : State) (p : Fin 64) (e : Stamp) (coast err : Bool), Quiet s → s.trg.pc[p].enter = some (e, coast, err) →
    (before (e + stamp (s.pcDur p)) (s.now - State.lagTu) = true → ∃ t, exec (.pcDurHit p) s = .next t ∧ t.trg.pc[p].enter = none ∧
      HitAt t p.val (e + stamp (s.pcDur p)) ∧ t.trg.pc[p].level = s.trg.pc[p].level) ∧
    (before (e + stamp (s.pcDur p)) (s.now - State.lagTu) = false → exec (.pcDurHit p) s = .next s)) ∧
  (∀ (s : State) (q : Fin 32) (a : Stamp) (coast err : Bool), Quiet s → s.trg.iq[q].tmo = [(a, coast, err)] →
    (before (s.iqDeadline q a) (s.now - State.lagTu) = true → ∃ t, exec (.iqTimeout q) s = .next t ∧ t.trg.iq[q].tmo = [] ∧
      HitAt t (0x40 + q.val) (s.iqDeadline q a)) ∧
    (before (s.iqDeadline q a) (s.now - State.lagTu) = false → exec (.iqTimeout q) s = .next s)) ∧
  (∀ (s : State) (p : Fin 64) (e : Stamp) (coast err : Bool), s.settle.trg.pc[p].enter = some (e, coast, err) →
    before (e + stamp (s.settle.pcDur p)) (s.settle.now - State.lagTu) = true → ∃ t, exec (.pcDurHit p) s = .next t ∧
      t.trg.pc[p].enter = none ∧
      t.trg.hits.any (fun h => h.src == p.val && h.stamp == e + stamp (s.settle.pcDur p)) = true) ∧
  (∀ (s : State) (q : Fin 32) (a : Stamp) (coast err : Bool), s.settle.trg.iq[q].tmo = [(a, coast, err)] →
    before (s.settle.iqDeadline q a) (s.settle.now - State.lagTu) = true → ∃ t, exec (.iqTimeout q) s = .next t ∧
      t.trg.iq[q].tmo = [] ∧ t.trg.hits.any (fun h => h.src == 0x40 + q.val && h.stamp == s.settle.iqDeadline q a) = true)

/-- R130, R133: a sequencer decides for its next relevant stamp, which becomes its position; so does a TIME counter's terminal
stamp, and a message that waited at the matchers is matched. -/
def Obligations.SequencerDecisions : Prop :=
  (∀ (s : State) (q : Fin 8) (residue : Option (Fin 32)) (u : Stamp), s.feed.nextRelevant q = some u →
    s.feed.fedTo q u = true → exec (.seqDecision q residue) s = .next (s.feed.decideAt q u residue)) ∧
  (∀ (s : State) (q : Fin 8) (residue : Option (Fin 32)) (u : Stamp), Fed s → s.nextRelevant q = some u → s.fedTo q u = true →
    s.owned q = [] → (∀ c : Nat, c < 4 → s.condHit q s.trg.seq[q].stage c u = none) →
    exec (.seqDecision q residue) s = .next (s.setSeq q (fun Q => { Q with pos := u }))) ∧
  (∀ (s : State) (q : Fin 8) (residue : Option (Fin 32)) (u : Stamp) (c : Nat) (h : Hit), Fed s → s.nextRelevant q = some u →
    s.fedTo q u = true → s.owned q = [] → c < 4 → (∀ d : Nat, d < c → s.condHit q s.trg.seq[q].stage d u = none) →
    s.condHit q s.trg.seq[q].stage c u = some h → ∃ t, exec (.seqDecision q residue) s = .next t ∧
      t.trg.seq[q].stage = fld (s.cond q s.trg.seq[q].stage c) 11 8 ∧ t.trg.seq[q].entry = u ∧ t.trg.seq[q].pos = u ∧
      (bit (s.cond q s.trg.seq[q].stage c) 0 = true → s.trg.seq[q].st = .run → t.trg.seq[q].st = .post ∧ t.trg.seq[q].trig = u ∧
        t.rd64 (R.TRG_SEQ_TRIG_LO q) (R.TRG_SEQ_TRIG_HI q) = u ∧ CountsOne s t (R.TRG_SEQ_EVT_CNT q 1)) ∧
      (bit (s.cond q s.trg.seq[q].stage c) 0 = false → t.trg.seq[q].st = s.trg.seq[q].st)) ∧
  (∀ (s : State) (n : Fin 32) (q : Fin 8) (u : Stamp), Fed s → s.ctSeq n = some q → s.nextRelevant q = some u → s.ctTime n = true →
    s.ctTerminal n = some u → s.fedTo q u = true → s.owned q = [n] → ∃ t, exec (.counterTerminal n) s = .next t ∧
      HitAt t (0x60 + n.val) u ∧ t.trg.seq[q].pos = u) ∧
  (∀ (s : State) (n : Fin 32), Fed s → s.ctTerminal n = none → exec (.counterTerminal n) s = .next s) ∧
  (∀ (s : State) (n : Fin 32) (q : Fin 8) (u : Stamp), s.feed.ctSeq n = some q → s.feed.nextRelevant q = some u →
    s.feed.fedTo q u = true → s.feed.ctTime n = true → s.feed.ctTerminal n = some u →
    exec (.counterTerminal n) s = .next (s.feed.decideAt q u none)) ∧
  (∀ (s : State) (q : Fin 8) (u : Stamp) (residue : Option (Fin 32)), (s.decideAt q u residue).trg.seq[q].pos = u) ∧
  (∀ (s : State) (m : MmMsg) (r : List MmMsg), s.qm.mm = m :: r → ∃ t, exec .matcherMessage s = .next t ∧ t.qm.mm = r ∧
    ∀ k : Fin 64, s.mmEnAt k m.stamp = true → s.pmap.mm[k] = m.part → s.mmMatch k m.queue m.type m.payload = true →
      HitAt t (0x80 + k.val) m.stamp) ∧
  (∀ s : State, s.qm.mm = [] → exec .matcherMessage s = .next s)

/-- R147 to R149: TRIG_IO. An accepted routing comes into force and adds one to the generation; a stale one is reported; a rise of
an input is a hit; an output takes the level it drives. -/
def Obligations.TriggerInputsAndOutputs : Prop :=
  (∀ (s : State) (m : Master) (gen : BitVec 16), Open s m R.TRG_IO_APPLY → Owner s m → gen.toNat = s.f R.TRG_IO_GEN 15 0 →
    ∃ t, exec (.trgIoApply m gen) s = .next t ∧ t.f R.TRG_IO_GEN 15 0 = (gen.toNat + 1) % 65536 ∧
      ∀ k : Fin 16, t.trg.route[k] = s.rd (R.TRG_IO_CTL k.val)) ∧
  (∀ (s : State) (m : Master) (gen : BitVec 16), Open s m R.TRG_IO_APPLY → Owner s m → gen.toNat ≠ s.f R.TRG_IO_GEN 15 0 →
    ∃ t, exec (.trgIoApply m gen) s = .next t ∧ t.trg = s.trg ∧ CountsOne s t R.TRG_IO_STALE_CNT) ∧
  (∀ (s : State) (k : Fin 16) (level : Bool), ∃ t, exec (.trigIoInput k level) s = .next t ∧ t.trg.ball.getLsbD k = level ∧
    (fld s.trg.route[k] 1 0 = 1 → s.trg.ball.getLsbD k ≠ level → level = !bit s.trg.route[k] 2 → s.tb.window = none →
      t.trg.hits.any (fun h => h.src == 0xC0 + k.val && h.stamp == s.now - stamp (s.f R.TRG_IO_IN_DLY 15 0)) = true)) ∧
  (∀ (s : State) (k : Fin 16), fld s.trg.route[k] 1 0 = 2 → ∃ t, exec (.trigIoLaunch k) s = .next t ∧
    t.trg.out.getLsbD k = s.ioDrive k) ∧
  (∀ (s : State) (k : Fin 16), fld s.trg.route[k] 1 0 = 2 → s.ioDrive k = false → ∃ t, exec (.trigIoPulseEnd k) s = .next t ∧
    t.trg.out.getLsbD k = false)

/-- R6, R8, R434, R440, R441, R453: a one-word write of a register in one of its four views. RW fields take what the view makes;
EG fields do so while their block is idle, and otherwise keep their bits with a record; a W1 field takes the first write only;
a write to another partition's register changes nothing and is recorded. -/
def Obligations.RegisterWritesAndViews : Prop :=
  (∀ (s : State) (m : Master) (a : Nat) (v : Fin 4) (d : Word) (r : RegRow) (ix : List Nat), RegTable.find a = some (r, ix) →
    a % 16384 < 4096 → a % 4 = 0 → a + 4096 * v.val < 0x2000000 → Open s m (a + 4096 * v.val) → quietRow r = true → bitsOf r .WO = 0 →
    bitsOf r .W1 = 0 → s.reachMask m r ix = 0xFFFFFFFF#32 → s.gateOn r ix = false →
    exec (.registerWrite m .bar0 (a + 4096 * v.val) [d] 15 0 false) s =
      .next ((heard s).wr a (splice (bitsOf r .RW ||| bitsOf r .EG) (s.rd a) (viewed v.val (s.rd a) d)))) ∧
  (∀ (s : State) (p : Fin 4) (c : Fin 128) (d : Word), Open s (.hp p) (R.CH_THR c) → s.pmap.grp[grpOf c] = p →
    s.fb (R.CH_CTL c) 0 = true → (s.rd (R.CH_THR c) ^^^ d) &&& 0xFFF#32 ≠ 0 →
    ∃ t, exec (.registerWrite (.hp p) .bar0 (R.CH_THR c) [d] 15 0 false) s = .next t ∧ t.rd (R.CH_THR c) = s.rd (R.CH_THR c) ∧
      CountsOne s t (R.GLB_EVT_CNT p 2)) ∧
  (∀ (s : State) (p : Fin 4) (d : Word), Open s (.hp p) (R.GLB_ONCE p) → s.locked.contains (R.GLB_ONCE p) = false →
    ∃ t, exec (.registerWrite (.hp p) .bar0 (R.GLB_ONCE p) [d] 15 0 false) s = .next t ∧ t.rd (R.GLB_ONCE p) = d ∧
      t.locked.contains (R.GLB_ONCE p) = true) ∧
  (∀ (s : State) (p : Fin 4) (d : Word), Open s (.hp p) (R.GLB_ONCE p) → s.locked.contains (R.GLB_ONCE p) = true →
    s.rd (R.GLB_ONCE p) ≠ d → ∃ t, exec (.registerWrite (.hp p) .bar0 (R.GLB_ONCE p) [d] 15 0 false) s = .next t ∧
      t.rd (R.GLB_ONCE p) = s.rd (R.GLB_ONCE p) ∧ CountsOne s t (R.GLB_EVT_CNT p 3)) ∧
  (∀ (s : State) (p : Fin 4) (c : Fin 128) (d : Word), Open s (.hp p) (R.CH_THR c) → s.pmap.grp[grpOf c] ≠ p → d &&& 0xFFF#32 ≠ 0 →
    ∃ t, exec (.registerWrite (.hp p) .bar0 (R.CH_THR c) [d] 15 0 false) s = .next t ∧ t.rd (R.CH_THR c) = s.rd (R.CH_THR c) ∧
      CountsOne s t (R.GLB_EVT_CNT p 1))

/-- R430, R432, R433, R439: a read of a LO register latches its HI partner for the reader; reads and writes that R430 turns away
end in a bus error. -/
def Obligations.LatchingReadsAndBusErrors : Prop :=
  (∀ (s : State) (m : Master), Open s m R.TB_COUNT_LO →
    ∃ t, exec (.latchingRead m .bar0 R.TB_COUNT_LO 1 15 0) s = .next t ∧ t.resp = [(m, .data (lo32 s.now))] ∧ t.regs = s.regs ∧
      ∀ u : State, u.latch = t.latch → Open u m R.TB_COUNT_HI →
        ∃ w, exec (.latchingRead m .bar0 R.TB_COUNT_HI 1 15 0) u = .next w ∧ w.resp = [(m, .data (hi32 s.now))]) ∧
  (∀ (s : State) (p : Fin 4) (a : Nat), Open s (.hp p) a → a < 0x2000000 → a % 4 = 0 → RegTable.find (plainOff a) = none →
    ∃ t, exec (.latchingRead (.hp p) .bar0 a 1 15 0) s = .next t ∧ t.resp = [(.hp p, .abort)] ∧ CountsOne s t (R.GLB_EVT_CNT p 0)) ∧
  (∀ (s : State) (p : Fin 4) (a : Nat) (d : Word) (be : Fin 16), s.portOpen p .bar0 = true → a < 0x2000000 → be ≠ 0 →
    a % 4 ≠ 0 ∨ be ≠ 15 → ∃ t, exec (.registerWrite (.hp p) .bar0 a [d] be 0 false) s = .next t ∧ t.resp = [] ∧
      CountsOne s t (R.GLB_EVT_CNT p 0) ∧ ∀ b : Nat, b ≠ R.GLB_EVT_CNT p 0 → b ≠ R.QM_EVT_LOST_CNT p → t.rd b = s.rd b)

/-- R11 to R15, R20 to R27, R84: an edge whose voltage trips the receiver is stamped by the formula of R25 and staged once; in the
dead time it is not; a collapse entry carries the level at its end. -/
def Obligations.EdgesAreStampedAndStaged : Prop :=
  (∀ (s : State) (c : Fin 128) (vp vn : Int) (b : Fin 256) (res ecc : Fin 3), s.powered c = false ∨ s.recvNext c vp vn = s.ch[c].out →
    exec (.edgeEvent c vp vn b res ecc) s = .next (s.setCh c (fun C => { C with vp := vp, vn := vn }))) ∧
  (∀ (s : State) (c : Fin 128) (vp vn : Int) (b : Fin 256), Stages s c s.tb.count b.val → s.recvNext c vp vn ≠ s.ch[c].out →
    ∃ u, exec (.edgeEvent c vp vn b 0 0) s = .next u.settle ∧ u.ch[c].out = s.recvNext c vp vn ∧
      u.ch[c].stg = s.ch[c].stg ++ [⟨edgeStamp s c s.tb.count b.val, c, s.recvNext c vp vn != s.fb (R.CH_CTL c) 3, none,
        s.coastAt (edgeStamp s c s.tb.count b.val), false⟩] ∧ CountsOne s u (R.CH_EDGE_CNT c)) ∧
  (∀ (s : State) (c : Fin 128) (vp vn : Int) (b : Fin 256) (res ecc : Fin 3), s.splitG (grpOf c) = false → s.powered c = true →
    s.recvNext c vp vn ≠ s.ch[c].out → ¬ DeadTimeOver s c s.tb.count b.val →
    exec (.edgeEvent c vp vn b res ecc) s =
      .next (s.setCh c (fun C => { C with vp := vp, vn := vn, out := s.recvNext c vp vn })).settle) ∧
  (∀ (s : State) (c : Fin 128) (back : Fin 2) (b : Fin 256) (vp vn : Int),
    Stages s c (s.tb.count - BitVec.ofNat 54 back.val) b.val → ∃ u rise level, exec (.collapseEntry c back b vp vn 0 0) s = .next u.settle ∧
      u.ch[c].stg = s.ch[c].stg ++ [⟨edgeStamp s c (s.tb.count - BitVec.ofNat 54 back.val) b.val, c, rise, some level,
        s.coastAt (edgeStamp s c (s.tb.count - BitVec.ofNat 54 back.val) b.val), false⟩] ∧
      rise = (s.ch[c].out == s.fb (R.CH_CTL c) 3) ∧ level = u.recvLevel c ∧ CountsOne s u (R.CH_COLLAPSE_CNT c))

/-- R16 to R19: auto-threshold. -/
def Obligations.AutoThreshold : Prop :=
  (∀ (s : State) (m : Master) (n : Fin 128), Open s m (R.CH_AT_GO (n.val / 32)) → s.reaches m (s.partOf .chan n) = true →
    (s.fb (R.CH_CTL n) 0 = false → s.fb (R.CH_CTL n) 1 = true → s.ch[n].at_ = none →
      ∃ t, exec (.chAtGo m (Fin.ofNat 4 (n.val / 32)) (oneBit (n.val % 32))) s = .next t ∧
        t.ch[n].at_ = some ⟨s.tb.count, s.rd (R.CH_AT_CFG (n.val / 8))⟩) ∧
    (s.fb (R.CH_CTL n) 0 = false → s.fb (R.CH_CTL n) 1 = false → s.ch[n].at_ = none →
      ∃ t, exec (.chAtGo m (Fin.ofNat 4 (n.val / 32)) (oneBit (n.val % 32))) s = .next t ∧ t.ch = s.ch ∧ t.f (R.CH_AT_RESULT n) 26 24 = 4) ∧
    (∀ p : Fin 4, m = .hp p → s.fb (R.CH_CTL n) 0 = true →
      ∃ t, exec (.chAtGo m (Fin.ofNat 4 (n.val / 32)) (oneBit (n.val % 32))) s = .next t ∧ t.ch = s.ch ∧ CountsOne s t (R.GLB_EVT_CNT p 4))) ∧
  (∀ (s : State) (c : Fin 128) (r : AtRun) (counts : List Nat), s.ch[c].at_ = some r → counts.length = State.atPoints r.cfg →
    s.since r.start (State.atPoints r.cfg * (400 + State.atDwell r.cfg * 2000)) = true → counts.foldl max 0 < 16 →
    ∃ t, exec (.chAtDone c counts) s = .next t ∧ t.f (R.CH_AT_RESULT c) 26 24 = 2 ∧ t.rd (R.CH_THR c) = s.rd (R.CH_THR c) ∧
      t.ch[c].at_ = none ∧ CountsOne s t (R.GLB_CT_EVT_CNT (s.grpPart (grpOf c)) 0)) ∧
  (∀ (s : State) (c : Fin 128) (r : AtRun) (counts : List Nat), s.ch[c].at_ = some r → counts.length = State.atPoints r.cfg →
    s.since r.start (State.atPoints r.cfg * (400 + State.atDwell r.cfg * 2000)) = true → 16 ≤ counts.foldl max 0 →
    ∃ t a z, exec (.chAtDone c counts) s = .next t ∧ a ≤ z ∧ z < counts.length ∧
      (∀ k, a ≤ k → k ≤ z → OpenPoint counts (State.atFrac r.cfg) k) ∧
      (∀ a' z', a' ≤ z' → z' < counts.length → (∀ k, a' ≤ k → k ≤ z' → OpenPoint counts (State.atFrac r.cfg) k) →
        z' - a' < z - a ∨ (z' - a' = z - a ∧ a ≤ a')) ∧
      t.f (R.CH_AT_RESULT c) 26 24 = 1 ∧ t.f (R.CH_AT_RESULT c) 11 0 = a * State.atStep r.cfg ∧
      t.f (R.CH_AT_RESULT c) 23 12 = z * State.atStep r.cfg ∧
      t.f (R.CH_THR c) 11 0 = (a * State.atStep r.cfg + z * State.atStep r.cfg) / 2 ∧ t.ch[c].at_ = none)

/-- R28, R29, R33, R34, R41: calibration of a group, its tables, the line-length ratio, and the counters of a channel. -/
def Obligations.CalibrationAndLineLength : Prop :=
  (∀ (s : State) (m : Master) (g : Fin 16), Open s m R.TDC_CAL_GO → s.reaches m (s.grpPart g) = true → s.groupIdle g = true →
    ∃ t, exec (.tdcCalGo m (oneBit g)) s = .next t ∧ t.grp[g].calAt = some s.tb.count ∧ ∀ k : Fin 16, k ≠ g → t.grp[k] = s.grp[k]) ∧
  (∀ (s : State) (p : Fin 4) (g : Fin 16), Open s (.hp p) R.TDC_CAL_GO → s.grpPart g = p → s.groupIdle g = false →
    ∃ t, exec (.tdcCalGo (.hp p) (oneBit g)) s = .next t ∧ t.grp = s.grp ∧ CountsOne s t (R.GLB_EVT_CNT p 4)) ∧
  (∀ (s : State) (g : Fin 16), s.fb (R.TDC_CAL_CTL g) 0 = true → s.grp[g].calDue = true → s.groupIdle g = true → s.phase ≠ 15 →
    exec (.tdcCalAuto g) s = .next (s.setGrp g (fun G => { G with calAt := some s.tb.count }))) ∧
  (∀ (s : State) (g : Fin 16) (hists : List (List Nat)) (lens : List Nat), calWf hists lens = true → s.grp[g].calAt ≠ none →
    ∃ t, exec (.tdcCalDone g hists lens) s = .next t ∧ t.grp[g].calAt = none ∧ t.grp[g].calValid = true ∧
      CountsOne s t (R.GLB_CT_EVT_CNT (s.grpPart g) 1) ∧ t.f (R.TDC_CAL_TEMP g) 15 0 = s.f (R.TDC_CAL_TEMP g) 31 16 ∧
      ∀ (j : Fin 8) (h : List Nat), hists[j.val]? = some h → t.rd (R.TDC_LLM_RATIO (chOf g j)) = 65536#32 ∧
        t.ch[chOf g j].lcal = lens.getD j 0 ∧ (((h.take 255).sum + 32) / 64 < 65536 →
          t.f (R.TDC_B254 (chOf g j)) 15 0 = ((h.take 255).sum + 32) / 64) ∧
        ∀ b : Nat, b < 256 → (2 * (h.take b).sum + h.getD b 0 + 64) / 128 < 65536 →
          t.tableAt (chOf g j) b = (2 * (h.take b).sum + h.getD b 0 + 64) / 128) ∧
  (∀ (s : State) (lens : List Nat), linesWf lens = true → ∃ t, exec (.lineLengthMeasure lens) s = .next t ∧
    ∀ c : Fin 128, s.ch[c].lcal ≠ 0 → (2 * 65536 * s.ch[c].lcal + lens.getD c 0) / (2 * lens.getD c 0) < 4294967296 →
      t.rd (R.TDC_LLM_RATIO c) = word ((2 * 65536 * s.ch[c].lcal + lens.getD c 0) / (2 * lens.getD c 0))) ∧
  (∀ (s : State) (temps : List Int), temps.length = 8 → (∀ x ∈ temps, -640 ≤ x ∧ x < 1680) → s.pwr.thermal = false →
    (∀ i : Nat, i < 8 → -640 ≤ s.tempNow i ∧ s.tempNow i ≤ 2000) →
    ∃ t, exec (.sensorSample temps) s = .next t ∧ t.phase = s.phase ∧ t.pwr.thermal = false ∧
      (∀ i : Nat, i < 8 → t.fs (R.PG_TEMP i) 15 0 = temps.getD i 0 ∧
        t.fs (R.PG_TEMP i) 31 16 = max (s.fs (R.PG_TEMP i) 31 16) (temps.getD i 0)) ∧
      ∀ g : Fin 16, t.fs (R.TDC_CAL_TEMP g) 31 16 = temps.getD (g.val / 2) 0 ∧
        t.grp[g].calDue = (!s.grp[g].calValid || decide (64 < (temps.getD (g.val / 2) 0 - s.fs (R.TDC_CAL_TEMP g) 15 0).natAbs))) ∧
  (∀ (s : State) (m : Master) (n : Fin 128), Open s m (R.CH_CNT_CLR (n.val / 32)) → s.reaches m (s.partOf .chan n) = true →
    exec (.chCntClr m (Fin.ofNat 4 (n.val / 32)) (oneBit (n.val % 32))) s =
      .next (((taken s (R.CH_CNT_CLR (n.val / 32))).wr (R.CH_EDGE_CNT n) 0#32).wr (R.CH_COLLAPSE_CNT n) 0#32))

/-- R190, R206, R211: enabling and disabling an interval unit, their stamps, and snapshots. -/
def Obligations.IntervalUnitsEnableAndSnapshot : Prop :=
  (∀ (s : State) (m : Master) (u : Fin 16) (w : Word), Open s m (R.IU_CTL u) → s.reaches m s.pmap.iu[u] = true →
    s.fb (R.IU_CTL u) 0 = false → exec (.iuEnable m u w) s = .next ((configured s (R.IU_CTL u) (w ||| 1#32) 0).iuEnable u)) ∧
  (∀ (s : State) (u : Fin 16), s.iuCause u = none → (s.iuEnable u).iu[u] = { s.iu[u] with pend := s.iu[u].pend ++ [(s.stamp32, some (s.iuRegs u))] } ∧
    (s.iuEnable u).fb (R.IU_CTL u) 0 = true) ∧
  (∀ (s : State) (u : Fin 16) (c : Nat), s.iuCause u = some c → (s.iuEnable u).iu = s.iu ∧ (s.iuEnable u).fb (R.IU_CTL u) 0 = false ∧
    CountsOne s (s.iuEnable u) (R.IU_EVT_CNT u 4)) ∧
  (∀ (s : State) (m : Master) (u : Fin 16) (w : Word), Open s m (R.IU_CTL u) → s.reaches m s.pmap.iu[u] = true →
    s.fb (R.IU_CTL u) 0 = true → ∃ t, exec (.iuDisable m u w) s = .next t ∧ t.iu[u].pend = s.iu[u].pend ++ [(s.stamp32, none)] ∧
      t.rd (R.IU_CTL u) = setFld (s.rd (R.IU_CTL u)) 0 0 0) ∧
  (∀ (s : State) (u : Fin 16) (a : Stamp) (c : IuCfg), Quiet s → s.iu[u].pend = [(a, some c)] → s.reached a = true →
    ∃ t, exec (.iuEnableStamp u) s = .next t ∧ t.iu[u].pend = [] ∧ t.iu[u].active = true ∧ t.iu[u].enS = a ∧ t.iu[u].disS = none ∧
    t.iu[u].live = {} ∧ t.iu[u].starts = s.iu[u].starts ∧ t.iu[u].cfgs.head? = some (a, c) ∧ t.rd (R.IU_REJ_CNT u) = 0 ∧ t.rd (R.IU_MISS_CNT u) = 0 ∧ t.rd (R.IU_EXCL_CNT u) = 0) ∧
  (∀ (s : State) (u : Fin 16) (d : Stamp), Quiet s → s.iu[u].pend = [(d, none)] → s.reached d = true → s.passed (d + 204800#64) = false →
    ∃ t, exec (.iuDisableStamp u) s = .next t ∧ t.iu[u] = { s.iu[u] with pend := [], disS := some d }) ∧
  (∀ (s : State) (u : Fin 16) (clr : Bool), s.iu[u].snap = none →
    s.iuSnap u clr = s.setIu u (fun I => { I with snap := some (s.stamp32, clr) })) ∧
  (∀ (s : State) (u : Fin 16) (clr : Bool), s.iu[u].snap ≠ none → (s.iuSnap u clr).iu = s.iu ∧
    CountsOne s (s.iuSnap u clr) (R.IU_EVT_CNT u 4)) ∧
  (∀ (s : State) (u : Fin 16) (a : Stamp) (clr : Bool), Quiet s → s.iu[u].pend = [] → s.iu[u].disS = none → s.iu[u].fault = false →
    s.iu[u].snap = some (a, clr) → s.iuSnapReady u a = true → ∃ t, exec (.iuSnapshotDone u) s = .next t ∧ t.iu[u].snap = none ∧
      t.iu[u].live = (if clr then {} else s.iu[u].live) ∧ t.rd64 (R.IU_SNAP_TS_LO u) (R.IU_SNAP_TS_HI u) = a ∧
      t.rd64 (R.IU_ACC_COUNT_LO u) (R.IU_ACC_COUNT_HI u) = BitVec.ofNat 64 s.iu[u].live.count ∧ CountsOne s t (R.IU_EVT_CNT u 0) ∧
      ∀ k : Nat, k < 1024 → t.rd (R.IU_HIST_BIN u k) = word (Tab.get (fun _ => 0) s.iu[u].live.bins k))

/-- R190, R192 to R196, R202 to R204, R208: the oldest start is decided once its window is known. A single clean stop in the window enters
the statistics with its corrected difference, and does not where the update fails twice; a start without a stop is counted in
IU_MISS_CNT. -/
def Obligations.IntervalResultsEnterTheStatistics : Prop :=
  (∀ (s : State) (u : Fin 16) (a b : EdgeRec) (r : List EdgeRec) (x y : Bool), Decides s u a r [⟨b, x, y⟩] → CleanPair s u a b →
    ∃ t, exec (.iuDecide u false) s = .next t ∧ t.iu[u].starts = r ∧
      t.iu[u].live = s.iu[u].live.take (s.iuCfg u a.stamp).ofs.toInt (s.iuCfg u a.stamp).bw (s.iuDiff a.stamp b.stamp)) ∧
  (∀ (s : State) (u : Fin 16) (a b : EdgeRec) (r : List EdgeRec) (x y : Bool), Decides s u a r [⟨b, x, y⟩] → CleanPair s u a b →
    s.iu[u].active = true → ∃ t, exec (.iuDecide u true) s = .next t ∧ t.iu[u].starts = r ∧ t.iu[u].live = s.iu[u].live ∧
      t.iu[u].fault = true ∧ CountsOne s t (R.IU_EVT_CNT u 3)) ∧
  (∀ (s : State) (u : Fin 16) (a : EdgeRec) (r : List EdgeRec), Decides s u a r [] →
    ∃ t, exec (.iuDecide u false) s = .next t ∧ t.iu[u].starts = r ∧ t.iu[u].live = s.iu[u].live ∧ CountsOne s t (R.IU_MISS_CNT u)) ∧
  (∀ (b : IuBank) (ofs x : Int) (bw : Nat), -(2 ^ 95) < b.sum + x → b.sum + x < 2 ^ 95 - 1 → -(2 ^ 95) < b.sum → b.sum < 2 ^ 95 - 1 →
    b.count + 1 < 2 ^ 64 → b.sq + (x * x).toNat < 2 ^ 128 → (b.take ofs bw x).count = b.count + 1 ∧ (b.take ofs bw x).sum = b.sum + x ∧
      (b.take ofs bw x).sq = b.sq + (x * x).toNat ∧ (b.take ofs bw x).low = min b.low x ∧ (b.take ofs bw x).high = max b.high x ∧
      ∀ k : Nat, k < 1024 → ofs + k * 2 ^ bw ≤ x → x < ofs + (k + 1) * 2 ^ bw →
        Tab.get (fun _ => 0) (b.take ofs bw x).bins k = min (Tab.get (fun _ => 0) b.bins k + 1) 0xFFFFFFFF)

/-- R217, R226, R227, R233, R235: an idle line gives an IDLE symbol; a symbol is delivered to the port of its engine, or discarded
while the engine takes none; a port releases its oldest symbol into the FIFO, or counts a loss when the FIFO is full. -/
def Obligations.SymbolsReachTheEngine : Prop :=
  (∀ (s : State) (x : Fin 128) (a : Stamp), s.settle.xt[x].active = true → s.settle.xtKind x = 1 → s.settle.xtIdleN x ≠ 0 →
    s.settle.xt[x].idled = false → s.settle.xt[x].lastEdge = some a → s.settle.xt[x].sym = none → s.settle.xt[x].floor = none →
    upto (shift a ((s.settle.xtIdleN x * s.settle.xtPer x + 32).fdiv 64)) (s.settle.now - State.lagTu) = true →
    ∃ t y, exec (.idleSymbol x) s = .next t ∧ t.xt[x].out = s.settle.xt[x].out ++ [y] ∧ t.xt[x].idled = true ∧
      y.stamp = shift a ((s.settle.xtIdleN x * s.settle.xtPer x + 32).fdiv 64) ∧ fld y.info 21 16 = 4 ∧ y.data = 0) ∧
  (∀ (s : State) (x : Fin 128) (y : Sym) (r : List Sym) (e : Fin 256), (extracted s x).xt[x].out = y :: r → (extracted s x).xtTarget x = e →
    (extracted s x).gangSize e = 1 →
    ((extracted s x).engOn e = true → ∃ t, exec (.symbolDelivery x) s = .next t ∧ t.xt[x].out = r ∧ y ∈ t.eng[e].merge ∧
      t.eng[e].merge.length = (extracted s x).eng[e].merge.length + 1 ∧ CountsOne (extracted s x) t (R.ME_X_SYM_CNT x)) ∧
    ((extracted s x).engOn e = false → ∃ t, exec (.symbolDelivery x) s = .next t ∧ t.xt[x].out = r ∧ t.eng = (extracted s x).eng ∧
      CountsOne (extracted s x) t (engReg R.ME_DISC_CNT e))) ∧
  (∀ (s : State) (e : Fin 256) (y : Sym) (r : List Sym), (portFed s e).eng[e].merge = y :: r →
    before y.stamp ((portFed s e).portHorizon e) = true → (portFed s e).gangSize e = 1 → (portFed s e).eng[e].loss = none →
    ((portFed s e).eng[e].fifo.length < 64 → ∃ t, exec (.symbolRelease e) s = .next t ∧
      t.eng[e] = { (portFed s e).eng[e] with merge := r, fifo := (portFed s e).eng[e].fifo ++ [y] }) ∧
    (64 ≤ (portFed s e).eng[e].fifo.length → ∃ t, exec (.symbolRelease e) s = .next t ∧ t.eng[e].merge = r ∧
      t.eng[e].fifo = (portFed s e).eng[e].fifo ∧ t.eng[e].loss = some ⟨y.stamp, 1, y.info⟩ ∧
      CountsOne (portFed s e) t (engReg R.ME_LOSS_CNT e)))

/-- R231, R232, R236, R238: starting, stopping and kicking an engine, its scratchpad through ME_SPD, and a timer whose deadline the
stream horizon has passed. -/
def Obligations.EngineControl : Prop :=
  (∀ (s : State) (m : Master) (e : Fin 256), Open s m (R.ME_GO (e.val / 32)) → s.reaches m s.pmap.me[e] = true → s.gangLog e = 0 →
    s.sleeping 1 e = false → s.eng[e].st = 1 ∨ s.eng[e].st = 4 ∨ s.eng[e].st = 5 →
    ∃ t, exec (.meGo m (Fin.ofNat 8 (e.val / 32)) (oneBit (e.val % 32))) s = .next t ∧ t.eng[e].st = 2 ∧ t.eng[e].pc = s.entryPc e ∧
      (∀ n : Nat, t.gpr e n = 0) ∧ t.eng[e].fifo = [] ∧ t.eng[e].emask = 0 ∧ t.rd64 (engReg R.ME_STEP_LO e) (engReg R.ME_STEP_HI e) = 0 ∧
      ∀ k : Fin 256, k ≠ e → t.eng[k] = s.eng[k]) ∧
  (∀ (s : State) (p : Fin 4) (e : Fin 256), Open s (.hp p) (R.ME_GO (e.val / 32)) → s.pmap.me[e] = p → s.gangLog e = 0 →
    s.eng[e].st = 2 ∨ s.eng[e].st = 3 → ∃ t, exec (.meGo (.hp p) (Fin.ofNat 8 (e.val / 32)) (oneBit (e.val % 32))) s = .next t ∧
      t.eng = s.eng ∧ CountsOne s t (R.GLB_EVT_CNT p 4)) ∧
  (∀ (s : State) (m : Master) (e : Fin 256), Open s m (R.ME_STOP (e.val / 32)) → s.reaches m s.pmap.me[e] = true → s.gangLog e = 0 →
    s.eng[e].st = 2 ∨ s.eng[e].st = 3 → ∃ t, exec (.meStop m (Fin.ofNat 8 (e.val / 32)) (oneBit (e.val % 32))) s = .next t ∧
      t.eng[e] = { s.eng[e] with st := 4 } ∧ ∀ k : Fin 256, k ≠ e → t.eng[k] = s.eng[k]) ∧
  (∀ (s : State) (m : Master) (e : Fin 256) (w : Word), Open s m (engReg R.ME_KICK e) → s.reaches m s.pmap.me[e] = true →
    ∃ t, exec (.meKick m e w) s = .next t ∧ t.eng[e] = { s.eng[e] with kick := w, kicked := true }) ∧
  (∀ (s : State) (m : Master) (e : Fin 256) (d : Word), SpdReaches s m e → s.eng[e].st ≠ 0 →
    ∃ t, exec (.meSpdAccess m e true d 0) s = .next t ∧ t.resp = [(m, .data (s.padRd e (s.f (engReg R.ME_SPA e) 16 2 * 4)))] ∧
      t.f (engReg R.ME_SPA e) 16 2 = (s.f (engReg R.ME_SPA e) 16 2 + 1) % 32768 ∧ t.sram = s.sram) ∧
  (∀ (s : State) (m : Master) (e : Fin 256) (d : Word), SpdReaches s m e → s.eng[e].st = 1 ∨ s.eng[e].st = 4 ∨ s.eng[e].st = 5 →
    ∃ t, exec (.meSpdAccess m e false d 0) s = .next t ∧ t.padRd e (s.f (engReg R.ME_SPA e) 16 2 * 4) = d ∧
      t.f (engReg R.ME_SPA e) 16 2 = (s.f (engReg R.ME_SPA e) 16 2 + 1) % 32768 ∧
      ∀ a : Nat, a / 4 ≠ sramAt 1 e (s.f (engReg R.ME_SPA e) 16 2 * 4) / 4 → t.sramRd a = s.sramRd a) ∧
  (∀ (s : State) (e : Fin 256) (k : Fin 2) (d : Stamp), (portFed s e).eng[e].timer[k].at_ = some d →
    before d ((portFed s e).portHorizon e) = true →
    ((portFed s e).eng[e].fifo ++ (portFed s e).eng[e].merge).all (fun y => before d y.stamp) = true →
    ∃ t, exec (.timerPending e k) s = .next t ∧ t.eng[e].timer[k] = ⟨some d, true⟩)

/-- R239, R250, R257 to R268: a gang member's message in slice order, and what the queue manager makes of a message. -/
def Obligations.MessagesReachTheQueues : Prop :=
  (∀ (s : State) (e : Fin 256) (m : OutMsg) (r : List OutMsg), s.eng[e].hold = m :: r → s.mayRelease e m = true →
    s.eng[e].port.length < 4 → ∃ t x, exec (.gangMsgRelease e) s = .next t ∧
      t.eng[e] = { s.eng[e] with hold := r, port := s.eng[e].port ++ [m] } ∧ t.qm.mm = s.qm.mm ++ [x] ∧ x.queue = m.queue ∧
      x.stamp = m.stamp ∧ x.part = s.pmap.me[e]) ∧
  (∀ (s : State) (e : Fin 256) (m : OutMsg) (r : List OutMsg), s.eng[e].port = m :: r → s.portTurn e m = true → s.srcTurn e m = true →
    m.src < 0x8000 → m.type < 0xF0 → PlainQueue s s.pmap.me[e] m.queue (1 + ncont m.bytes.length) →
    ∃ t, exec (.qmAccept e) s = .next t ∧ t.eng[e].port = r ∧
      (t.qSt m.queue).msgs = (s.qSt m.queue).msgs ++ [{
        recs := qrRecords m.queue (s.f (qd m.queue 3) 15 0) false ⟨m.stamp, m.type, m.bytes, m.src⟩, ord := s.qm.ord,
        ts := m.stamp, pos := (s.qSt m.queue).next, kind := .msg, seq := s.f (qd m.queue 3) 15 0, at_ := s.tb.count }] ∧
      t.rd (qd m.queue 2) = s.rd (qd m.queue 2) + word (1 + ncont m.bytes.length) ∧
      t.f (qd m.queue 3) 15 0 = (s.f (qd m.queue 3) 15 0 + 1) % 65536) ∧
  (∀ (s : State) (e : Fin 256) (m : OutMsg) (r : List OutMsg), s.eng[e].port = m :: r → s.portTurn e m = true → s.srcTurn e m = true →
    (s.qSt m.queue).sealAsk = false → s.qType m.queue ≠ 1 ∨ s.qState m.queue ≠ 1 ∨ s.qPart m.queue ≠ s.pmap.me[e] ∨ 0xF0 ≤ m.type ∧ m.src < 0x8000 →
    ∃ t, exec (.qmAccept e) s = .next t ∧ t.eng[e].port = r ∧ t.qm = s.qm ∧ CountsOne s t (engReg R.ME_MDROP_CNT e)) ∧
  (∀ (s : State) (e : Fin 256) (m : OutMsg) (r : List OutMsg), s.eng[e].port = m :: r → m.src < 0x8000 → m.type < 0xF0 →
    s.qType m.queue = 1 → s.qState m.queue = 1 → s.qPart m.queue = s.pmap.me[e] → s.fb (qd m.queue 0) 11 = false →
    s.qPolicy m.queue = 2 → (s.qSt m.queue).sealAsk = false → (s.qSt m.queue).owed = none → s.qFits m.queue { recs := List.replicate (1 + ncont m.bytes.length) [], ord := 0 } = false →
    exec (.qmAccept e) s = .next s) ∧
  (∀ (s : State) (e k : Fin 256) (m o : OutMsg) (r l : List OutMsg), s.eng[e].port = m :: r → s.eng[k].port = o :: l → k ≠ e →
    o.queue = m.queue → OutMsg.srcWord o < OutMsg.srcWord m → s.portTurn k o = true → exec (.qmAccept e) s = .next s) ∧
  (∀ (s : State) (q : Fin 16384) (page : Nat), ∃ t, exec (.pageFill q page) s = .next t ∧
    (t.qSt q).spilled = (s.qSt q).spilled.filter (fun x => x.1 ≠ page) ∧ (t.qSt q).msgs.length = (s.qSt q).msgs.length ∧ t.eng = s.eng)

/-- R255, R256, R262, R277, R278: enabling, disabling and draining a queue, and the start of a sealed flow at the enable stamp. -/
def Obligations.QueuesEnableAndDrain : Prop :=
  (∀ (s : State) (m : Master) (q : Fin 16384) (w : Word), Open s m (qd q 0) → s.reaches m (s.qPart q) = true → s.fb (qd q 0) 3 = false →
    s.qState q = 0 → (descStored s q (w ||| 8#32)).qState q = 0 →
    exec (.queueEnable m q w) s = .next ((descStored s q (w ||| 8#32)).qEnable q)) ∧
  (∀ (s : State) (q : Fin 16384), s.qCause q = none → s.qType q = 1 →
    (((s.qEnable q).qSt q).st = .pend s.stamp32 ∧ ((s.qEnable q).qSt q).msgs = [] ∧ (s.qEnable q).fb (qd q 0) 3 = true ∧
      ((s.qEnable q).qSt q).sealAsk = s.fb (qd q 0) 10 ∧ ((s.qEnable q).qSt q).sealed = none ∧
      (s.qEnable q).rd (qd q 2) = 0 ∧ (s.qEnable q).f (R.QM_POOL (s.qPart q)) 31 16 =
        s.f (R.QM_POOL (s.qPart q)) 31 16 - max 2 (s.f (qd q 4) 15 0))) ∧
  (∀ (s : State) (q : Fin 16384) (c : Nat), s.qCause q = some c →
    (s.qEnable q).qm = s.qm ∧ (s.qEnable q).fb (qd q 0) 3 = false ∧ CountsOne s (s.qEnable q) (R.QM_EVT_CNT (s.qPart q) 2)) ∧
  (∀ (s : State) (q : Fin 16384) (t : Stamp), (s.qSt q).sealAsk = true → (s.qSt q).st = .pend t → s.reached t = true →
    ((s.qSealSet q).qSt q).sealAsk = false ∧ ((s.qSealSet q).qSt q).sealed = s.sealKey ∧
      (∀ gen : Nat, s.sealKey = some gen →
        ((s.qSealSet q).qSt q).chain = Config.sha384 (qStartRec q gen t s.sc.fuse.device) ∧ (s.qSealSet q).regs = s.regs) ∧
      (s.sealKey = none → CountsOne s (s.qSealSet q) (R.QM_EVT_CNT (s.qPart q) 4))) ∧
  (∀ (s : State) (m : Master) (q : Fin 16384) (w : Word) (a : Stamp), Open s m (qd q 0) → s.reaches m (s.qPart q) = true →
    s.fb (qd q 0) 3 = true → s.qType q = 1 → (s.qSt q).st = .pend a → s.reached a = true → (s.qSt q).sealAsk = false → (s.qSt q).sealed = none →
    ∃ t, exec (.queueDisable m q w) s = .next t ∧ t.qSt q = { s.qSt q with st := .drain } ∧ t.fb (qd q 0) 3 = false) ∧
  (∀ (s : State) (q : Fin 16384), (s.qSt q).st = .drain → (s.qSt q).msgs = [] → (s.qSt q).sealDue = [] → (s.qSt q).owed = none →
    ∃ t, exec (.queueDrained q) s = .next t ∧ t.qSt q = {} ∧
      t.f (R.QM_POOL (s.qPart q)) 31 16 = min 0xFFFF (s.f (R.QM_POOL (s.qPart q)) 31 16 + (s.qSt q).res))

/-- R270 to R275: an event ring takes a record and its shadow; doorbells; the interrupt of MOD_TIME. -/
def Obligations.RingsAndDoorbells : Prop :=
  (∀ (s : State) (p : Fin 4) (q : Fin 16384) (r : List Byte) (rest : List (List Byte)), s.qPart q = p → s.evtRing p = some q.val →
    s.ringOn p q = true → s.mayIssue p = true → s.evt[p].recs.drop s.evt[p].sent = r :: rest → r.length = 16 → 1 ≤ s.ringFree q →
    ∃ t tx, exec (.ringWrite q 1 [] []) s = .next t ∧ t.evt[p].sent = s.evt[p].sent + 1 ∧ t.rd (qd q 2) = s.rd (qd q 2) + 1#32 ∧
      t.port[p].tx = s.port[p].tx ++
        (⟨.slots q (s.ringSt q).life, s.ringBase q + (s.rd (qd q 2)).toNat % s.ringSize q * 16, r, false⟩ ::
          ⟨.shadow q (s.ringSt q).life (s.rd (qd q 2) + 1#32) [(0, 1)], s.ringShadow q, leBytes 8 (s.rd (qd q 2) + 1#32).toNat, false⟩ :: tx)) ∧
  (∀ (s : State) (p : Fin 4) (q : Fin 16384) (x : Word), Rings s p q → s.ringOn p q = true → s.doorbellOk q x = true →
    ∃ t, exec (.doorbell p q x) s = .next t ∧ (s.qType q = 2 → t.rd (qd q 2) = x) ∧ (s.qType q ≠ 2 → t.rd (qd q 1) = x)) ∧
  (∀ (s : State) (p : Fin 4) (q : Fin 16384) (x : Word), Rings s p q → s.ringOn p q = true → s.doorbellOk q x = false →
    ∃ t, exec (.doorbell p q x) s = .next t ∧ t.rd (qd q 1) = s.rd (qd q 1) ∧ t.rd (qd q 2) = s.rd (qd q 2) ∧ t.qm = s.qm ∧
      CountsOne s t (R.QM_EVT_CNT p 3)) ∧
  (∀ (s : State) (p : Fin 4) (q : Fin 16384) (x : Word), Rings s p q → s.ringOn p q = false →
    ∃ t, exec (.doorbell p q x) s = .next t ∧ t.qm = s.qm ∧ CountsOne s t (R.GLB_EVT_CNT p 4)) ∧
  (∀ (s : State) (q : Fin 16384) (a : Count), (s.ringSt q).modAt = some a → s.ringOn (s.qPart q) q = true → s.ringInt q = true →
    s.f (qd q 3) 31 16 ≠ 0 → s.since a (2000 * s.f (qd q 3) 31 16) = true → s.mayIssue (s.qPart q) = true →
    s.rd (qd q 1) ≠ s.rd (qd q 2) →
    exec (.interruptModTimeout q) s =
      .next ((s.setRing q (fun G => { G with modN := 0, modAt := none })).raiseVec (s.qPart q) (s.f (qd q 0) 24 16))) ∧
  (∀ (s : State) (p : Fin 4) (v : Nat), s.msixEn p = true → v < 512 → s.vecMasked p v = true →
    (s.raiseVec p v).port[p].tx = s.port[p].tx ∧ v ∈ (s.raiseVec p v).port[p].pba) ∧
  (∀ (s : State) (p : Fin 4) (v : Nat), s.msixEn p = true → v < 512 → s.vecMasked p v = false → s.mayIssue p = true →
    s.raiseVec p v = s.sendMsix p v)

/-- R298 to R303, R305 to R307: a start request, and the start at a grid instant; the jump latch, the end of a segment by its flow, a taken jump, the end of a run. -/
def Obligations.StimulusStartsSegmentsAndJumps : Prop :=
  (∀ (s : State) (g : Fin 8), Plays s g → s.sg[g].closed = false →
    s.reached (s.launch (s.sg[g].segAt + (s.segLen g s.sg[g].entry - 64))) = true → ∃ t, exec (.jumpLatchClose g) s = .next t ∧
      t.sg[g].closed = true ∧ (s.sg[g].jump = none → t.sg[g].taken = false) ∧
      (∀ j, s.sg[g].jump = some j → s.entJen g s.sg[g].entry = true →
        before j.at_ (s.launch (s.sg[g].segAt + (s.segLen g s.sg[g].entry - 64))) = true → t.sg[g].taken = true)) ∧
  (∀ (s : State) (g : Fin 8) (k i o : Nat), Plays s g → s.sg[g].closed = true → s.sg[g].taken = false → s.sg[g].stopAt = none →
    s.reached (s.launch (s.boundaryIdx g)) = true → s.nextEntry g s.sg[g].entry (s.sgInner g) (s.sgOuter g) = some (k, i, o) →
    ∃ t, exec (.segmentEnd ⟨g, []⟩) s = .next t ∧ t.sg[g].entry = k ∧ t.sg[g].st = .run ∧ t.sg[g].closed = false ∧
      t.sg[g].segAt = s.boundaryIdx g + (if s.deadRule g then s.deadSamples else 0) ∧
      t.sg[g].played = s.sg[g].played + s.segLen g s.sg[g].entry ∧ t.rd (R.SG_LOOP g) = word (o * 65536 + i)) ∧
  (∀ (s : State) (g : Fin 8) (j : JReq), Plays s g → s.sg[g].closed = true → s.sg[g].taken = true → s.sg[g].jump = some j →
    j.src = .write → s.sg[g].stopAt = none → s.reached (s.launch (s.boundaryIdx g)) = true → ∃ t, exec (.segmentEnd ⟨g, []⟩) s = .next t ∧
      t.sg[g].entry = s.entJtgt g s.sg[g].entry ∧ t.sg[g].jump = none ∧ t.rd (R.SG_LOOP g) = 0 ∧
      t.rd64 (R.SG_JUMP_TS_LO g) (R.SG_JUMP_TS_HI g) = s.launch (s.boundaryIdx g) ∧ CountsOne s t (R.SG_EVT_CNT g 5)) ∧
  (∀ (s : State) (g : Fin 8), Plays s g → s.sg[g].closed = true → s.sg[g].taken = false → s.sg[g].jump = none → s.sg[g].stopAt = none →
    s.reached (s.launch (s.boundaryIdx g)) = true → s.entFlow g s.sg[g].entry = 4 →
    ∃ t, exec (.segmentEnd ⟨g, []⟩) s = .next t ∧ exec (.sgStopped g) s = .next t ∧ t.sg[g].st = .idle ∧
      t.rd64 (R.SG_STOP_LO g) (R.SG_STOP_HI g) = s.launch (s.boundaryIdx g) ∧ CountsOne s t (R.SG_EVT_CNT g 1)) ∧
  (∀ (s : State) (m : Master) (g : Fin 8), Open s m (R.SG_JUMP g) → s.reaches m s.pmap.sg[g] = true → s.sg[g].st = .run →
    s.sg[g].jq = [] → s.reached (s.launch (s.boundaryIdx g)) = false → ∃ t, exec (.sgJump m g) s = .next t ∧
      t.sg[g] = { s.sg[g] with jq := [⟨s.stamp32, .write⟩] }) ∧
  (∀ (s : State) (m : Master) (g : Fin 8), Open s m (R.SG_JUMP g) → s.reaches m s.pmap.sg[g] = true → s.sg[g].st = .idle →
    ∃ t, exec (.sgJump m g) s = .next t ∧ t.sg = s.sg ∧ CountsOne s t (R.SG_EVT_CNT g 2)) ∧
  (∀ (s : State) (g : Fin 8) (q : Fin 8) (u : Stamp) (c : Count) (act : Bool), s.fb (R.SG_JSRC g) 8 = true →
    q.val = s.f (R.SG_JSRC g) 2 0 → s.trg.seq[q].evLog = [(u, c, act)] → act = !s.fb (R.SG_JSRC g) 4 → upto c.stamp s.now = true →
    before s.sg[g].jFrom.stamp c.stamp = true → (∀ v, s.sg[g].jLast = some v → before v u = true) → s.sg[g].st = .run →
    s.sg[g].jq = [] → s.sg[g].jump = none → s.reached (s.launch (s.boundaryIdx g)) = false →
    ∃ t, exec (.seqJumpArrival g) s = .next t ∧ t.sg[g].jump = some ⟨c.stamp, .seq⟩ ∧ t.sg[g].jLast = some u) ∧
  (∀ (s : State) (g : Fin 8) (j k : JReq) (lim : Stamp), s.sg[g].st = .run → s.sg[g].jq = [j] → before j.at_ lim = true → j.src = .write →
    (s.sg[g].jump = none → (s.jumpsTo g lim).sg[g].jump = some j ∧ (s.jumpsTo g lim).sg[g].jq = []) ∧
    (s.sg[g].jump = some k → (s.jumpsTo g lim).sg[g].jump = some k ∧ (s.jumpsTo g lim).sg[g].jq = [] ∧
      (s.jumpsTo g lim).rd (R.SG_JDROP_CNT g) = sat32 (s.rd (R.SG_JDROP_CNT g)) 1 ∧
      CountsOne s (s.jumpsTo g lim) (R.SG_EVT_CNT g 6))) ∧
  (∀ (s : State) (m : Master) (g : Fin 8), Open s m R.SG_HALT → s.reaches m s.pmap.sg[g] = true →
    (s.sg[g].st = .run → s.sg[g].stopAt = none →
      ∃ t, exec (.sgHalt m (oneBit g)) s = .next t ∧ t.sg[g] = { s.sg[g] with stopAt := some s.stamp32 }) ∧
    (s.sg[g].st = .wait → s.sg[g].jq = [] → ∃ t, exec (.sgHalt m (oneBit g)) s = .next t ∧ t.sg[g].st = .idle) ∧
    (s.sg[g].st = .idle → ∃ t, exec (.sgHalt m (oneBit g)) s = .next t ∧ t.sg = s.sg ∧ CountsOne s t (R.SG_EVT_CNT g 2))) ∧
  (∀ (s : State) (g : Fin 8) (h : Nat), Plays s g → s.sg[g].jump = none → s.haltIdx g = some h → h ≤ s.boundaryIdx g →
    s.reached (s.launch h) = true → ∃ t, exec (.sgStopped g) s = .next t ∧ t.sg[g].st = .idle ∧
      t.rd64 (R.SG_STOP_LO g) (R.SG_STOP_HI g) = s.launch h ∧ CountsOne s t (R.SG_EVT_CNT g 1)) ∧
  (∀ (s : State) (m : Master) (g : Fin 8), Open s m R.SG_GO → s.reaches m s.pmap.sg[g] = true → s.sgCause g = none →
    ∃ t, exec (.sgGo m (oneBit g)) s = .next t ∧ t.sg[g].st = .wait ∧ t.sg[g].cw = s.tb.count) ∧
  (∀ (s : State) (m : Master) (g : Fin 8) (c : Nat × Nat), Open s m R.SG_GO → s.reaches m s.pmap.sg[g] = true → s.sgCause g = some c →
    ∃ t, exec (.sgGo m (oneBit g)) s = .next t ∧ t.sg = s.sg ∧ CountsOne s t (R.SG_EVT_CNT g 2)) ∧
  (∀ (s : State) (g : Fin 8) (i : Nat), s.sg[g].st = .wait → s.startIdx g = some i → s.reached (s.launch i) = true → s.sg[g].jq = [] →
    s.sg[g].bad = [] → ∃ t, exec (.sgStart ⟨g, []⟩) s = .next t ∧ t.sg[g].st = .run ∧ t.sg[g].runAt = i ∧ t.sg[g].segAt = i ∧
      t.rd64 (R.SG_START_LO g) (R.SG_START_HI g) = s.launch i ∧ t.rd (R.SG_LOOP g) = 0 ∧ CountsOne s t (R.SG_EVT_CNT g 0)) ∧
  (∀ (s : State) (g : Fin 8), s.fb (R.SG_CTL g) 3 = false → s.grid.on = true →
    s.startIdx g = some (s.first64 (s.sg[g].cw + 20000#54).stamp))

/-- R292, R294, R308 to R312, R320: host streams, prefetching, starving, skew calibration and the local store. -/
def Obligations.StimulusStreamsAndStores : Prop :=
  (∀ (s : State) (m : Master) (g : Fin 8) (w : Word), Open s m (R.SG_STR_CTL g) → s.reaches m s.pmap.sg[g] = true →
    s.fb (R.SG_STR_CTL g) 31 = false → s.sg[g].st = .idle → exec (.streamEnable m g w) s =
      .next ((((heard s).wr (R.SG_STR_CTL g)
        (splice (fieldBits (R.SG_STR_CTL g)) (s.rd (R.SG_STR_CTL g)) (w ||| 0x80000000#32))).strEnable g).strPump g 64)) ∧
  (∀ (s : State) (g : Fin 8), (s.strEnable g).rd (R.SG_STR_HEAD g) = 0 ∧ (s.strEnable g).rd (R.SG_STR_TAIL g) = 0 ∧
    (s.strEnable g).sg[g].str = { ({} : StrSt) with life := s.sg[g].str.life + 1 }) ∧
  (∀ (s : State) (m : Master) (g : Fin 8) (x : Word), Open s m (R.SG_STR_DB g) → s.reaches m s.pmap.sg[g] = true →
    ((x - s.strTail g).toNat ≤ (s.strHead g + word (s.strRing g) - s.strTail g).toNat →
      ∃ t, exec (.sgStrDb m g x) s = .next t ∧ t.rd (R.SG_STR_TAIL g) = x) ∧
    ((s.strHead g + word (s.strRing g) - s.strTail g).toNat < (x - s.strTail g).toNat →
      ∃ t, exec (.sgStrDb m g x) s = .next t ∧ t.rd (R.SG_STR_TAIL g) = s.rd (R.SG_STR_TAIL g) ∧ CountsOne s t (R.SG_EVT_CNT g 8))) ∧
  (∀ (s : State) (g : Fin 8) (bs : List Byte), s.sg[g].st = .idle → s.strOn g = true → chunkBytes s.sg[g].str (s.strHead g).toNat = some bs →
    s.sg[g].str.again = 0 → s.fb (R.SG_STR_CTL g) 21 = false → ∃ t, exec (.streamChunkRead g) s = .next t ∧
      t.rd (R.SG_STR_HEAD g) = s.rd (R.SG_STR_HEAD g) + 1#32 ∧ ∃ n : Nat, t.sg[g].str.buf = s.sg[g].str.buf.drop n ++ padTo 4096 bs) ∧
  (∀ (s : State) (g : Fin 8) (n : Fin 4097), s.sg[g].st = .wait → s.sg[g].fetch.vis = s.sg[g].vis → s.sg[g].starve = none →
    s.entSrc g s.sg[g].fetch.entry = 1 → 2 * s.sg[g].fetch.off < s.segLen g s.sg[g].fetch.entry → s.sg[g].fifo = [] → 0 < n.val →
    n.val ≤ ceilDiv (s.segLen g s.sg[g].fetch.entry) 2 - s.sg[g].fetch.off → n.val ≤ s.fifoSize g →
    s.dcActive (s.entAddr g s.sg[g].fetch.entry + s.sg[g].fetch.off) = true →
    s.inShare (s.sgPart g) (s.entAddr g s.sg[g].fetch.entry + s.sg[g].fetch.off) n = true →
    s.badIn (s.entAddr g s.sg[g].fetch.entry + s.sg[g].fetch.off) n = [] → ∃ t, exec (.prefetchData g n) s = .next t ∧
      t.sg[g] = { s.sg[g] with
        fetch := { s.sg[g].fetch with off := s.sg[g].fetch.off + n },
        fifo := [⟨s.sg[g].fetch.vis, s.sg[g].fetch.off, s.memBytes (s.entAddr g s.sg[g].fetch.entry + s.sg[g].fetch.off) n⟩] }) ∧
  (∀ (s : State) (g : Fin 8), s.sg[g].st = .run → s.sg[g].starve = none →
    s.availTo g s.sg[g].okFrom < s.segLen g s.sg[g].entry → s.reached (s.launch (s.sg[g].segAt + s.availTo g s.sg[g].okFrom)) = true →
    ∃ t, exec (.sgUnderrun g) s = .next t ∧
      t.sg[g] = { s.sg[g] with starve := some (s.sg[g].segAt + s.availTo g s.sg[g].okFrom, s.availTo g s.sg[g].okFrom) } ∧
      CountsOne s t (R.SG_EVT_CNT g 3)) ∧
  (∀ (s : State) (g : Fin 8) (i o : Nat), s.sg[g].st = .run → s.sg[g].starve = some (i, o) → s.keepTime g = false →
    o < s.segLen g s.sg[g].entry → o < s.availTo g o → ∃ t, exec (.sgResume g) s = .next t ∧
      t.sg[g] = { s.sg[g] with
        starve := none, okFrom := o, segAt := s.sg[g].segAt + (s.firstIdx s.now - i), runAt := s.sg[g].runAt + (s.firstIdx s.now - i) } ∧
      t.rd (R.SG_UNDER_CNT g) = sat32 (s.rd (R.SG_UNDER_CNT g)) (s.firstIdx s.now - i) ∧ CountsOne s t (R.SG_EVT_CNT g 4)) ∧
  (∀ (s : State) (m : Master) (g : Fin 8) (b : Bool) (h : Fin 16), Open s m (R.SG_CAL g) → s.reaches m s.pmap.sg[g] = true →
    h.val = 2 * g.val + b2n b → s.sg[g].st = .idle → s.grid.on = true → s.grpPart h = s.sgPart g → s.groupIdle h = true →
    s.grp[h].calValid = true → ∃ t, exec (.sgCal m g b) s = .next t ∧ t.sg[g] = { s.sg[g] with st := .cal, cal := some h.val }) ∧
  (∀ (s : State) (g : Fin 8) (trims : List (Nat × Int)), s.sg[g].st = .cal → trims.length = 4 → ∃ t,
    exec (.sgCalDone g trims) s = .next t ∧ t.sg[g] = { s.sg[g] with st := .idle, cal := none } ∧ CountsOne s t (R.SG_EVT_CNT g 10) ∧
      ∀ (j : Nat) (e : Nat × Int), trims[j]? = some e →
        t.rd (R.SG_LANE_TRIM g j) = word ((BitVec.ofInt 16 e.2).toNat * 65536 + e.1 % 512)) ∧
  (∀ (s : State) (m : Master) (g : Fin 8) (d : Word), LsReaches s m g → ∃ t, exec (.sgLsAccess m g true d 0) s = .next t ∧
    t.resp = [(m, .data (s.sramRd (sramAt 3 g (s.f (R.SG_LS_ADDR g) 17 2 * 4))))] ∧ t.sram = s.sram ∧
    t.f (R.SG_LS_ADDR g) 17 2 = (s.f (R.SG_LS_ADDR g) 17 2 + 1) % 65536) ∧
  (∀ (s : State) (m : Master) (g : Fin 8) (d : Word), LsReaches s m g → s.sg[g].st = .idle →
    ∃ t, exec (.sgLsAccess m g false d 0) s = .next t ∧ t.sramRd (sramAt 3 g (s.f (R.SG_LS_ADDR g) 17 2 * 4)) = d ∧
      t.f (R.SG_LS_ADDR g) 17 2 = (s.f (R.SG_LS_ADDR g) 17 2 + 1) % 65536 ∧
      ∀ a : Nat, a / 4 ≠ sramAt 3 g (s.f (R.SG_LS_ADDR g) 17 2 * 4) / 4 → t.sramRd a = s.sramRd a)

/-- R326 to R329, R333 to R340: patrol scrubbing, its collisions with writes, Diapause and its end, the start-up march, and host scratch. -/
def Obligations.MemoriesScrubSleepAndServe : Prop :=
  (∀ (s : State) (i : Fin 256) (off : Nat), i.val < 32 → off < 2097152 → s.sleeping 0 i = false → s.mtStalls 0 i off false = false →
    (s.sramBadAt (sramAt 0 i off) = false → exec (.patrolScrub 0 i off ⟨0, none⟩) s = .next s) ∧
    (s.sramBadAt (sramAt 0 i off) = false → ∃ t, exec (.patrolScrub 0 i off ⟨1, none⟩) s = .next t ∧ CountsOne s t (R.SB_CE_CNT i) ∧
      t.sram = s.sram ∧ t.sramBad = s.sramBad) ∧
    (∀ w : BitVec 64, s.sramBadAt (sramAt 0 i off) = false → s.sramRd (sramAt 0 i (off / 8 * 8) + 4) ++ s.sramRd (sramAt 0 i (off / 8 * 8)) ≠ w →
      ∃ t, exec (.patrolScrub 0 i off ⟨1, some w⟩) s = .next t ∧ CountsOne s t (R.SB_COLL_CNT i) ∧
        t.sramRd (sramAt 0 i (off / 8 * 8)) = lo32 w ∧ t.sramRd (sramAt 0 i (off / 8 * 8) + 4) = hi32 w) ∧
    (∃ t, exec (.patrolScrub 0 i off ⟨2, none⟩) s = .next t ∧ CountsOne s t (R.SB_UE_CNT i) ∧ t.sramBadAt (sramAt 0 i off) = true ∧
      ∀ a : Nat, a / 8 ≠ sramAt 0 i off / 8 ∨ s.sramBadAt a = true → t.sramRd a = s.sramRd a)) ∧
  (∀ (s : State) (mem : Fin 4) (i : Fin 256) (off : Nat) (ecc : Fin 3) (w : Option (BitVec 64)), s.sleeping mem i = true →
    exec (.patrolScrub mem i off ⟨ecc, w⟩) s = .next s) ∧
  (∀ (s : State) (m : Master) (k : Fin 8) (w : Word), Open s m (R.SB_DIA_SP_ENTER k) →
    (∀ j : Nat, j < 32 → w.getLsbD j = true → s.reaches m (s.partOf .eng (32 * k + j)) = true) →
    exec (.sbDiaSpEnter m k w) s =
      .next (forAll (ones 32 w) (taken s (R.SB_DIA_SP_ENTER k)) (fun j s => s.diaSpEnter (Fin.ofNat 256 (32 * k + j))))) ∧
  (∀ (s : State) (m : Master) (k : Fin 8) (w : Word), Open s m (R.SB_DIA_SP_WAKE k) →
    (∀ j : Nat, j < 32 → w.getLsbD j = true → s.reaches m (s.partOf .eng (32 * k + j)) = true) →
    exec (.sbDiaSpWake m k w) s =
      .next (forAll (ones 32 w) (taken s (R.SB_DIA_SP_WAKE k)) (fun j s => s.wakeArr 1 (32 * k + j)))) ∧
  (∀ (s : State) (e : Fin 256), s.eng[e].st ≠ 2 → s.eng[e].st ≠ 3 →
    (s.diaSpEnter e).sleeping 1 e = true ∧ (s.diaSpEnter e).sram = s.sram ∧
      ((s.diaSpEnter e).arrSt 1 e).wakeAt = (if s.mtOn 1 e then some s.tb.count else none)) ∧
  (∀ (s : State) (e : Fin 256), s.eng[e].st = 2 ∨ s.eng[e].st = 3 →
    (s.diaSpEnter e).arr = s.arr ∧ CountsOne s (s.diaSpEnter e) (R.SB_EVT_CNT (s.arrPart 1 e) 6)) ∧
  (∀ (s : State) (mem : Fin 2) (i : Fin 256), s.sleeping mem i = true → (s.arrSt mem i).wakeAt.isSome = true → s.asleep = [] →
    (mem.val = 1 → s.eng[i].goWait = none) →
    exec (.diapauseWakeDone mem i) s = .next (s.setArr mem i (fun A => { A with dia := false, wakeAt := none }))) ∧
  (∀ (s : State) (mem : Fin 2) (i : Fin 256), (s.arrSt mem i).wakeAt = none → (mem.val = 1 → s.eng[i].goWait = none) →
    exec (.diapauseWakeDone mem i) s = .next s) ∧
  (∀ (s : State) (e : Fin 256) (a : Count), s.sleeping 1 e = false → s.eng[e].goWait = some a → s.since a 24000 = true →
    exec (.diapauseWakeDone 1 e) s = .next (s.engStart e)) ∧
  (∀ (s : State) (fails : List (Nat × Nat × Nat)), s.sc.marched = false → s.phase ≠ 0 → s.phase ≠ 15 → ∃ t,
    exec (.startupMarchDone fails) s = .next t ∧ t.sram = [] ∧ t.sramBad = [] ∧ t.sc.marched = true) ∧
  (∀ (s : State) (p : Fin 4) (off : Fin 0x1000000) (b o : Nat) (d : Word), ScratchReaches s p off b o →
    s.sramBadAt (sramAt 0 b o) = false →
    (∃ t, exec (.scratchWindowAccess p off [d] true 15 0 false none) s = .next t ∧ t.sram = s.sram ∧
      t.resp = [(.hp p, .data (s.sramRd (sramAt 0 b o)))]) ∧
    (∃ t, exec (.scratchWindowAccess p off [d] false 15 0 false none) s = .next t ∧ t.sramRd (sramAt 0 b o) = d ∧
      ∀ a : Nat, a / 4 ≠ sramAt 0 b o / 4 → t.sramRd a = s.sramRd a) ∧
    (∃ t, exec (.scratchWindowAccess p off [d] false 15 0 true none) s = .next t ∧ t.sram = s.sram)) ∧
  (∀ (s : State) (p : Fin 4) (off : Fin 0x1000000) (b o : Nat) (d : Word), ScratchReaches s p off b o →
    s.sramBadAt (sramAt 0 b o) = true → ∃ t, exec (.scratchWindowAccess p off [d] true 15 0 false none) s = .next t ∧ t.sram = s.sram ∧
      t.resp = [(.hp p, .poisoned (s.sramRd (sramAt 0 b o)))])

/-- R341 to R348, R353, R354: march tests from request to end, and the end of a wipe of the Cocoon. -/
def Obligations.MarchTestsAndCocoonWipe : Prop :=
  (∀ (s : State) (m : Master) (p : Fin 4) (w : Word), Open s m (R.SB_MT_CTL p) → s.reaches m p = true → s.mt[p].busy = false →
    fld w 9 8 = 0 → fld w 7 0 < 32 → s.pmap.bank[Fin.ofNat 32 (fld w 7 0)] = p →
    s.f (R.SB_MT_RANGE p) 8 0 ≤ s.f (R.SB_MT_RANGE p) 24 16 → s.mtSkips 0 (fld w 7 0) (s.f (R.SB_MT_RANGE p) 8 0) = false →
    ∃ t, exec (.mtGo m p w) s = .next t ∧
      t.mt[p] = { ({} : MtSt) with
        busy := true, mem := 0, index := fld w 7 0, destr := bit w 17, repair := bit w 16,
        slices := (List.range (s.f (R.SB_MT_RANGE p) 24 16 + 1 - s.f (R.SB_MT_RANGE p) 8 0)).map
          (fun k => (s.f (R.SB_MT_RANGE p) 8 0 + k, 0)) } ∧
      t.f (R.SB_MT_STATUS p) 24 16 = s.f (R.SB_MT_RANGE p) 8 0 ∧ t.f (R.SB_MT_STATUS p) 30 29 = 0) ∧
  (∀ (s : State) (m : Master) (p : Fin 4) (w : Word), Open s m (R.SB_MT_CTL p) → s.reaches m p = true → s.mt[p].busy = true →
    ∃ t, exec (.mtGo m p w) s = .next t ∧ t.mt = s.mt ∧ CountsOne s t (R.SB_EVT_CNT p 4)) ∧
  (∀ (s : State) (m : Master) (p : Fin 4) (w : Word), Open s m (R.SB_MT_CTL p) → s.reaches m p = true →
    (s.mt[p].busy = true → ∃ t, exec (.mtAbort m p w) s = .next t ∧ t.mt[p] = {} ∧ t.f (R.SB_MT_STATUS p) 30 29 = 3 ∧
      CountsOne s t (R.SB_EVT_CNT p 3)) ∧
    (s.mt[p].busy = false → ∃ t, exec (.mtAbort m p w) s = .next t ∧ t.mt = s.mt)) ∧
  (∀ (s : State) (p : Fin 4) (k n : Nat) (x : Nat × Nat) (r : List (Nat × Nat)), s.mt[p].busy = true →
    s.mt[p].slices = (k, n) :: x :: r → s.sleeping s.mt[p].mem s.mt[p].index = false → s.asleep = [] →
    s.mtSkips s.mt[p].mem s.mt[p].index x.1 = false →
    (∃ t, exec (.mtSliceDone p []) s = .next t ∧ t.mt[p] = { s.mt[p] with slices := x :: r, tested := s.mt[p].tested + 1 } ∧
      t.f (R.SB_MT_STATUS p) 24 16 = x.1 % 512 ∧
      (s.mt[p].destr = true → s.mt[p].mem ≠ 2 → ∀ o : Nat, o < 4096 → t.sramRd (sramAt s.mt[p].mem s.mt[p].index (4096 * k) + o) = 0)) ∧
    (∀ o : Nat, o < 4096 → s.mt[p].repair = false → s.mt[p].failAt = none → ∃ t, exec (.mtSliceDone p [o]) s = .next t ∧
      t.mt[p] = { s.mt[p] with
        slices := x :: r, tested := s.mt[p].tested + 1, failed := s.mt[p].failed + 1, failAt := some (4096 * k + o) })) ∧
  (∀ (s : State) (p : Fin 4) (k n : Nat), s.mt[p].busy = true → s.mt[p].slices = [(k, n)] →
    s.sleeping s.mt[p].mem s.mt[p].index = false → s.asleep = [] →
    ∃ t, exec (.mtSliceDone p []) s = .next t ∧ t.mt[p] = {} ∧ CountsOne s t (R.SB_EVT_CNT p 3) ∧
      t.f (R.SB_MT_STATUS p) 30 29 = (if s.mt[p].failed = 0 then 1 else 2) ∧
      t.f (R.SB_MT_RESULT p) 29 20 = (s.mt[p].tested + 1) % 1024) ∧
  (∀ s : State, s.cocoon.wiping = true →
    (∃ t, exec (.sbCocoonWipe false false) s = .next t ∧ t.cocoon = { s.cocoon with wiping := false } ∧
      CountsOne s t R.SB_COCOON_WIPES ∧ t.f R.SB_COCOON_STATUS 9 8 = s.cocoon.cause % 4) ∧
    (∃ t, exec (.sbCocoonWipe false true) s = .next t ∧ t.cocoon.verifyFail = true ∧ t.phase = 15 ∧ t.f R.PG_FAULT 15 0 = 0xF1)) ∧
  (∀ s : State, s.cocoon.wiping = false → exec (.sbCocoonWipe false false) s = .next s) ∧
  (∀ s : State, s.phase ≠ 0 → s.cocoon.wiping = false → ∃ t, exec (.sbCocoonWipe true false) s = .next t ∧ t.sealKey = none ∧
    t.cocoon.cause = 3 ∧ t.cocoon.wiping = true)

/-- R360 to R371, R538: where data and check units lie, accesses and their errors, the DRAM patrol, the fill engines, zeroing, promotion and the window. -/
def Obligations.AcquisitionMemoryAccesses : Prop :=
  (∀ (s : State) (c : Fin 16) (port cls a ns : Nat),
    (∃ t, exec (.dramAccessDone c port cls a 0 ns) s = .next t ∧ t.mem = s.mem ∧ t.bad = s.bad ∧
      t.dc[c].reqs = s.dc[c].reqs.eraseP (fun r => r.port = port ∧ r.cls = cls ∧ r.addr = a)) ∧
    (∃ t, exec (.dramAccessDone c port cls a 1 ns) s = .next t ∧ t.mem = s.mem ∧ t.bad = s.bad ∧ CountsOne s t (R.DC_CE_CNT c)) ∧
    (∃ t, exec (.dramAccessDone c port cls a 2 ns) s = .next t ∧ CountsOne s t (R.DC_UE_CNT (s.dcChan (a / 64 * 64))) ∧
      ((∀ g, s.regionBlock (a / 64 * 64) g = none) → a / 64 ∈ t.bad ∧
        ∀ b : Nat, b < a / 64 * 64 ∨ a / 64 * 64 + 64 ≤ b → t.memGet b = s.memGet b) ∧
      (∀ g b, s.regionBlock (a / 64 * 64) g = some b → (t.memGet (b + 4)).getLsbD 7 = true))) ∧
  (∀ (s : State) (port cls a : Nat) (wr : Bool), ∃ r : DcReq, (s.dcRequest port cls a wr).dc[s.dcChan a].reqs = s.dc[s.dcChan a].reqs ++ [r] ∧
    r.addr = a ∧ r.wr = wr ∧ r.data = ⟨a / 2 ^ (15 + log2 s.nch) / s.dataRows, s.dcBank a, a / 2 ^ (15 + log2 s.nch) % s.dataRows,
      8 * (a / 2 ^ (9 + log2 s.nch) % 4) + a / 64 % 8⟩ ∧
    r.check = ⟨r.data.rank, r.data.bank ^^^ 8, s.dataRows + r.data.row / 8, 4 * (r.data.row % 8) + r.data.unit / 8⟩) ∧
  (∀ (s : State) (x y : DcPlace), x.unit < 32 → y.unit < 32 → s.checkPlace x = s.checkPlace y → checkByte x = checkByte y → x = y) ∧
  (∀ (s : State) (a ns : Nat) (o : Fin 3), s.f R.DC_SCRUB 7 0 ≠ 0 → a < s.dcCap → s.dcActive a = true → s.bad.contains (a / 64) = false →
    exec (.dcPatrol a o ns) s = exec (.dramAccessDone (s.dcChan a) 29 4 (a / 64 * 64) o ns) s) ∧
  (∀ (s : State) (a ns : Nat) (o : Fin 3), s.f R.DC_SCRUB 7 0 = 0 → exec (.dcPatrol a o ns) s = .next s) ∧
  (∀ (s : State) (m : Master) (p : Fin 4) (w : Word), Open s m (R.DC_FILL_CTL p) → s.reaches m p = true →
    (s.fill[p].busy = false → s.inShare p (s.f (R.DC_FILL_BASE p) 19 0 * 1048576) (fld w 19 0 * 1048576) = true →
      ∃ t, exec (.fillGo m p w) s = .next t ∧ t.f (R.DC_FILL_CTL p) 29 28 = 0 ∧
        t.fill[p] = ⟨true, s.f (R.DC_FILL_BASE p) 19 0 * 1048576, fld w 19 0 * 1048576⟩) ∧
    (s.fill[p].busy = true ∨ s.inShare p (s.f (R.DC_FILL_BASE p) 19 0 * 1048576) (fld w 19 0 * 1048576) = false →
      ∃ t, exec (.fillGo m p w) s = .next t ∧ t.fill = s.fill)) ∧
  (∀ (s : State) (p : Fin 4) (fail : Option Nat), s.fill[p].busy = true → ∃ t, exec (.dcFillDone p fail) s = .next t ∧
    t.fill[p] = { s.fill[p] with busy := false } ∧ t.f (R.DC_FILL_CTL p) 29 28 = (if fail.isSome then 2 else 1) ∧
    CountsOne s t (R.DC_EVT_CNT 7) ∧
    ∀ a : Nat, t.memGet a = if s.fill[p].base ≤ a ∧ a < s.fill[p].base + s.fill[p].size then 0 else s.memGet a) ∧
  (∀ s : State, s.phase = 3 → s.sc.zeroed = false → (∀ c : Fin 16, c.val < s.nch → s.dc[c].st = .active) →
    ∃ t, exec .startupZeroingDone s = .next t ∧ t.mem = [] ∧ t.bad = [] ∧ t.sc.zeroed = true) ∧
  (∀ (s : State) (c : Fin 16) (i : Nat) (r : DcReq), s.dc[c].reqs[i]? = some r →
    (∀ lim : Nat, s.ageLimit r.cls = some lim → s.since r.at_ (lim + 1) = true → ∃ t, exec (.requestPromote c i) s = .next t ∧
      t.dc[c] = { s.dc[c] with reqs := s.dc[c].reqs.set i { r with prom := true } }) ∧
    (r.cls < 2 → exec (.requestPromote c i) s = .next s)) ∧
  (∀ (s : State) (p : Fin 4) (off : Fin 0x1000000) (d : Word), WinOpen s p → off.val % 4 = 0 →
    s.inShare p (s.winAddr p (0x3000000 + off)) 4 = true → s.dc[s.dcChan (s.winAddr p (0x3000000 + off))].st = .active →
    s.dc[s.dcChan (s.winAddr p (0x3000000 + off))].stopping = false → s.badIn (s.winAddr p (0x3000000 + off) / 512 * 512) 512 = [] →
    (∃ t, exec (.acqWindowAccess p off [d] true 15 0 false) s = .next t ∧ t.mem = s.mem ∧
      t.resp = [(.hp p, .data (word (leVal (s.memBytes (s.winAddr p (0x3000000 + off)) 4))))]) ∧
    (∃ t, exec (.acqWindowAccess p off [d] false 15 0 false) s = .next t ∧ t.resp = [] ∧
      ∀ a : Nat, t.memGet a = if s.winAddr p (0x3000000 + off) ≤ a ∧ a < s.winAddr p (0x3000000 + off) + 4 then
        (wordBytes d).getD (a - s.winAddr p (0x3000000 + off)) 0 else s.memGet a)) ∧
  (∀ (s : State) (p : Fin 4) (off : Fin 0x1000000) (d : Word), WinOpen s p → off.val % 4 = 0 →
    s.inShare p (s.winAddr p (0x3000000 + off)) 4 = false →
    (∃ t w, exec (.acqWindowAccess p off [d] true 15 0 false) s = .next t ∧ t.mem = s.mem ∧ t.resp = [(.hp p, .poisoned w)] ∧
      CountsOne s t (R.DC_EVT_CNT 2)) ∧
    (∃ t, exec (.acqWindowAccess p off [d] false 15 0 false) s = .next t ∧ t.mem = s.mem ∧ CountsOne s t (R.DC_EVT_CNT 2))) ∧
  (∀ (s : State) (p : Fin 4) (off : Fin 0x1000000) (d : Word), WinOpen s p → off.val % 4 = 0 →
    s.inShare p (s.winAddr p (0x3000000 + off)) 4 = true →
    (s.dc[s.dcChan (s.winAddr p (0x3000000 + off))].st = .disabled →
      ∃ t, exec (.acqWindowAccess p off [d] true 15 0 false) s = .next t ∧ t.mem = s.mem ∧ t.resp = [(.hp p, .abort)]) ∧
    (s.dc[s.dcChan (s.winAddr p (0x3000000 + off))].st = .retrain →
      ∃ t, exec (.acqWindowAccess p off [d] true 15 0 false) s = .next t ∧ t.mem = s.mem ∧ t.resp = [] ∧
        t.asleep = s.asleep ++ [⟨.hp p, .bar0, 0x3000000 + off, d, true, false⟩])) ∧
  (∀ (s : State) (p : Fin 4) (c : Part) (w : WinWait), s.asleep = [c] → s.winWait = [w] → c.m = .hp p → c.bar = .bar0 →
    0x3000000 ≤ c.off → c.read = true → w.port = p.val → w.off = c.off →
    (s.since w.at_ 2000000 = true → ∃ t, exec (.windowWaitTimeout p) s = .next t ∧ t.asleep = [] ∧ t.winWait = [] ∧
      t.resp = s.resp ++ [(.hp p, .abort)]) ∧
    (s.since w.at_ 2000000 = false → exec (.windowWaitTimeout p) s = .next s))

/-- R373 to R384: refresh debt and its payment, MR4, EN of a controller, self-refresh, training and custom training. -/
def Obligations.ControllersRefreshAndTrain : Prop :=
  (∀ (s : State) (c : Fin 16) (r : Fin 2), s.refreshing c r = true → s.panicWaits c = none → (rankOf s.dc[c] r).hold = none →
    (s.since (rankOf s.dc[c] r).due (s.trefiCounts c r) = true → ∃ t, exec (.refreshDue c r) s = .next t ∧ rankOf t.dc[c] r =
      { rankOf s.dc[c] r with
        debt := (rankOf s.dc[c] r).debt + 1, must := max (rankOf s.dc[c] r).must ((rankOf s.dc[c] r).debt + 1 - 7),
        due := s.tb.count }) ∧
    (s.since (rankOf s.dc[c] r).due (s.trefiCounts c r) = false → exec (.refreshDue c r) s = .next s)) ∧
  (∀ (s : State) (c : Fin 16) (r : Fin 2) (p : Nat), s.panicWaits c = some p → (rankOf s.dc[c] r).hold = none →
    (rankOf s.dc[c] r).must ≠ 0 → s.since (rankOf s.dc[c] r).due (s.trefiCounts c r) = false →
    ∃ t, exec (.refreshDue c r) s = .next t ∧ (rankOf t.dc[c] r).hold = some (p, s.tb.count)) ∧
  (∀ (s : State) (c : Fin 16) (r : Fin 2), s.refreshing c r = true → s.panicWaits c = none → (rankOf s.dc[c] r).hold = none →
    (rankOf s.dc[c] r).debt ≠ 0 → (rankOf s.dc[c] r).paid < 7 →
    ∃ t, exec (.perBankRefreshDone c r) s = .next t ∧ rankOf t.dc[c] r =
      { rankOf s.dc[c] r with next := ((rankOf s.dc[c] r).next + 1) % 8, paid := (rankOf s.dc[c] r).paid + 1 }) ∧
  (∀ (s : State) (c : Fin 16) (r : Fin 2) (h : Nat × Count), s.refreshing c r = true → (rankOf s.dc[c] r).paid = 7 →
    (rankOf s.dc[c] r).hold = some h → (rankOf s.dc[c] r).must = 1 → (rankOf s.dc[c] r).debt ≠ 0 →
    ∃ t, exec (.perBankRefreshDone c r) s = .next t ∧ CountsOne s t (R.DC_EVT_CNT 3) ∧
      rankOf t.dc[c] r = { rankOf s.dc[c] r with
        next := ((rankOf s.dc[c] r).next + 1) % 8, paid := 0, debt := (rankOf s.dc[c] r).debt - 1, must := 0, hold := none }) ∧
  (∀ (s : State) (c : Fin 16) (r : Fin 2), s.refreshing c r = false → s.panicWaits c = none → (rankOf s.dc[c] r).hold = none →
    exec (.refreshDue c r) s = .next s ∧ exec (.perBankRefreshDone c r) s = .next s) ∧
  (∀ (s : State) (c : Fin 16) (r : Fin 2) (m : Fin 3), s.refreshing c r = true → (rankOf s.dc[c] r).mult ≠ m.val →
    ∃ t, exec (.mr4Poll c r m false) s = .next t ∧ (rankOf t.dc[c] r).mult = m ∧ CountsOne s t (R.DC_EVT_CNT 4) ∧
      (rankOf t.dc[c] r).debt = ceilDiv ((rankOf s.dc[c] r).debt * 2 ^ m.val) (2 ^ (rankOf s.dc[c] r).mult)) ∧
  (∀ (s : State) (c : Fin 16) (r : Fin 2) (m : Fin 3), s.refreshing c r = true → ∃ t, exec (.mr4Poll c r m true) s = .next t ∧
    (rankOf t.dc[c] r).mult = 2 ∧ (rankOf t.dc[c] r).hot = true ∧ CountsOne s t (R.DC_EVT_CNT 8)) ∧
  (∀ (s : State) (m : Master) (c : Fin 16) (w : Word), Open s m (R.DC_CTL c) → Owner s m → s.fb (R.DC_CTL c) 0 = false →
    (c.val < s.nch → s.masksLegal = true → s.tb.dpll[quadOf c].lock = true → s.dc[c].st = .disabled →
      ∃ t, exec (.dcEnable m c w) s = .next t ∧ t.fb (R.DC_CTL c) 0 = true ∧ t.dc[c].stopping = false ∧
        t.dc[c].st = (if s.dc[c].trained || t.fb (R.DC_CTL c) 1 then .retrain else .training) ∧ t.dc[c].trained = s.dc[c].trained ∧
        t.dc[c].r0.selfRef = false ∧ t.dc[c].r1.selfRef = false) ∧
    (s.tb.dpll[quadOf c].lock = false → ∃ t, exec (.dcEnable m c w) s = .next t ∧ t.dc = s.dc ∧
      (s.dc[c].st = .disabled → t.fb (R.DC_CTL c) 0 = false))) ∧
  (∀ (s : State) (m : Master) (c : Fin 16) (w : Word), Open s m (R.DC_CTL c) → Owner s m → s.fb (R.DC_CTL c) 0 = true →
    (s.dc[c].st = .active → ∃ t, exec (.dcDisable m c w) s = .next t ∧ t.fb (R.DC_CTL c) 0 = false ∧
      t.dc[c] = { s.dc[c] with stopping := true }) ∧
    (s.dc[c].st = .training → s.asleep = [] → ∃ t, exec (.dcDisable m c w) s = .next t ∧ t.fb (R.DC_CTL c) 0 = false ∧ t.dc[c].st = .disabled ∧
      t.dc[c].r0.selfRef = true ∧ t.dc[c].r1.selfRef = true)) ∧
  (∀ (s : State) (c : Fin 16), s.dc[c].stopping = true → s.asleep = [] → ∃ t, exec (.selfRefreshAck c) s = .next t ∧ t.dc[c].st = .disabled ∧
    t.dc[c].stopping = false ∧ t.dc[c].reqs = [] ∧ t.dc[c].r0.selfRef = true ∧ t.dc[c].r1.selfRef = true) ∧
  (∀ (s : State) (c : Fin 16) (a : Count), s.dc[c].stopping = false → s.dc[c].st = .active → s.tb.dpll[quadOf c].lolAt = some a →
    s.asleep = [] → ∃ t, exec (.selfRefreshAck c) s = .next t ∧ t.dc[c].st = .selfRefresh ∧ c.val ∈ t.tb.dpll[quadOf c].acks ∧
      t.dc[c].r0.selfRef = true ∧ t.dc[c].r1.selfRef = true) ∧
  (∀ (s : State) (c : Fin 16) (wr rd ca : List Nat) (v : Word), s.dc[c].st = .training → s.asleep = [] →
    (∃ t, exec (.fullTrainingDone c none wr rd ca v) s = .next t ∧ t.dc[c].st = .active ∧ t.dc[c].trained = true ∧
      t.dc[c].fullFor = false ∧ t.rd (R.DC_VREF c) = v ∧ CountsOne s t (R.DC_EVT_CNT 5) ∧
      ∀ k : Nat, k < 18 → t.rd (R.DC_DLY_WR c k) = word (wr.getD k 0x100 % 512) ∧
        t.rd (R.DC_DLY_RD c k) = word (rd.getD k 0x100 % 512)) ∧
    (∀ step : Nat, ∃ t, exec (.fullTrainingDone c (some step) wr rd ca v) s = .next t ∧ t.dc[c].st = .failed ∧
      CountsOne s t (R.DC_EVT_CNT 6) ∧ (s.dc[c].fullFor = true → t.phase = 15 ∧ t.f R.PG_FAULT 15 0 = 0xF4) ∧
      (s.dc[c].fullFor = false → s.phase = 3 → t.phase = 13) ∧ (s.dc[c].fullFor = false → s.phase ≠ 3 → t.phase = s.phase))) ∧
  (∀ (s : State) (c : Fin 16), s.dc[c].st = .retrain → s.asleep = [] →
    (∃ t, exec (.fastRetrainDone c true) s = .next t ∧ t.dc[c].st = .active ∧ CountsOne s t (R.DC_EVT_CNT 5)) ∧
    (∃ t, exec (.fastRetrainDone c false) s = .next t ∧ t.dc[c] = { s.dc[c] with st := .training, fullFor := true })) ∧
  (∀ r ∈ trnRows, TrnRow r.1 r.2 ∧ TrnIgnored r.1) ∧
  (∀ (s : State) (c : Fin 16) (x : TrnCmd) (mrr : Byte) (errs : List Nat) (beats : List (List Byte)), s.dc[c].trn = some x →
    (x.op = 1 → ∃ t, exec (.trnCmdDone c mrr errs beats) s = .next t ∧ t.dc[c] = { s.dc[c] with trn := none } ∧
      t.f (R.DC_TRN_STATUS c) 15 8 = mrr.toNat) ∧
    (x.op = 3 ∨ x.op = 5 → ∃ t, exec (.trnCmdDone c mrr errs beats) s = .next t ∧ t.dc[c] = { s.dc[c] with trn := none } ∧
      ∀ k : Nat, k < 18 → t.rd (R.DC_TRN_ERR c k) = sat32 (s.rd (R.DC_TRN_ERR c k)) (errs.getD k 0)) ∧
    (x.op = 6 → ∃ t, exec (.trnCmdDone c mrr errs beats) s = .next t ∧ t.dc[c].trn = none ∧ (rankOf t.dc[c] x.rank).selfRef = true)) ∧
  (∀ (s : State) (c : Fin 16) (mrr : Byte) (errs : List Nat) (beats : List (List Byte)), s.dc[c].trn = none →
    exec (.trnCmdDone c mrr errs beats) s = .next s)

/-- R391, R410 to R413, R473: PERST#, the link, fences and their release, acknowledgements. -/
def Obligations.PortsResetFenceAndAcknowledge : Prop :=
  (∀ (s : State) (p : Fin 4), Live s p → s.sc.load = none → s.sc.kept[p] = [] → ∃ t, exec (.perstAssert p) s = .next t ∧
    t.port[p] = {} ∧ t.sc.mail[p] = none ∧ ∀ q : Fin 4, q ≠ p → s.present q = true →
    CountsOne s t (R.HP_EVT_CNT q 8)) ∧
  (∀ (s : State) (p : Fin 4), s.present p = false ∨ s.port[p].perst = true → exec (.perstAssert p) s = .next s) ∧
  (∀ (s : State) (p : Fin 4) (l : Load), Live s p → s.sc.load = some l → l.full = true → s.issuer l ≠ p →
    ∃ t, exec (.perstAssert p) s = .next t ∧ t.port = s.port ∧ (p, false) ∈ t.sc.perst) ∧
  (∀ (s : State) (p : Fin 4), s.present p = true → (∀ b, (p, b) ∉ s.sc.perst) →
    exec (.perstRelease p) s = .next (s.setPort p (fun P => { P with perst := false }))) ∧
  (∀ (s : State) (p : Fin 4) (b : Bool), (p, b) ∈ s.sc.perst → ∃ t, exec (.perstRelease p) s = .next t ∧ t.port = s.port ∧
    (p, true) ∈ t.sc.perst) ∧
  (∀ (s : State) (p : Fin 4) (speed width : Fin 6), Live s p → s.port[p].link = false → ∃ t,
    exec (.hpLinkUp p speed width) s = .next t ∧ t.port[p] = { s.port[p] with link := true, speed := speed, width := width } ∧
      CountsOne s t (R.HP_EVT_CNT p 2)) ∧
  (∀ (s : State) (p : Fin 4) (speed width : Fin 6), s.port[p].link = true → exec (.hpLinkUp p speed width) s = .next s) ∧
  (∀ (s : State) (p : Fin 4) (c : Fin 4 → Instr), c = .hotReset ∨ c = .linkDown → Live s p → s.port[p].link = true → s.sc.load = none →
    ∃ t, exec (c p) s = .next t ∧ t.port[p].fenced = true ∧ (c = .linkDown → t.port[p].link = false) ∧ t.port[p].cfg = [] ∧ t.port[p].msix = [] ∧
      t.port[p].tx = [] ∧ t.port[p].tags = [] ∧ t.rd (R.HP_FDROP_CNT p) = sat32 (s.rd (R.HP_FDROP_CNT p)) s.port[p].tx.length ∧
      CountsOne s t (R.HP_EVT_CNT p 0)) ∧
  (∀ (s : State) (p : Fin 4) (x : Tx) (r : List Tx), s.port[p].tx = x :: r → s.port[p].link = true →
    (∀ q life, x.kind = .slots q life → exec (.writeAcknowledged p) s = .next (s.setPort p (fun P => { P with tx := r }))) ∧
    (∀ q, x.kind = .readout q → exec (.writeAcknowledged p) s = .next (s.setPort p (fun P => { P with tx := r }))) ∧
    (∀ q life h, x.kind = .shadow q life h [] → (s.ringSt q).life = life → ∃ t, exec (.writeAcknowledged p) s = .next t ∧
      t.port[p].tx = r ∧ t.ringSt q = { s.ringSt q with ackT := h }) ∧
    (∀ (g : Fin 8) life h, x.kind = .stream g life h → s.sg[g].str.life = life → ∃ t, exec (.writeAcknowledged p) s = .next t ∧
      t.port[p].tx = r ∧ t.sg[g].str = { s.sg[g].str with ackHead := h })) ∧
  (∀ (s : State) (p : Fin 4), s.port[p].link = false → exec (.writeAcknowledged p) s = .next s) ∧
  (∀ (s : State) (m : Master) (p : Fin 4), Open s m (R.HP_FENCE p) → s.reaches m p = true →
    (s.port[p].fenced = true → s.port[p].link = true → s.bme p = true →
      ∃ t, exec (.fenceRelease m p) s = .next t ∧ t.port[p].fenced = false ∧ CountsOne s t (R.HP_EVT_CNT p 1)) ∧
    (s.port[p].fenced = false ∨ s.port[p].link = false ∨ s.bme p = false →
      ∃ t, exec (.fenceRelease m p) s = .next t ∧ t.port = s.port))

/-- R398, R401 to R408: Bus Master Enable, D3hot, pending interrupts, reads of host memory and their timeouts. -/
def Obligations.HostReadsAndPowerStates : Prop :=
  (∀ (s : State) (p : Fin 4), s.bme p = true → ∃ t, exec (.bmeClear p) s = .next t ∧ t.bme p = false ∧
    t.port[p].grace = (if s.port[p].tags.isEmpty then none else some s.tb.count) ∧ t.port[p].tags = s.port[p].tags ∧
    CountsOne s t (R.HP_EVT_CNT p 5)) ∧
  (∀ (s : State) (p : Fin 4), s.bme p = false → exec (.bmeClear p) s = .next s) ∧
  (∀ (s : State) (p : Fin 4) (a : Count), s.port[p].grace = some a →
    (s.since a 20000000 = true → exec (.bmeGraceEnd p) s = .next (s.setPort p (fun P => { P with
      wants := P.tags.map (·.read) ++ P.wants, tags := [], grace := none }))) ∧
    (s.since a 20000000 = false → exec (.bmeGraceEnd p) s = .next s)) ∧
  (∀ (s : State) (p : Fin 4) (w : Read) (r : List Read), s.bme p = false → Live s p → s.port[p].link = true → s.port[p].fenced = false →
    s.port[p].d3 = false → s.port[p].wants = w :: r → s.port[p].tags = [] → s.port[p].retired = [] →
    ∃ t, exec (.bmeSet p) s = .next t ∧ t.bme p = true ∧ ∃ x ∈ t.port[p].tags, x.read = w) ∧
  (∀ (s : State) (p : Fin 4), s.bme p = true → exec (.bmeSet p) s = .next s) ∧
  (∀ (s : State) (p : Fin 4), s.port[p].d3 = false → exec (.d3hotEntry p) s = .next (s.setPort p (fun P => { P with
    d3 := true, grace := if P.tags.isEmpty then none else some s.tb.count }))) ∧
  (∀ (s : State) (p : Fin 4), s.port[p].d3 = true → ∃ t, exec (.d0Return p) s = .next t ∧ t.port[p].d3 = false ∧
    t.port[p].grace = none) ∧
  (∀ (s : State) (p : Fin 4) (v : Nat), s.port[p].pba = [v] → s.msixEn p = true → s.mayIssue p = true →
    (s.vecMasked p v = false → exec (.msixUnmask p) s = .next ((s.setPort p (fun P => { P with pba := [] })).sendMsix p v)) ∧
    (s.vecMasked p v = true → exec (.msixUnmask p) s = .next s)) ∧
  (∀ (s : State) (p : Fin 4) (n : Fin 1024) (bs : List Byte) (b : Bool), (∀ q ∈ s.rings, s.cmdRuns q 0x0C = false) →
    (∀ x ∈ s.port[p].tags, x.tag ≠ n.val) → ∃ t, exec (.readCompletion p n bs b) s = .next t ∧ t.port[p].tags = s.port[p].tags ∧
      CountsOne s t (R.HP_UC_CNT p) ∧ CountsOne s t (R.HP_EVT_CNT p 4)) ∧
  (∀ (s : State) (p : Fin 4) (x : Tag) (n : Fin 1024) (bs : List Byte), (∀ q ∈ s.rings, s.cmdRuns q 0x0C = false) →
    s.port[p].tags = [x] → x.tag = n.val →
    (x.got.length + bs.length < x.read.len → ∃ t, exec (.readCompletion p n bs false) s = .next t ∧
      t.port[p] = { s.port[p] with tags := [{ x with got := x.got ++ bs }] }) ∧
    (∀ l : Load, x.read.len ≤ x.got.length + bs.length → s.port[p].wants = [] → x.read.want = .load → s.sc.load = some l →
      l.life = x.read.life → ∃ t, exec (.readCompletion p n bs false) s = .next t ∧ t.port[p] = { s.port[p] with tags := [] } ∧
        t.sc.load = some { l with parts := l.parts ++ [(x.read.off, (x.got ++ bs).take x.read.len)] })) ∧
  (∀ (s : State) (p : Fin 4) (x : Tag) (n : Fin 512), s.port[p].tags = [x] → x.tag = n.val → s.port[p].grace = none →
    s.since x.at_ (2000000 * s.cto p) = true →
    (x.read.again = false → s.mayIssue p = false → ∃ t, exec (.completionTimeout p n) s = .next t ∧ CountsOne s t (R.HP_CTO_CNT p) ∧
      t.port[p].tags = [] ∧ t.port[p].retired = s.port[p].retired ++ [(n.val, s.tb.count)] ∧
      t.port[p].wants = { x.read with again := true } :: s.port[p].wants) ∧
    (x.read.again = true → ∃ t, exec (.completionTimeout p n) s = .next t ∧ CountsOne s t (R.HP_CTO_CNT p) ∧
      CountsOne s t (R.HP_EVT_CNT p 3) ∧ t.port[p].tags = [])) ∧
  (∀ (s : State) (p : Fin 4) (x : Tag) (n : Fin 512), s.port[p].tags = [x] → s.since x.at_ (2000000 * s.cto p) = false →
    exec (.completionTimeout p n) s = .next s) ∧
  (∀ (s : State) (p : Fin 4) (n : Fin 512) (a : Count), s.port[p].retired = [(n.val, a)] →
    (s.since a (4000000 * s.cto p) = true → ∃ t, exec (.tagRetirementEnd p n) s = .next t ∧ t.port[p].retired = []) ∧
    (s.since a (4000000 * s.cto p) = false → exec (.tagRetirementEnd p n) s = .next s))

/-- R415, R416, R418 to R426: commands of the CMD rings, those that start, stop and load. -/
def Obligations.RingCommandsStartStopAndLoad : Prop :=
  (∀ (s : State) (q : Fin 16384) (d : List Byte), Front s q 0 d → ∃ t, exec (.nop q) s = .next t ∧ Completes s t q d 0 0) ∧
  (∀ r ∈ attachedRows, ∀ (s : State) (q : Fin 16384) (d : List Byte), Front s q r.2 d → s.port[s.qPart q].attached = false →
    s.phase ≠ 15 → s.sc.img[s.qPart q] ≠ 1 → ∃ t, exec (r.1 q) s = .next t ∧ Completes s t q d 1 0 ∧ t.grp = s.grp ∧ t.trg = s.trg ∧
      t.sg = s.sg ∧ t.port = s.port) ∧
  (∀ r ∈ attachedRows, ∀ (s : State) (q : Fin 16384) (d : List Byte), Front s q r.2 d → s.phase = 15 →
    ∃ t, exec (r.1 q) s = .next t ∧ Completes s t q d 8 0) ∧
  (∀ (s : State) (q : Fin 16384) (d : List Byte), Front s q 1 d → s.phase ≠ 15 → s.sc.img[s.qPart q] = 2 →
    (versionOk (leAt d 16 2) s.sc.ifVer[s.qPart q] = true → ∃ t r, exec (.attach q) s = .next t ∧ Completes s t q d 0 r ∧
      t.port[s.qPart q] = { s.port[s.qPart q] with attached := true, version := leAt d 16 2, driver := stamp (leAt d 24 8) }) ∧
    (versionOk (leAt d 16 2) s.sc.ifVer[s.qPart q] = false → ∃ t, exec (.attach q) s = .next t ∧ Completes s t q d 4 0 ∧
      t.port = s.port ∧ CountsOne s t (R.HP_EVT_CNT (s.qPart q) 7))) ∧
  (∀ (s : State) (q : Fin 16384) (d : List Byte), Front s q 2 d → Ready s (s.qPart q) → ∃ t, exec (.detach q) s = .next t ∧
    Completes s t q d 0 0 ∧ t.port[s.qPart q] = { s.port[s.qPart q] with attached := false }) ∧
  (∀ (s : State) (q : Fin 16384) (d : List Byte), Front s q 3 d → s.sc.img[s.qPart q] ≠ 1 → s.sc.load = none → leAt d 16 8 % 64 = 0 →
    (s.port[s.qPart q].fenced = true → ∃ t, exec (.digest q) s = .next t ∧ Completes s t q d 8 0 ∧ t.port = s.port) ∧
    (s.mayIssue (s.qPart q) = true → ∃ t, exec (.digest q) s = .next t ∧
      Completes s t q d 0 (stamp ((s.port[s.qPart q].dseq + 1) % 4294967296)) ∧
      t.port[s.qPart q].dseq = (s.port[s.qPart q].dseq + 1) % 4294967296 ∧
      ((t.port[s.qPart q].tx.drop s.port[s.qPart q].tx.length).flatMap (·.bytes)).length = 4096)) ∧
  (∀ (s : State) (q : Fin 16384) (d : List Byte), Front s q 4 d → s.phase ≠ 15 → s.port[s.qPart q].attached = true → s.sc.load = none →
    s.partIdle (s.qPart q) = true → leAt d 17 1 = 0 → 0 < leAt d 32 4 → leAt d 24 8 + leAt d 32 4 ≤ s.sc.flashLen →
    (leAt d 16 1 = 0 → (∀ p, s.partIdle p = true) →
      (s.qPart q = s.owner → ∃ t, exec (.loadFull q) s = .next t ∧ t.loading = true ∧ (t.ringSt q).busy = true ∧
        t.sc.load = some ⟨.cmd q, .flash, true, s.qPart q, leAt d 24 8, leAt d 32 4, s.sc.loads, s.sc.img, [], none⟩ ∧ ∀ p : Fin 4, t.sc.img[p] = 1) ∧
      (s.qPart q ≠ s.owner → ∃ t, exec (.loadFull q) s = .next t ∧ Completes s t q d 3 0 ∧ t.sc = s.sc)) ∧
    (leAt d 16 1 = 1 → ∃ t, exec (.loadPartition q) s = .next t ∧ t.loading = s.loading ∧ (t.ringSt q).busy = true ∧
      t.sc.load = some ⟨.cmd q, .flash, false, s.qPart q, leAt d 24 8, leAt d 32 4, s.sc.loads, s.sc.img, [], none⟩ ∧ ∀ p : Fin 4, t.sc.img[p] = if p = s.qPart q then 1 else s.sc.img[p])) ∧
  (∀ (s : State) (q : Fin 16384) (d : List Byte) (g : Fin 16), Ready s (s.qPart q) → leAt d 16 2 = 2 ^ g.val → s.pmap.grp[g] = s.qPart q →
    (Front s q 5 d → s.grpCause g = none → ∃ t, exec (.groupGo q) s = .next t ∧ t.grp = (s.groupGo g).grp ∧ Completes s t q d 0 s.now) ∧
    (Front s q 5 d → ∀ c, s.grpCause g = some c → ∃ t, exec (.groupGo q) s = .next t ∧ t.grp = s.grp ∧
      Completes s t q d (if c < 2 then 1 else 2) 0) ∧
    (Front s q 6 d → s.grp[g].st = .run → s.grp[g].pendStops = [] → ∃ t, exec (.groupHalt q) s = .next t ∧
      t.grp = (s.groupHalt g).grp ∧ Completes s t q d 0 s.stamp32) ∧
    (Front s q 6 d → s.grp[g].st = .idle → ∃ t, exec (.groupHalt q) s = .next t ∧ t.grp = s.grp ∧ Completes s t q d 1 0)) ∧
  (∀ (s : State) (q : Fin 16384) (d : List Byte) (k : Fin 8), Ready s (s.qPart q) → leAt d 16 1 = 2 ^ k.val →
    s.pmap.seq[k] = s.qPart q → s.pmap.sg[k] = s.qPart q →
    (Front s q 7 d → s.armCause k = none → ∃ t, exec (.arm q) s = .next t ∧ t.trg = (s.trgArm k).trg ∧ Completes s t q d 0 s.stamp32) ∧
    (Front s q 8 d → s.restingQ k = false → ∃ t, exec (.disarm q) s = .next t ∧ t.trg = (s.trgHalt k).trg ∧ Completes s t q d 0 0) ∧
    (Front s q 8 d → s.restingQ k = true → ∃ t, exec (.disarm q) s = .next t ∧ t.trg = s.trg ∧ Completes s t q d 1 0) ∧
    (Front s q 9 d → s.sgCause k = none → ∃ t, exec (.sgGoCommand q) s = .next t ∧ t.sg = (s.sgGo k).sg ∧ Completes s t q d 0 s.now) ∧
    (Front s q 10 d → s.sg[k].st = .run → ∃ t, exec (.sgHaltCommand q) s = .next t ∧ t.sg = (s.sgHalt k).sg ∧ Completes s t q d 0 0)) ∧
  (∀ (s : State) (q : Fin 16384) (d : List Byte), Ready s (s.qPart q) → Front s q 11 d →
    (∀ k : Fin 8, leAt d 16 1 = k.val → s.pmap.sg[k] = s.qPart q → exec (.jump q) s = .next (s.jumpAsk k ⟨s.stamp32, .cmd q⟩)) ∧
    (8 ≤ leAt d 16 1 → ∃ t, exec (.jump q) s = .next t ∧ t.sg = s.sg ∧ Completes s t q d 2 0))

/-- R424 to R426, R482 to R484: shared objects, readout, the life cycle and digest snapshots. -/
def Obligations.RingCommandsShareReadAndProvision : Prop :=
  (∀ (s : State) (q : Fin 16384) (d : List Byte), Ready s (s.qPart q) → Front s q 12 d → leAt d 16 1 ≤ 5 → leAt d 17 1 = 0 →
    (s.qPart q = s.owner → s.sharedStop d = false → leAt d 32 4 = valueLen (leAt d 16 1) → ∃ t, exec (.sharedApply q) s = .next t ∧
      (t.ringSt q).busy = true ∧ (t.ringSt q).fetched = [d] ∧ (t.ringSt q).value = [] ∧ (t.ringSt q).asks = (s.ringSt q).asks + 1) ∧
    (s.qPart q ≠ s.owner → ∃ t, exec (.sharedApply q) s = .next t ∧ Completes s t q d 3 0) ∧
    (s.qPart q = s.owner → s.sharedStop d = true → ∃ t, exec (.sharedApply q) s = .next t ∧ Completes s t q d 1 0)) ∧
  (∀ r ∈ sharedRows, ∀ (s : State) (q : Fin 16384) (d : List Byte), Ready s (s.qPart q) → Front s q 12 d → leAt d 16 1 = r.2.1 →
    leAt d 17 1 = r.2.2.1 →
    (s.qPart q = s.owner → s.sharedStop d = false → leAt d 32 4 = 0 → ∃ t, exec (r.1 q) s = .next t ∧
      t.tb = (r.2.2.2 (leAt d 18 2) s).tb ∧ Completes s t q d 0 (stamp ((leAt d 18 2 + 1) % 65536))) ∧
    (s.qPart q ≠ s.owner → ∃ t, exec (r.1 q) s = .next t ∧ t.tb = s.tb ∧ Completes s t q d 3 0) ∧
    (s.qPart q = s.owner → s.sharedStop d = true → ∃ t, exec (r.1 q) s = .next t ∧ t.tb = s.tb ∧ Completes s t q d 1 0)) ∧
  (∀ (s : State) (q : Fin 16384) (d : List Byte), Ready s (s.qPart q) → Front s q 13 d → 0 < leAt d 32 4 → leAt d 32 4 % 64 = 0 →
    leAt d 24 8 % 64 = 0 →
    (s.inShare (s.qPart q) (leAt d 16 8) (leAt d 32 4) = true → (∀ c : Fin 16, s.dc[c].st = .active) → s.mayIssue (s.qPart q) = true →
      s.badIn (leAt d 16 8) (leAt d 32 4) = [] → ∃ t, exec (.readout q) s = .next t ∧ (t.ringSt q).busy = true ∧ t.mem = s.mem ∧
        (t.ringSt q).got = leAt d 32 4 ∧
        ((t.port[s.qPart q].tx.drop s.port[s.qPart q].tx.length).flatMap (·.bytes)) = s.memBytes (leAt d 16 8) (leAt d 32 4) ∧
        ∀ x ∈ t.port[s.qPart q].tx.drop s.port[s.qPart q].tx.length, x.kind = .readout q ∧ x.poison = false) ∧
    (s.inShare (s.qPart q) (leAt d 16 8) (leAt d 32 4) = false → ∃ t, exec (.readout q) s = .next t ∧ t.port = s.port ∧
      Completes s t q d 2 0) ∧
    (s.inShare (s.qPart q) (leAt d 16 8) (leAt d 32 4) = true → s.port[s.qPart q].fenced = true → ∃ t, exec (.readout q) s = .next t ∧
      t.port = s.port ∧ Completes s t q d 8 0) ∧
    (s.inShare (s.qPart q) (leAt d 16 8) (leAt d 32 4) = true → (∀ c : Fin 16, s.dc[c].st = .retrain) → s.port[s.qPart q].fenced = false →
      exec (.readout q) s = .next s)) ∧
  (∀ (s : State) (q : Fin 16384) (d : List Byte), s.qType q = 2 → (s.ringSt q).busy = true → (s.ringSt q).fetched = [d] →
    leAt d 0 1 = 13 → 0 < leAt d 32 4 → (s.ringSt q).got = 0 → (∀ c : Fin 16, s.dc[c].st = .failed) →
    ∃ t, exec (.readoutDone q) s = .next t ∧ Completes s t q d 8 0) ∧
  (∀ (s : State) (q : Fin 16384) (d : List Byte), s.qType q = 2 → (s.ringSt q).busy = true → (s.ringSt q).fetched = [d] →
    leAt d 0 1 = 13 → (s.ringSt q).got = leAt d 32 4 →
    ((∀ x ∈ s.port[s.qPart q].tx, x.kind ≠ .readout q) → ∃ t, exec (.readoutDone q) s = .next t ∧
      Completes s t q d 0 (stamp (leAt d 32 4))) ∧
    ((∃ x ∈ s.port[s.qPart q].tx, x.kind = .readout q) → exec (.readoutDone q) s = .next s)) ∧
  (∀ r ∈ lifeRows, ∀ (s : State) (q : Fin 16384) (d : List Byte), Ready s (s.qPart q) → Front s q 14 d → leAt d 16 1 = r.2.1 →
    (s.lifeStatus (s.qPart q) d = 0 → s.cocoon.wiping = false → ScratchFree s (leAt d 20 4) (leAt d 24 4) → ∃ t, exec (r.1 q) s = .next t ∧ t.sc.fuse.lc = r.2.2 ∧ t.sealKey = none ∧ t.cocoon.wiping = true ∧
      t.cocoon.cause = 2 ∧ (t.ringSt q).busy = true ∧ t.f R.SC_LC 15 0 = (s.f R.SC_LC 15 0 + 1) % 65536 ∧
      t.sc.fuse.reprov = if r.2.1 = 1 then s.sc.fuse.reprov - 1 else s.sc.fuse.reprov) ∧
    (s.qPart q ≠ s.owner → ∃ t, exec (r.1 q) s = .next t ∧ t.sc = s.sc ∧ t.sealKey = s.sealKey ∧ Completes s t q d 3 0) ∧
    (s.qPart q = s.owner → leAt d 18 2 ≠ s.f R.SC_LC 15 0 → ∃ t, exec (r.1 q) s = .next t ∧ t.sc = s.sc ∧ t.sealKey = s.sealKey ∧
      Completes s t q d 1 0)) ∧
  (∀ (s : State) (m : Master), Open s m R.HP_DIGEST_SNAP →
    (s.sc.load = none → ∃ t, exec (.digestSnap m) s = .next t ∧ t.port[s.partM m].snapping = true ∧
      t.port[s.partM m].dseq = (s.port[s.partM m].dseq + 1) % 4294967296 ∧ t.port[s.partM m].winSeq = t.port[s.partM m].dseq) ∧
    (s.sc.load.isSome = true → ∃ t, exec (.digestSnap m) s = .next t ∧ t.port = s.port)) ∧
  (∀ (s : State) (p : Fin 4), exec (.digestSnapDone p) s = .next (s.setPort p (fun P => { P with snapping := false })))

/-- R409, R437, R467 to R478, R485, R503, R504: resets, start-up, the steps of a load, tamper sources and unrecoverable faults. -/
def Obligations.StartupLoadsAndFaults : Prop :=
  (∀ s : State, ∃ t, exec .porstAssert s = .next t ∧ t.phase = 0 ∧ t.regs = [] ∧ t.sram = [] ∧ t.owner = 0 ∧ t.sc.load = none ∧
    t.sealKey = none ∧ t.mem = s.mem ∧ t.sc.flash = s.sc.flash ∧ t.sc.fuse = s.sc.fuse ∧ t.pending = s.pending) ∧
  (∀ (s : State) (rs pc : Fin 4), s.phase = 0 → ∃ t, exec (.porstRelease rs pc) s = .next t ∧ t.phase = 1 ∧
    t.f R.TB_REF_CTL 1 0 = rs ∧ t.f R.HP_CFG 1 0 = pc ∧ t.present 0 = true ∧ (pc.val = 1 → t.present 1 = true) ∧
    (pc.val = 2 → ∀ p : Fin 4, t.present p = true)) ∧
  (∀ (s : State) (rs pc : Fin 4), s.phase ≠ 0 → exec (.porstRelease rs pc) s = .next s) ∧
  (∀ s : State, s.phase = 1 → s.cocoon.wiping = false → s.sc.tamperIn = false → s.slots 1 = [] → ∃ t, exec .scFwOk s = .next t ∧ t.phase = 14 ∧ t.owner = 0) ∧
  (∀ (s : State) (a n : Nat) (r : List (Nat × Nat)), s.phase = 1 → s.cocoon.wiping = false → s.sc.tamperIn = false → s.slots 1 = (a, n) :: r →
    s.sc.marched = false → ∃ t, exec .scFwOk s = .next t ∧ (∀ i : Image, s.firmwareCheck (s.flashBytes a n) = .good i →
      t.phase = 3 ∧ t.sc.fwVer = i.version ∧ t.f R.SC_AUTH 3 0 = 0) ∧
      ((∀ i : Image, s.firmwareCheck (s.flashBytes a n) ≠ .good i) → r = [] → t.phase = 14 ∧ t.owner = 0)) ∧
  (∀ s : State, s.phase ≠ 1 ∨ s.cocoon.wiping = true → exec .scFwOk s = .next s) ∧
  (∀ (s : State) (b : Bool), s.sc.load = none → s.sc.perst = [] → exec (.imageStaged b) s = .next s) ∧
  (∀ (s : State) (l : Load) (q : Nat), s.sc.load = some l → l.image = none → l.by_ = .cmd q → s.sc.perst = [] →
    s.cocoon.wiping = false → (l.src = .scratch → ScratchFree s l.addr l.len) → (∃ t, exec (.imageStaged false) s = .next t ∧
      (∀ i : Image, s.loadCheck l = .good i → s.authOk.validate i = 0 →
        t.sc.load = some { l with image := some i } ∧ t.f R.SC_AUTH 3 0 = 0) ∧
      (∀ status stage : Nat, s.loadCheck l = .fail status stage → t.sc.load = none ∧ t.sc.img = l.prev ∧
        CountsOne s t (R.SC_EVT_CNT (s.issuer l) 3)) ∧
      (∀ stage : Nat, s.loadCheck l = .auth stage → s.f R.SC_AUTH 3 0 < 7 →
        t.sc.load = none ∧ t.sc.img = l.prev ∧ t.f R.SC_AUTH 3 0 = s.f R.SC_AUTH 3 0 + 1)) ∧
    (l.src = .flash → ∃ t, exec (.imageStaged true) s = .next t ∧ t.sc.load = none ∧ t.sc.img = l.prev ∧
      CountsOne s t (R.SC_EVT_CNT (s.issuer l) 3))) ∧
  (∀ (s : State) (l : Load) (q : Nat) (i : Image), s.sc.load = some l → l.image = some i → l.by_ = .cmd q → s.sc.perst = [] →
    ∃ t, exec .scImgLoaded s = .next t ∧ t.sc.load = none ∧ t.loading = false ∧
      ∀ p ∈ i.covers, t.sc.img[p] = 2 ∧ t.port[p].attached = false) ∧
  (∀ (s : State) (p : Fin 4) (bar : Bar) (off : Nat) (d : Word) (i : Nat), islandOf bar off = some i → s.failed.contains i = false →
    s.asleep = [] → ∃ t, exec (.islandTimeout (.hp p) bar off d true) s = .next t ∧ Stopped t 0xF3 ∧ t.failed.contains i = true ∧
      t.resp = [(.hp p, .abort)]) ∧
  (∀ (s : State) (i : Fin 9), s.phase ≠ 0 → ∃ t, exec (.islandHeartbeatLoss i) s = .next t ∧ Stopped t 0xF3) ∧
  (∀ s : State, s.phase ≠ 0 → ∃ t, exec .lockstepMismatch s = .next t ∧ Stopped t 0xF0) ∧
  (∀ s : State, s.phase ≠ 0 → ∃ t, exec .tamperSupply s = .next t ∧ t.sealKey = none ∧ t.sc.tampered = true ∧ t.cocoon.wiping = true) ∧
  (∀ s : State, s.phase ≠ 0 → ∃ t, exec .tamperClock s = .next t ∧ t.sealKey = none ∧ t.sc.tampered = true ∧ t.cocoon.wiping = true) ∧
  (∀ s : State, s.phase ≠ 0 → s.sc.tamperIn = false → ∃ t, exec (.tamperPin true) s = .next t ∧ t.sealKey = none ∧
    t.sc.tampered = true ∧ t.sc.tamperIn = true) ∧
  (∀ s : State, exec (.tamperPin false) s = .next (s.setSc (fun c => { c with tamperIn := false })))

/-- R447 to R453, R479: the mailboxes from command to end, and the configuration integrity checker. -/
def Obligations.MailboxesAndIntegrityChecks : Prop :=
  (MailRow .info 0 ∧ MailRow .flashRead 1 ∧ MailRow .flashErase 2 ∧ MailRow .flashWrite 3 ∧ MailRow .imageLoad 4 ∧ MailRow .fwRecover 5) ∧
  (∀ (s : State) (m : Master) (p : Fin 4), Open s m (R.SC_MB_CMD p) → s.reaches m p = true → s.sc.mail[p] = none →
    s.mailVerdict p 4 ((List.range 4).map (fun k => s.rd (R.SC_MB_ARG p k))) = 0 → ∃ t, exec (.imageLoad m p) s = .next t ∧
      t.loading = true ∧ t.sc.load = some ⟨.mail p, .scratch, true, 0, (s.rd (R.SC_MB_ARG p 2)).toNat, (s.rd (R.SC_MB_ARG p 1)).toNat,
        s.sc.loads, s.sc.img, [], none⟩) ∧
  (∀ (s : State) (p : Fin 4) (b : Bool) (ecc : Fin 3), s.sc.mail[p] = none → exec (.mailboxDone p ⟨b, ecc⟩) s = .next s) ∧
  (∀ (s : State) (p : Fin 4) (b : Bool) (ecc : Fin 3) (j : MailJob), s.sc.mail[p] = some j → 0 < j.bad → j.bad < 256 →
    ∃ t, exec (.mailboxDone p ⟨b, ecc⟩) s = .next t ∧ t.sc.mail[p] = none ∧ t.f (R.SC_MB_STATUS p) 15 8 = j.bad ∧ t.sc.flash = s.sc.flash) ∧
  (∀ (s : State) (p : Fin 4) (b : Bool) (ecc : Fin 3) (a n o : Nat), Serves s p 0 a n o → ∃ t, exec (.mailboxDone p ⟨b, ecc⟩) s = .next t ∧
    t.sc.mail[p] = none ∧ t.f (R.SC_MB_STATUS p) 15 8 = 0 ∧ t.rd64 (R.SC_MB_RES_LO p) (R.SC_MB_RES_HI p) = stamp s.sc.fwVer) ∧
  (∀ (s : State) (p : Fin 4) (svc a n o : Nat) (ecc : Fin 3), Serves s p svc a n o → 1 ≤ svc → svc ≤ 3 →
    ∃ t, exec (.mailboxDone p ⟨true, ecc⟩) s = .next t ∧ t.sc.mail[p] = none ∧ t.f (R.SC_MB_STATUS p) 15 8 = 8 ∧ t.sc.flash = s.sc.flash ∧
      t.sram = s.sram) ∧
  (∀ (s : State) (p : Fin 4) (a n o : Nat), Serves s p 1 a n o → o + n ≤ s.scratchSize s.owner →
    ScratchFree s o n → ∃ t, exec (.mailboxDone p ⟨false, 0⟩) s = .next t ∧ t.f (R.SC_MB_STATUS p) 15 8 = 0 ∧ t.sc.flash = s.sc.flash ∧
      ∀ i : Nat, i < n → t.scratchGet s.owner (o + i) = s.flashGet (a + i)) ∧
  (∀ (s : State) (p : Fin 4) (a n o : Nat), Serves s p 2 a n o → ∃ t, exec (.mailboxDone p ⟨false, 0⟩) s = .next t ∧
    t.f (R.SC_MB_STATUS p) 15 8 = 0 ∧ ∀ i : Nat, t.flashGet i = if a ≤ i ∧ i < a + n then 0xFF else s.flashGet i) ∧
  (∀ (s : State) (p : Fin 4) (a n o : Nat), Serves s p 3 a n o → ScratchFree s o n → ∃ t, exec (.mailboxDone p ⟨false, 0⟩) s = .next t ∧
    t.f (R.SC_MB_STATUS p) 15 8 = 0 ∧ ∀ i : Nat, t.flashGet i =
      if a ≤ i ∧ i < a + n then s.flashGet i &&& s.scratchGet s.owner (o + (i - a)) else s.flashGet i) ∧
  (∀ (s : State) (p : Fin 4) (a n o : Nat), Serves s p 5 a n o → ScratchFree s o n → s.cocoon.wiping = false → ∃ t, exec (.mailboxDone p ⟨false, 0⟩) s = .next t ∧ t.sc.mail[p] = none ∧
    ∀ i : Image, s.firmwareCheck (s.scratchBytes s.owner o n) = .good i → s.sc.marched = false →
      t.phase = 3 ∧ t.sc.fwVer = i.version ∧ t.f (R.SC_MB_STATUS p) 15 8 = 0) ∧
  (∀ (s : State) (m : Master) (p : Fin 4), Open s m (R.CFGI_COMMIT p) → s.reaches m p = true →
    (s.fb (R.CFGI_CTL p) 0 = true →
      (∃ t, exec (.cfgiCapture m p) s = .next t ∧ t.cfgi[p] = { s.cfgi[p] with st := 1, value := false, fresh := false }) ∧
      (∃ t, exec (.cfgiValue m p) s = .next t ∧ t.cfgi[p].st = 1 ∧ t.cfgi[p].value = true ∧ t.cfgi[p].fresh = false ∧
        t.tracked p = s.rd (R.CFGI_REF p))) ∧
    (s.fb (R.CFGI_CTL p) 0 = false → (∃ t, exec (.cfgiCapture m p) s = .next t ∧ t.cfgi = s.cfgi) ∧
      (∃ t, exec (.cfgiValue m p) s = .next t ∧ t.cfgi = s.cfgi))) ∧
  (∀ (s : State) (p : Fin 4), s.fb (R.CFGI_CTL p) 0 = false → exec (.cfgiPass p []) s = .next s) ∧
  (∀ (s : State) (p : Fin 4), s.fb (R.CFGI_CTL p) 0 = true →
    (s.cfgi[p].st = 1 → s.cfgi[p].fresh = false → ∃ t, exec (.cfgiPass p []) s = .next t ∧ CountsOne s t (R.CFGI_PASS_CNT p) ∧
      t.rd (R.CFGI_LAST p) = s.partCrc p [] ∧ t.cfgi[p] = { s.cfgi[p] with fresh := true }) ∧
    (s.cfgi[p].st = 1 → s.cfgi[p].fresh = true → s.cfgi[p].value = false → ∃ t, exec (.cfgiPass p []) s = .next t ∧
      t.cfgi[p] = { s.cfgi[p] with st := 2, known := true, damage := [], shift := 0, blkKnown := true } ∧
      CountsOne s t (R.CFGI_EVT_CNT p 1)) ∧
    (s.cfgi[p].st = 2 → s.partCrc p [] = s.tracked p → ∃ t, exec (.cfgiPass p []) s = .next t ∧
      t.cfgi[p] = { s.cfgi[p] with mismatch := false, blk := 0 } ∧ t.rd (R.CFGI_MIS_CNT p) = s.rd (R.CFGI_MIS_CNT p)) ∧
    (s.cfgi[p].st = 2 → s.partCrc p [] ≠ s.tracked p → ∃ t, exec (.cfgiPass p []) s = .next t ∧ t.cfgi[p].mismatch = true ∧
      CountsOne s t (R.CFGI_MIS_CNT p) ∧ CountsOne s t (R.CFGI_EVT_CNT p 0)))

/-- R489 to R499, R506 to R509: the estimate, tokens, the budget, VCORE, thermal limits and the monitors. -/
def Obligations.PowerGovernorAndMonitors : Prop :=
  (∀ (s : State) (a : Count), s.pwr.thermal = true → s.pwr.coolFrom = some a →
    (s.since a 2000000 = true → ∃ t, exec .thermalEnd s = .next t ∧ t.pwr = { s.pwr with thermal := false } ∧
      CountsOne s t (R.PG_EVT_CNT 2)) ∧
    (s.since a 2000000 = false → exec .thermalEnd s = .next s)) ∧
  (∀ (s : State) (draws : List Nat) (x : Fin 65537), s.phase ≠ 15 → draws.sum < 65536 → s.pwr.thermal = false → s.pwr.x ≤ 65536 →
    ∃ t, exec (.pgEstimate draws x) s = .next t ∧ t.f R.PG_DRAW 15 0 = draws.sum ∧
      (s.pwr.budget < draws.sum → t.pwr.x = max s.pwr.x x) ∧
      (draws.sum ≤ s.pwr.budget → t.pwr.x = if 100 * draws.sum < 99 * s.pwr.budget then min s.pwr.x x else s.pwr.x) ∧
      (∀ c : Nat, c < 14 → c ≠ 0 → c ≠ 11 → t.f (R.PG_CLASS c) 26 16 = s.rateOf c t.pwr.x % 2048) ∧
      (t.pwr.over_ = true ↔ s.pwr.budget < draws.sum ∧ s.pwr.x = 65536) ∧
      (t.pwr.over_ = true → s.pwr.over_ = false → CountsOne s t (R.PG_EVT_CNT 5))) ∧
  (∀ (s : State) (n : Nat) (x : Fin 65537), exec (.tokenGrant 0 n x) s = .next s ∧ exec (.tokenGrant 11 n x) s = .next s) ∧
  (∀ (s : State) (c : Fin 14) (n : Nat) (x : Fin 65537), s.phase ≠ 15 → c.val ≠ 0 → c.val ≠ 11 →
    (s.drawNow + n ≤ s.pwr.budget → exec (.tokenGrant c n x) s = .next s) ∧
    (s.pwr.budget < s.drawNow + n → s.f (R.PG_CLASS_DRAW c) 31 16 < s.f (R.PG_CLASS_DRAW c) 15 0 + n → s.pwr.thermal = false →
      s.pwr.x ≤ 65536 → ∃ t, exec (.tokenGrant c n x) s = .next t ∧ t.pwr.x = max s.pwr.x x)) ∧
  (∀ (s : State) (m : Master) (gen : BitVec 16), Open s m R.PG_APPLY → Owner s m →
    (s.pgApplies gen.toNat = true → ∃ t, exec (.pgApply m gen) s = .next t ∧ t.pwr = { s.pwr with budget := s.f R.PG_BUDGET 13 0 } ∧
      t.rd R.PG_GEN = word ((s.f R.PG_GEN 15 0 + 1) % 65536)) ∧
    (s.pgApplies gen.toNat = false → ∃ t, exec (.pgApply m gen) s = .next t ∧ t.pwr = s.pwr ∧ t.rd R.PG_GEN = s.rd R.PG_GEN ∧
      CountsOne s t (R.PG_EVT_CNT 3))) ∧
  (∀ (s : State) (vout iout : Fin 65536), s.pwr.pmbFail = false →
    (∃ t, exec (.pgCalibrate true vout iout) s = .next t ∧ t.f R.PG_VCORE 31 16 = vout ∧ t.f R.PG_VCORE 15 0 = s.f R.PG_VCORE 15 0 ∧
      t.pwr = s.pwr) ∧
    (∃ t, exec (.pgCalibrate false vout iout) s = .next t ∧ t.pwr = { s.pwr with pmbFail := true } ∧ CountsOne s t (R.PG_EVT_CNT 4))) ∧
  (∀ (s : State) (work : Bool) (meas : Fin 65536), s.phase ≠ 15 → s.pwr.pmbFail = false → s.pwr.thermal = false →
    s.fb R.PG_VCTL 31 = true → s.vNow + 10 ≤ s.vSet →
    (∃ t, exec (.vcoreStep work true meas) s = .next t ∧ t.vNow = s.vNow + 10 ∧ t.f R.PG_VCORE 31 16 = meas) ∧
    (∃ t, exec (.vcoreStep work false meas) s = .next t ∧ t.vNow = s.vNow ∧ t.pwr.pmbFail = true)) ∧
  (∀ s : State, s.pwr.pmbFail = true →
    exec (.pmbRetry true) s = .next (s.setPwr (fun w => { w with pmbFail := false })) ∧
    (∃ t, exec (.pmbRetry false) s = .next t ∧ t.pwr = s.pwr ∧ CountsOne s t (R.PG_EVT_CNT 4))) ∧
  (∀ (s : State) (b : Bool), s.pwr.pmbFail = false → exec (.pmbRetry b) s = .next s) ∧
  (∀ (s : State) (m : Fin 32) (occ : Fin 1025), s.monEn m = true → s.since s.mon[m].lastAt (s.monPeriod m) = true →
    s.f (monCtl m) 4 1 = 7 → s.mon[m].snap = none → ∃ t, exec (.monSample m occ) s = .next t ∧ t.mon[m].lastAt = s.tb.count ∧
      t.mon[m].live = s.mon[m].live.take (signed 32 (s.f (monReg (R.MON_OFS 0 0) m) 31 0)) (s.f (monCtl m) 23 19) (s.vNow : Nat)) ∧
  (∀ (s : State) (m : Fin 32) (occ : Fin 1025), s.monEn m = false → exec (.monSample m occ) s = .next s) ∧
  (∀ (s : State) (m : Master) (k : Fin 32), Open s m R.MON_SNAP → s.reaches m (s.partOf .mon k) = true →
    (s.mon[k].snap = none → ∃ t, exec (.monSnap m (oneBit k)) s = .next t ∧ t.mon[k] = { s.mon[k] with snap := some (s.stamp32, false) }) ∧
    (s.mon[k].snap.isSome = true → ∃ t, exec (.monSnap m (oneBit k)) s = .next t ∧ t.mon = s.mon)) ∧
  (∀ (s : State) (m : Master) (k : Fin 32), Open s m R.MON_SNAP_CLR → s.reaches m (s.partOf .mon k) = true → s.mon[k].snap = none →
    ∃ t, exec (.monSnapClr m (oneBit k)) s = .next t ∧ t.mon[k] = { s.mon[k] with snap := some (s.stamp32, true) }) ∧
  (∀ (s : State) (m : Fin 32) (ts : Stamp) (clr : Bool), s.mon[m].snap = some (ts, clr) →
    (s.passed ts = true → s.mon[m].held = [] → ∃ t, exec (.monSnapshotDone m) s = .next t ∧ t.mon[m].snap = none ∧
      t.mon[m].live = (if clr then {} else s.mon[m].live) ∧ t.mon[m].alarmed = false ∧
      t.rd (monReg (R.MON_MIN 0 0) m) = iword s.mon[m].live.low ∧ t.rd (monReg (R.MON_MAX 0 0) m) = iword s.mon[m].live.high ∧
      t.rd64 (monReg (R.MON_SNAP_TS_LO 0 0) m) (monReg (R.MON_SNAP_TS_HI 0 0) m) = ts ∧
      CountsOne s t (monReg (R.MON_EVT_CNT 0 0 1) m)) ∧
    (s.passed ts = false → exec (.monSnapshotDone m) s = .next s)) ∧
  (∀ (s : State) (m : Fin 32), s.mon[m].snap = none → exec (.monSnapshotDone m) s = .next s)

/-- R55: the counter registers present the stamp of the most recent TBCLK edge with its low ten bits zero, and a read of the low
half latches the upper half, so that a 64-bit read, or a later read of the upper half, answers one consistent value. -/
def Obligations.CounterReadsAreConsistent : Prop :=
  ∀ (s : State) (m : Master), Open s m R.TB_COUNT_LO →
    (∀ k : Nat, k < 10 → s.now.getLsbD k = false) ∧ s.now >>> 10 = s.tb.count.setWidth 64 ∧
    (∃ t, exec (.latchingRead m .bar0 R.TB_COUNT_LO 2 15 0) s = .next t ∧
      t.resp = [(m, .data (lo32 s.now)), (m, .data (hi32 s.now))]) ∧
    (∃ t, exec (.latchingRead m .bar0 R.TB_COUNT_LO 1 15 0) s = .next t ∧ t.resp = [(m, .data (lo32 s.now))] ∧
      ∀ u : State, u.latch = t.latch → Open u m R.TB_COUNT_HI →
        ∃ v, exec (.latchingRead m .bar0 R.TB_COUNT_HI 1 15 0) u = .next v ∧ v.resp = [(m, .data (hi32 s.now))])

/-- R244: one residue mismatch costs nothing but one in ME_RES_CNT; a second one stops the engine with cause RESIDUE, and neither
has changed a register, the memories or a port. (A load or store that a march test stalls does not execute.) -/
def Obligations.ResidueMismatchRetriesOnce : Prop :=
  (∀ x ∈ checkedRows, ∀ (s : State) (e : Fin 256) (h : Haz), Fetches s e x.2 → h.fetch.val ≠ 2 →
    (x.2 = 0x39 → Quiet s ∧ s.boundXts e = []) → (∀ y ∈ memoryRows, y.2.1 = x.2 → NoMarchAt s e (effAddr s e)) → ∃ t u, exec (x.1 e { h with res := 0 }) s = .next t ∧
      exec (x.1 e { h with res := 1 }) s = .next u ∧
      u = { t with regs := u.regs } ∧ ∀ a : Nat, u.rd a = if a = engReg R.ME_RES_CNT e then sat32 (t.rd a) 1 else t.rd a) ∧
  (∀ (s : State) (e : Fin 256) (h : Haz), Fetches s e 0x39 → h.fetch.val = 0 →
    exec (.meWait e { h with res := 1 }) s = exec (.meWait e { h with res := 0 }) (s.bump (engReg R.ME_RES_CNT e))) ∧
  (∀ x ∈ checkedRows, ∀ (s : State) (e : Fin 256) (h : Haz), Fetches s e x.2 → h.fetch.val ≠ 2 →
    ∃ t, exec (x.1 e { h with res := 2 }) s = .next t ∧ Faulted s t e 4 ∧ t.sram = s.sram ∧ t.mem = s.mem ∧ t.port = s.port ∧
      ∀ k : Fin 256, t.eng[k] = { s.eng[k] with st := t.eng[k].st })

/-- One step takes the command at the front of the queue. On an empty queue the counter counts one TBCLK edge once TBPLL has first
locked; that a step on an empty queue is one edge is the model's choice (log entry 1). -/
def Obligations.StepRunsTheFrontCommand : Prop :=
  (∀ (s : State) (c : Instr) (r : List Instr), s.pending = c :: r → step s = exec c { s with pending := r }) ∧
  (∀ s : State, s.pending = [] → s.tb.ever = false → step s = .next s) ∧
  (∀ s : State, s.pending = [] → s.tb.ever = true → (s.tb.count + 1#54).toNat % 2 ^ 50 ≠ 0 →
    (∀ g : Fin 8, s.sg[g].jq = []) → (∀ q : Nat, (s.qSt q).sealAsk = false) →
    step s = .next ((s.setTb (fun T => { T with count := s.tb.count + 1#54 })).setTb ditherTick)) ∧
  (∀ s : State, s.pending = [] → s.tb.ever = true → ∃ t, step s = .next t ∧ t.tb.count = s.tb.count + 1#54) ∧
  (∀ s : State, s.pending = [] → s.tb.ever = true → s.tb.count = BitVec.allOnes 54 →
    ∃ t, step s = .next t ∧ t.tb.count = 0#54 ∧ CountsOne s t (R.TB_EVT_CNT 4)) ∧
  (∀ s : State, s.pending = [] → s.tb.ever = true → step s = .next s.tick.jumpsArrive)

/-- The block after the assertion of PORST_N: no command waits, PHASE is ROM, nothing runs, and the registers hold the reset values of
their tables. -/
def Obligations.ResetState : Prop :=
  State.reset.pending = [] ∧ State.reset.phase = 0 ∧ State.reset.modesLegal ∧ State.reset.memCanonical ∧ State.reset.tb.ever = false ∧
  (∀ g : Fin 16, State.reset.grp[g].st = .idle) ∧ (∀ e : Fin 256, State.reset.eng[e].st = 0) ∧
  (∀ g : Fin 8, State.reset.sg[g].st = .idle) ∧ (∀ k : Fin 16, State.reset.dc[k].st = .disabled) ∧
  (∀ p : Fin 4, State.reset.rd (R.HP_CTL p) = 0x0A#32 ∧ State.reset.rd (R.HP_LTR p) = 0x0BB80014#32 ∧
    State.reset.rd (R.CFGI_CTL p) = 1#32 ∧ State.reset.rd (R.TB_PTM_CTL p) = 0xA00#32) ∧
  State.reset.rd R.GLB_ID = 0x71280101#32 ∧ State.reset.rd R.TB_LOCK_CTL = 0x40032#32 ∧ State.reset.rd R.TB_DITHER_SEED = 0x13579BDF#32 ∧
  State.reset.rd R.TB_SG_FCW = 0x40000000#32 ∧ State.reset.rd R.TB_RAMP_CTL = 1#32 ∧ State.reset.rd R.DC_AGE = 0x10008008#32 ∧
  State.reset.rd R.DC_SCRUB = 0x18#32 ∧ State.reset.rd R.PG_VCTL = 0x30CDC2A8#32 ∧ State.reset.rd R.PG_PMB = 0x40#32 ∧
  (∀ c : Fin 128, State.reset.rd (R.CH_THR c) = 0x2AA#32 ∧ State.reset.rd (R.ME_X_CTL c) = 0x0B828000#32 ∧
    State.reset.rd (R.ME_X_PER c) = 0x10000#32) ∧
  (∀ g : Fin 16, State.reset.rd (R.CH_GRP_STG g) = 0xC00080#32 ∧ State.reset.rd (R.CH_GRP_PACK g) = 0x3E8#32 ∧
    State.reset.rd (R.CH_GRP_SEAL g) = 0x1000#32 ∧ State.reset.rd (R.IU_GATE_N g) = 1#32 ∧ State.reset.rd (R.TDC_CAL_CTL g) = 1#32) ∧
  (∀ k : Fin 16, State.reset.rd (R.DC_TIM2 k) = 0x1E8168D2#32 ∧ State.reset.rd (R.DC_VREF k) = 0x40404040#32 ∧
    State.reset.rd (R.DC_TRN_SEED k) = 1#32) ∧
  (∀ g : Fin 8, State.reset.rd (R.SG_CFG g) = 0x80000004#32 ∧ State.reset.rd (R.SG_SEQ g) = 1#32) ∧
  (∀ k : Fin 8, State.reset.rd (R.PG_TEMP k) = 0x80000000#32)

/-- A well-formed command goes on in every state, without touching the queue; one whose operands are not well formed stops (the three
commands that carry lists or a span that R28, R33 and R62 bound). -/
def Obligations.WellFormedCommandsGoOn : Prop :=
  (∀ (c : Instr) (s : State), c.wf = true → ∃ t, exec c s = .next t ∧ t.pending = s.pending) ∧
  (∀ (c : Instr) (s : State), c.wf = false → exec c s = .fault .illFormed)

/-- No command changes what lies outside its reach: the queue, the acquisition memory, the fuses and the flash, the sealing key, the
start-up phase, the partition map. -/
def Obligations.CommandsKeepWhatTheyDoNotReach : Prop :=
  ∀ (c : Instr) (s t : State), exec c s = .next t → t.pending = s.pending ∧
    (keepsMemory c = true ∨ (startsFirmware c = true ∧ s.dcMap = []) → t.mem = s.mem ∧ t.bad = s.bad) ∧
    (actsOnFuses c = false → t.sc.fuse = s.sc.fuse ∧ t.sc.flash = s.sc.flash) ∧
    (actsOnKeys c = false → t.sealKey = s.sealKey) ∧
    (actsOnPhase c = false → t.phase = s.phase) ∧
    (actsOnMap c = false → t.pmap = s.pmap ∧ t.owner = s.owner)

/-- Every step keeps the start-up phase and the life-cycle state legal. -/
def Obligations.EveryStepKeepsLegalModes : Prop :=
  ∀ s t : State, s.modesLegal → step s = .next t → t.modesLegal

/-- Every step keeps the acquisition memory in canonical form. -/
def Obligations.EveryStepKeepsMemoryCanonical : Prop :=
  ∀ s t : State, s.memCanonical → step s = .next t → t.memCanonical
end

