-- ==== Sys2Proof/Laws/State.lean ====
section
/-! SUPPORT. What each update of the state does to each field: one lemma per field per update, true by unfolding. No proof
needs to unfold an update. -/

namespace Sys2Proof.Machine.State

variable (s : State)

/-! ### wr -/

@[simp] theorem wr_regs (a : Nat) (w : Word) : (s.wr a w).regs = Tab.set RegTable.resetWord s.regs a w := rfl
@[simp] theorem wr_fixed (a : Nat) (w : Word) : (s.wr a w).fixed = s.fixed := rfl
@[simp] theorem wr_latch (a : Nat) (w : Word) : (s.wr a w).latch = s.latch := rfl
@[simp] theorem wr_owner (a : Nat) (w : Word) : (s.wr a w).owner = s.owner := rfl
@[simp] theorem wr_pmap (a : Nat) (w : Word) : (s.wr a w).pmap = s.pmap := rfl
@[simp] theorem wr_free (a : Nat) (w : Word) : (s.wr a w).free = s.free := rfl
@[simp] theorem wr_tb (a : Nat) (w : Word) : (s.wr a w).tb = s.tb := rfl
@[simp] theorem wr_ch (a : Nat) (w : Word) : (s.wr a w).ch = s.ch := rfl
@[simp] theorem wr_grp (a : Nat) (w : Word) : (s.wr a w).grp = s.grp := rfl
@[simp] theorem wr_trg (a : Nat) (w : Word) : (s.wr a w).trg = s.trg := rfl
@[simp] theorem wr_iu (a : Nat) (w : Word) : (s.wr a w).iu = s.iu := rfl
@[simp] theorem wr_xt (a : Nat) (w : Word) : (s.wr a w).xt = s.xt := rfl
@[simp] theorem wr_eng (a : Nat) (w : Word) : (s.wr a w).eng = s.eng := rfl
@[simp] theorem wr_gang (a : Nat) (w : Word) : (s.wr a w).gang = s.gang := rfl
@[simp] theorem wr_sg (a : Nat) (w : Word) : (s.wr a w).sg = s.sg := rfl
@[simp] theorem wr_grid (a : Nat) (w : Word) : (s.wr a w).grid = s.grid := rfl
@[simp] theorem wr_sram (a : Nat) (w : Word) : (s.wr a w).sram = s.sram := rfl
@[simp] theorem wr_sramBad (a : Nat) (w : Word) : (s.wr a w).sramBad = s.sramBad := rfl
@[simp] theorem wr_arr (a : Nat) (w : Word) : (s.wr a w).arr = s.arr := rfl
@[simp] theorem wr_mt (a : Nat) (w : Word) : (s.wr a w).mt = s.mt := rfl
@[simp] theorem wr_resident (a : Nat) (w : Word) : (s.wr a w).resident = s.resident := rfl
@[simp] theorem wr_cocoon (a : Nat) (w : Word) : (s.wr a w).cocoon = s.cocoon := rfl
@[simp] theorem wr_asleep (a : Nat) (w : Word) : (s.wr a w).asleep = s.asleep := rfl
@[simp] theorem wr_evt (a : Nat) (w : Word) : (s.wr a w).evt = s.evt := rfl
@[simp] theorem wr_mem (a : Nat) (w : Word) : (s.wr a w).mem = s.mem := rfl
@[simp] theorem wr_bad (a : Nat) (w : Word) : (s.wr a w).bad = s.bad := rfl
@[simp] theorem wr_dcMap (a : Nat) (w : Word) : (s.wr a w).dcMap = s.dcMap := rfl
@[simp] theorem wr_dc (a : Nat) (w : Word) : (s.wr a w).dc = s.dc := rfl
@[simp] theorem wr_fill (a : Nat) (w : Word) : (s.wr a w).fill = s.fill := rfl
@[simp] theorem wr_winWait (a : Nat) (w : Word) : (s.wr a w).winWait = s.winWait := rfl
@[simp] theorem wr_resp (a : Nat) (w : Word) : (s.wr a w).resp = s.resp := rfl
@[simp] theorem wr_locked (a : Nat) (w : Word) : (s.wr a w).locked = s.locked := rfl
@[simp] theorem wr_mon (a : Nat) (w : Word) : (s.wr a w).mon = s.mon := rfl
@[simp] theorem wr_failed (a : Nat) (w : Word) : (s.wr a w).failed = s.failed := rfl
@[simp] theorem wr_phase (a : Nat) (w : Word) : (s.wr a w).phase = s.phase := rfl
@[simp] theorem wr_loading (a : Nat) (w : Word) : (s.wr a w).loading = s.loading := rfl
@[simp] theorem wr_qm (a : Nat) (w : Word) : (s.wr a w).qm = s.qm := rfl
@[simp] theorem wr_port (a : Nat) (w : Word) : (s.wr a w).port = s.port := rfl
@[simp] theorem wr_sealQ (a : Nat) (w : Word) : (s.wr a w).sealQ = s.sealQ := rfl
@[simp] theorem wr_sealKey (a : Nat) (w : Word) : (s.wr a w).sealKey = s.sealKey := rfl
@[simp] theorem wr_pwr (a : Nat) (w : Word) : (s.wr a w).pwr = s.pwr := rfl
@[simp] theorem wr_cfgi (a : Nat) (w : Word) : (s.wr a w).cfgi = s.cfgi := rfl
@[simp] theorem wr_sc (a : Nat) (w : Word) : (s.wr a w).sc = s.sc := rfl
@[simp] theorem wr_faults (a : Nat) (w : Word) : (s.wr a w).faults = s.faults := rfl
@[simp] theorem wr_pending (a : Nat) (w : Word) : (s.wr a w).pending = s.pending := rfl

/-! ### wrF -/

@[simp] theorem wrF_fixed (a hi lo v : Nat) : (s.wrF a hi lo v).fixed = s.fixed := rfl
@[simp] theorem wrF_latch (a hi lo v : Nat) : (s.wrF a hi lo v).latch = s.latch := rfl
@[simp] theorem wrF_owner (a hi lo v : Nat) : (s.wrF a hi lo v).owner = s.owner := rfl
@[simp] theorem wrF_pmap (a hi lo v : Nat) : (s.wrF a hi lo v).pmap = s.pmap := rfl
@[simp] theorem wrF_free (a hi lo v : Nat) : (s.wrF a hi lo v).free = s.free := rfl
@[simp] theorem wrF_tb (a hi lo v : Nat) : (s.wrF a hi lo v).tb = s.tb := rfl
@[simp] theorem wrF_ch (a hi lo v : Nat) : (s.wrF a hi lo v).ch = s.ch := rfl
@[simp] theorem wrF_grp (a hi lo v : Nat) : (s.wrF a hi lo v).grp = s.grp := rfl
@[simp] theorem wrF_trg (a hi lo v : Nat) : (s.wrF a hi lo v).trg = s.trg := rfl
@[simp] theorem wrF_iu (a hi lo v : Nat) : (s.wrF a hi lo v).iu = s.iu := rfl
@[simp] theorem wrF_xt (a hi lo v : Nat) : (s.wrF a hi lo v).xt = s.xt := rfl
@[simp] theorem wrF_eng (a hi lo v : Nat) : (s.wrF a hi lo v).eng = s.eng := rfl
@[simp] theorem wrF_gang (a hi lo v : Nat) : (s.wrF a hi lo v).gang = s.gang := rfl
@[simp] theorem wrF_sg (a hi lo v : Nat) : (s.wrF a hi lo v).sg = s.sg := rfl
@[simp] theorem wrF_grid (a hi lo v : Nat) : (s.wrF a hi lo v).grid = s.grid := rfl
@[simp] theorem wrF_sram (a hi lo v : Nat) : (s.wrF a hi lo v).sram = s.sram := rfl
@[simp] theorem wrF_sramBad (a hi lo v : Nat) : (s.wrF a hi lo v).sramBad = s.sramBad := rfl
@[simp] theorem wrF_arr (a hi lo v : Nat) : (s.wrF a hi lo v).arr = s.arr := rfl
@[simp] theorem wrF_mt (a hi lo v : Nat) : (s.wrF a hi lo v).mt = s.mt := rfl
@[simp] theorem wrF_resident (a hi lo v : Nat) : (s.wrF a hi lo v).resident = s.resident := rfl
@[simp] theorem wrF_cocoon (a hi lo v : Nat) : (s.wrF a hi lo v).cocoon = s.cocoon := rfl
@[simp] theorem wrF_asleep (a hi lo v : Nat) : (s.wrF a hi lo v).asleep = s.asleep := rfl
@[simp] theorem wrF_evt (a hi lo v : Nat) : (s.wrF a hi lo v).evt = s.evt := rfl
@[simp] theorem wrF_mem (a hi lo v : Nat) : (s.wrF a hi lo v).mem = s.mem := rfl
@[simp] theorem wrF_bad (a hi lo v : Nat) : (s.wrF a hi lo v).bad = s.bad := rfl
@[simp] theorem wrF_dcMap (a hi lo v : Nat) : (s.wrF a hi lo v).dcMap = s.dcMap := rfl
@[simp] theorem wrF_dc (a hi lo v : Nat) : (s.wrF a hi lo v).dc = s.dc := rfl
@[simp] theorem wrF_fill (a hi lo v : Nat) : (s.wrF a hi lo v).fill = s.fill := rfl
@[simp] theorem wrF_winWait (a hi lo v : Nat) : (s.wrF a hi lo v).winWait = s.winWait := rfl
@[simp] theorem wrF_resp (a hi lo v : Nat) : (s.wrF a hi lo v).resp = s.resp := rfl
@[simp] theorem wrF_locked (a hi lo v : Nat) : (s.wrF a hi lo v).locked = s.locked := rfl
@[simp] theorem wrF_mon (a hi lo v : Nat) : (s.wrF a hi lo v).mon = s.mon := rfl
@[simp] theorem wrF_failed (a hi lo v : Nat) : (s.wrF a hi lo v).failed = s.failed := rfl
@[simp] theorem wrF_phase (a hi lo v : Nat) : (s.wrF a hi lo v).phase = s.phase := rfl
@[simp] theorem wrF_loading (a hi lo v : Nat) : (s.wrF a hi lo v).loading = s.loading := rfl
@[simp] theorem wrF_qm (a hi lo v : Nat) : (s.wrF a hi lo v).qm = s.qm := rfl
@[simp] theorem wrF_port (a hi lo v : Nat) : (s.wrF a hi lo v).port = s.port := rfl
@[simp] theorem wrF_sealQ (a hi lo v : Nat) : (s.wrF a hi lo v).sealQ = s.sealQ := rfl
@[simp] theorem wrF_sealKey (a hi lo v : Nat) : (s.wrF a hi lo v).sealKey = s.sealKey := rfl
@[simp] theorem wrF_pwr (a hi lo v : Nat) : (s.wrF a hi lo v).pwr = s.pwr := rfl
@[simp] theorem wrF_cfgi (a hi lo v : Nat) : (s.wrF a hi lo v).cfgi = s.cfgi := rfl
@[simp] theorem wrF_sc (a hi lo v : Nat) : (s.wrF a hi lo v).sc = s.sc := rfl
@[simp] theorem wrF_faults (a hi lo v : Nat) : (s.wrF a hi lo v).faults = s.faults := rfl
@[simp] theorem wrF_pending (a hi lo v : Nat) : (s.wrF a hi lo v).pending = s.pending := rfl

/-! ### wr64 -/

@[simp] theorem wr64_fixed (lo hi : Nat) (v : BitVec 64) : (s.wr64 lo hi v).fixed = s.fixed := rfl
@[simp] theorem wr64_latch (lo hi : Nat) (v : BitVec 64) : (s.wr64 lo hi v).latch = s.latch := rfl
@[simp] theorem wr64_owner (lo hi : Nat) (v : BitVec 64) : (s.wr64 lo hi v).owner = s.owner := rfl
@[simp] theorem wr64_pmap (lo hi : Nat) (v : BitVec 64) : (s.wr64 lo hi v).pmap = s.pmap := rfl
@[simp] theorem wr64_free (lo hi : Nat) (v : BitVec 64) : (s.wr64 lo hi v).free = s.free := rfl
@[simp] theorem wr64_tb (lo hi : Nat) (v : BitVec 64) : (s.wr64 lo hi v).tb = s.tb := rfl
@[simp] theorem wr64_ch (lo hi : Nat) (v : BitVec 64) : (s.wr64 lo hi v).ch = s.ch := rfl
@[simp] theorem wr64_grp (lo hi : Nat) (v : BitVec 64) : (s.wr64 lo hi v).grp = s.grp := rfl
@[simp] theorem wr64_trg (lo hi : Nat) (v : BitVec 64) : (s.wr64 lo hi v).trg = s.trg := rfl
@[simp] theorem wr64_iu (lo hi : Nat) (v : BitVec 64) : (s.wr64 lo hi v).iu = s.iu := rfl
@[simp] theorem wr64_xt (lo hi : Nat) (v : BitVec 64) : (s.wr64 lo hi v).xt = s.xt := rfl
@[simp] theorem wr64_eng (lo hi : Nat) (v : BitVec 64) : (s.wr64 lo hi v).eng = s.eng := rfl
@[simp] theorem wr64_gang (lo hi : Nat) (v : BitVec 64) : (s.wr64 lo hi v).gang = s.gang := rfl
@[simp] theorem wr64_sg (lo hi : Nat) (v : BitVec 64) : (s.wr64 lo hi v).sg = s.sg := rfl
@[simp] theorem wr64_grid (lo hi : Nat) (v : BitVec 64) : (s.wr64 lo hi v).grid = s.grid := rfl
@[simp] theorem wr64_sram (lo hi : Nat) (v : BitVec 64) : (s.wr64 lo hi v).sram = s.sram := rfl
@[simp] theorem wr64_sramBad (lo hi : Nat) (v : BitVec 64) : (s.wr64 lo hi v).sramBad = s.sramBad := rfl
@[simp] theorem wr64_arr (lo hi : Nat) (v : BitVec 64) : (s.wr64 lo hi v).arr = s.arr := rfl
@[simp] theorem wr64_mt (lo hi : Nat) (v : BitVec 64) : (s.wr64 lo hi v).mt = s.mt := rfl
@[simp] theorem wr64_resident (lo hi : Nat) (v : BitVec 64) : (s.wr64 lo hi v).resident = s.resident := rfl
@[simp] theorem wr64_cocoon (lo hi : Nat) (v : BitVec 64) : (s.wr64 lo hi v).cocoon = s.cocoon := rfl
@[simp] theorem wr64_asleep (lo hi : Nat) (v : BitVec 64) : (s.wr64 lo hi v).asleep = s.asleep := rfl
@[simp] theorem wr64_evt (lo hi : Nat) (v : BitVec 64) : (s.wr64 lo hi v).evt = s.evt := rfl
@[simp] theorem wr64_mem (lo hi : Nat) (v : BitVec 64) : (s.wr64 lo hi v).mem = s.mem := rfl
@[simp] theorem wr64_bad (lo hi : Nat) (v : BitVec 64) : (s.wr64 lo hi v).bad = s.bad := rfl
@[simp] theorem wr64_dcMap (lo hi : Nat) (v : BitVec 64) : (s.wr64 lo hi v).dcMap = s.dcMap := rfl
@[simp] theorem wr64_dc (lo hi : Nat) (v : BitVec 64) : (s.wr64 lo hi v).dc = s.dc := rfl
@[simp] theorem wr64_fill (lo hi : Nat) (v : BitVec 64) : (s.wr64 lo hi v).fill = s.fill := rfl
@[simp] theorem wr64_winWait (lo hi : Nat) (v : BitVec 64) : (s.wr64 lo hi v).winWait = s.winWait := rfl
@[simp] theorem wr64_resp (lo hi : Nat) (v : BitVec 64) : (s.wr64 lo hi v).resp = s.resp := rfl
@[simp] theorem wr64_locked (lo hi : Nat) (v : BitVec 64) : (s.wr64 lo hi v).locked = s.locked := rfl
@[simp] theorem wr64_mon (lo hi : Nat) (v : BitVec 64) : (s.wr64 lo hi v).mon = s.mon := rfl
@[simp] theorem wr64_failed (lo hi : Nat) (v : BitVec 64) : (s.wr64 lo hi v).failed = s.failed := rfl
@[simp] theorem wr64_phase (lo hi : Nat) (v : BitVec 64) : (s.wr64 lo hi v).phase = s.phase := rfl
@[simp] theorem wr64_loading (lo hi : Nat) (v : BitVec 64) : (s.wr64 lo hi v).loading = s.loading := rfl
@[simp] theorem wr64_qm (lo hi : Nat) (v : BitVec 64) : (s.wr64 lo hi v).qm = s.qm := rfl
@[simp] theorem wr64_port (lo hi : Nat) (v : BitVec 64) : (s.wr64 lo hi v).port = s.port := rfl
@[simp] theorem wr64_sealQ (lo hi : Nat) (v : BitVec 64) : (s.wr64 lo hi v).sealQ = s.sealQ := rfl
@[simp] theorem wr64_sealKey (lo hi : Nat) (v : BitVec 64) : (s.wr64 lo hi v).sealKey = s.sealKey := rfl
@[simp] theorem wr64_pwr (lo hi : Nat) (v : BitVec 64) : (s.wr64 lo hi v).pwr = s.pwr := rfl
@[simp] theorem wr64_cfgi (lo hi : Nat) (v : BitVec 64) : (s.wr64 lo hi v).cfgi = s.cfgi := rfl
@[simp] theorem wr64_sc (lo hi : Nat) (v : BitVec 64) : (s.wr64 lo hi v).sc = s.sc := rfl
@[simp] theorem wr64_faults (lo hi : Nat) (v : BitVec 64) : (s.wr64 lo hi v).faults = s.faults := rfl
@[simp] theorem wr64_pending (lo hi : Nat) (v : BitVec 64) : (s.wr64 lo hi v).pending = s.pending := rfl

/-! ### bump -/

@[simp] theorem bump_fixed (a n : Nat) : (s.bump a n).fixed = s.fixed := rfl
@[simp] theorem bump_latch (a n : Nat) : (s.bump a n).latch = s.latch := rfl
@[simp] theorem bump_owner (a n : Nat) : (s.bump a n).owner = s.owner := rfl
@[simp] theorem bump_pmap (a n : Nat) : (s.bump a n).pmap = s.pmap := rfl
@[simp] theorem bump_free (a n : Nat) : (s.bump a n).free = s.free := rfl
@[simp] theorem bump_tb (a n : Nat) : (s.bump a n).tb = s.tb := rfl
@[simp] theorem bump_ch (a n : Nat) : (s.bump a n).ch = s.ch := rfl
@[simp] theorem bump_grp (a n : Nat) : (s.bump a n).grp = s.grp := rfl
@[simp] theorem bump_trg (a n : Nat) : (s.bump a n).trg = s.trg := rfl
@[simp] theorem bump_iu (a n : Nat) : (s.bump a n).iu = s.iu := rfl
@[simp] theorem bump_xt (a n : Nat) : (s.bump a n).xt = s.xt := rfl
@[simp] theorem bump_eng (a n : Nat) : (s.bump a n).eng = s.eng := rfl
@[simp] theorem bump_gang (a n : Nat) : (s.bump a n).gang = s.gang := rfl
@[simp] theorem bump_sg (a n : Nat) : (s.bump a n).sg = s.sg := rfl
@[simp] theorem bump_grid (a n : Nat) : (s.bump a n).grid = s.grid := rfl
@[simp] theorem bump_sram (a n : Nat) : (s.bump a n).sram = s.sram := rfl
@[simp] theorem bump_sramBad (a n : Nat) : (s.bump a n).sramBad = s.sramBad := rfl
@[simp] theorem bump_arr (a n : Nat) : (s.bump a n).arr = s.arr := rfl
@[simp] theorem bump_mt (a n : Nat) : (s.bump a n).mt = s.mt := rfl
@[simp] theorem bump_resident (a n : Nat) : (s.bump a n).resident = s.resident := rfl
@[simp] theorem bump_cocoon (a n : Nat) : (s.bump a n).cocoon = s.cocoon := rfl
@[simp] theorem bump_asleep (a n : Nat) : (s.bump a n).asleep = s.asleep := rfl
@[simp] theorem bump_evt (a n : Nat) : (s.bump a n).evt = s.evt := rfl
@[simp] theorem bump_mem (a n : Nat) : (s.bump a n).mem = s.mem := rfl
@[simp] theorem bump_bad (a n : Nat) : (s.bump a n).bad = s.bad := rfl
@[simp] theorem bump_dcMap (a n : Nat) : (s.bump a n).dcMap = s.dcMap := rfl
@[simp] theorem bump_dc (a n : Nat) : (s.bump a n).dc = s.dc := rfl
@[simp] theorem bump_fill (a n : Nat) : (s.bump a n).fill = s.fill := rfl
@[simp] theorem bump_winWait (a n : Nat) : (s.bump a n).winWait = s.winWait := rfl
@[simp] theorem bump_resp (a n : Nat) : (s.bump a n).resp = s.resp := rfl
@[simp] theorem bump_locked (a n : Nat) : (s.bump a n).locked = s.locked := rfl
@[simp] theorem bump_mon (a n : Nat) : (s.bump a n).mon = s.mon := rfl
@[simp] theorem bump_failed (a n : Nat) : (s.bump a n).failed = s.failed := rfl
@[simp] theorem bump_phase (a n : Nat) : (s.bump a n).phase = s.phase := rfl
@[simp] theorem bump_loading (a n : Nat) : (s.bump a n).loading = s.loading := rfl
@[simp] theorem bump_qm (a n : Nat) : (s.bump a n).qm = s.qm := rfl
@[simp] theorem bump_port (a n : Nat) : (s.bump a n).port = s.port := rfl
@[simp] theorem bump_sealQ (a n : Nat) : (s.bump a n).sealQ = s.sealQ := rfl
@[simp] theorem bump_sealKey (a n : Nat) : (s.bump a n).sealKey = s.sealKey := rfl
@[simp] theorem bump_pwr (a n : Nat) : (s.bump a n).pwr = s.pwr := rfl
@[simp] theorem bump_cfgi (a n : Nat) : (s.bump a n).cfgi = s.cfgi := rfl
@[simp] theorem bump_sc (a n : Nat) : (s.bump a n).sc = s.sc := rfl
@[simp] theorem bump_faults (a n : Nat) : (s.bump a n).faults = s.faults := rfl
@[simp] theorem bump_pending (a n : Nat) : (s.bump a n).pending = s.pending := rfl

/-! ### setCh -/

@[simp] theorem setCh_regs (c : Fin 128) (h : ChSt → ChSt) : (s.setCh c h).regs = s.regs := rfl
@[simp] theorem setCh_fixed (c : Fin 128) (h : ChSt → ChSt) : (s.setCh c h).fixed = s.fixed := rfl
@[simp] theorem setCh_latch (c : Fin 128) (h : ChSt → ChSt) : (s.setCh c h).latch = s.latch := rfl
@[simp] theorem setCh_owner (c : Fin 128) (h : ChSt → ChSt) : (s.setCh c h).owner = s.owner := rfl
@[simp] theorem setCh_pmap (c : Fin 128) (h : ChSt → ChSt) : (s.setCh c h).pmap = s.pmap := rfl
@[simp] theorem setCh_free (c : Fin 128) (h : ChSt → ChSt) : (s.setCh c h).free = s.free := rfl
@[simp] theorem setCh_tb (c : Fin 128) (h : ChSt → ChSt) : (s.setCh c h).tb = s.tb := rfl
@[simp] theorem setCh_ch (c : Fin 128) (h : ChSt → ChSt) : (s.setCh c h).ch = s.ch.set c (h s.ch[c]) := rfl
@[simp] theorem setCh_grp (c : Fin 128) (h : ChSt → ChSt) : (s.setCh c h).grp = s.grp := rfl
@[simp] theorem setCh_trg (c : Fin 128) (h : ChSt → ChSt) : (s.setCh c h).trg = s.trg := rfl
@[simp] theorem setCh_iu (c : Fin 128) (h : ChSt → ChSt) : (s.setCh c h).iu = s.iu := rfl
@[simp] theorem setCh_xt (c : Fin 128) (h : ChSt → ChSt) : (s.setCh c h).xt = s.xt := rfl
@[simp] theorem setCh_eng (c : Fin 128) (h : ChSt → ChSt) : (s.setCh c h).eng = s.eng := rfl
@[simp] theorem setCh_gang (c : Fin 128) (h : ChSt → ChSt) : (s.setCh c h).gang = s.gang := rfl
@[simp] theorem setCh_sg (c : Fin 128) (h : ChSt → ChSt) : (s.setCh c h).sg = s.sg := rfl
@[simp] theorem setCh_grid (c : Fin 128) (h : ChSt → ChSt) : (s.setCh c h).grid = s.grid := rfl
@[simp] theorem setCh_sram (c : Fin 128) (h : ChSt → ChSt) : (s.setCh c h).sram = s.sram := rfl
@[simp] theorem setCh_sramBad (c : Fin 128) (h : ChSt → ChSt) : (s.setCh c h).sramBad = s.sramBad := rfl
@[simp] theorem setCh_arr (c : Fin 128) (h : ChSt → ChSt) : (s.setCh c h).arr = s.arr := rfl
@[simp] theorem setCh_mt (c : Fin 128) (h : ChSt → ChSt) : (s.setCh c h).mt = s.mt := rfl
@[simp] theorem setCh_resident (c : Fin 128) (h : ChSt → ChSt) : (s.setCh c h).resident = s.resident := rfl
@[simp] theorem setCh_cocoon (c : Fin 128) (h : ChSt → ChSt) : (s.setCh c h).cocoon = s.cocoon := rfl
@[simp] theorem setCh_asleep (c : Fin 128) (h : ChSt → ChSt) : (s.setCh c h).asleep = s.asleep := rfl
@[simp] theorem setCh_evt (c : Fin 128) (h : ChSt → ChSt) : (s.setCh c h).evt = s.evt := rfl
@[simp] theorem setCh_mem (c : Fin 128) (h : ChSt → ChSt) : (s.setCh c h).mem = s.mem := rfl
@[simp] theorem setCh_bad (c : Fin 128) (h : ChSt → ChSt) : (s.setCh c h).bad = s.bad := rfl
@[simp] theorem setCh_dcMap (c : Fin 128) (h : ChSt → ChSt) : (s.setCh c h).dcMap = s.dcMap := rfl
@[simp] theorem setCh_dc (c : Fin 128) (h : ChSt → ChSt) : (s.setCh c h).dc = s.dc := rfl
@[simp] theorem setCh_fill (c : Fin 128) (h : ChSt → ChSt) : (s.setCh c h).fill = s.fill := rfl
@[simp] theorem setCh_winWait (c : Fin 128) (h : ChSt → ChSt) : (s.setCh c h).winWait = s.winWait := rfl
@[simp] theorem setCh_resp (c : Fin 128) (h : ChSt → ChSt) : (s.setCh c h).resp = s.resp := rfl
@[simp] theorem setCh_locked (c : Fin 128) (h : ChSt → ChSt) : (s.setCh c h).locked = s.locked := rfl
@[simp] theorem setCh_mon (c : Fin 128) (h : ChSt → ChSt) : (s.setCh c h).mon = s.mon := rfl
@[simp] theorem setCh_failed (c : Fin 128) (h : ChSt → ChSt) : (s.setCh c h).failed = s.failed := rfl
@[simp] theorem setCh_phase (c : Fin 128) (h : ChSt → ChSt) : (s.setCh c h).phase = s.phase := rfl
@[simp] theorem setCh_loading (c : Fin 128) (h : ChSt → ChSt) : (s.setCh c h).loading = s.loading := rfl
@[simp] theorem setCh_qm (c : Fin 128) (h : ChSt → ChSt) : (s.setCh c h).qm = s.qm := rfl
@[simp] theorem setCh_port (c : Fin 128) (h : ChSt → ChSt) : (s.setCh c h).port = s.port := rfl
@[simp] theorem setCh_sealQ (c : Fin 128) (h : ChSt → ChSt) : (s.setCh c h).sealQ = s.sealQ := rfl
@[simp] theorem setCh_sealKey (c : Fin 128) (h : ChSt → ChSt) : (s.setCh c h).sealKey = s.sealKey := rfl
@[simp] theorem setCh_pwr (c : Fin 128) (h : ChSt → ChSt) : (s.setCh c h).pwr = s.pwr := rfl
@[simp] theorem setCh_cfgi (c : Fin 128) (h : ChSt → ChSt) : (s.setCh c h).cfgi = s.cfgi := rfl
@[simp] theorem setCh_sc (c : Fin 128) (h : ChSt → ChSt) : (s.setCh c h).sc = s.sc := rfl
@[simp] theorem setCh_faults (c : Fin 128) (h : ChSt → ChSt) : (s.setCh c h).faults = s.faults := rfl
@[simp] theorem setCh_pending (c : Fin 128) (h : ChSt → ChSt) : (s.setCh c h).pending = s.pending := rfl

/-! ### setGrp -/

@[simp] theorem setGrp_regs (g : Fin 16) (h : GrpSt → GrpSt) : (s.setGrp g h).regs = s.regs := rfl
@[simp] theorem setGrp_fixed (g : Fin 16) (h : GrpSt → GrpSt) : (s.setGrp g h).fixed = s.fixed := rfl
@[simp] theorem setGrp_latch (g : Fin 16) (h : GrpSt → GrpSt) : (s.setGrp g h).latch = s.latch := rfl
@[simp] theorem setGrp_owner (g : Fin 16) (h : GrpSt → GrpSt) : (s.setGrp g h).owner = s.owner := rfl
@[simp] theorem setGrp_pmap (g : Fin 16) (h : GrpSt → GrpSt) : (s.setGrp g h).pmap = s.pmap := rfl
@[simp] theorem setGrp_free (g : Fin 16) (h : GrpSt → GrpSt) : (s.setGrp g h).free = s.free := rfl
@[simp] theorem setGrp_tb (g : Fin 16) (h : GrpSt → GrpSt) : (s.setGrp g h).tb = s.tb := rfl
@[simp] theorem setGrp_ch (g : Fin 16) (h : GrpSt → GrpSt) : (s.setGrp g h).ch = s.ch := rfl
@[simp] theorem setGrp_grp (g : Fin 16) (h : GrpSt → GrpSt) : (s.setGrp g h).grp = s.grp.set g (h s.grp[g]) := rfl
@[simp] theorem setGrp_trg (g : Fin 16) (h : GrpSt → GrpSt) : (s.setGrp g h).trg = s.trg := rfl
@[simp] theorem setGrp_iu (g : Fin 16) (h : GrpSt → GrpSt) : (s.setGrp g h).iu = s.iu := rfl
@[simp] theorem setGrp_xt (g : Fin 16) (h : GrpSt → GrpSt) : (s.setGrp g h).xt = s.xt := rfl
@[simp] theorem setGrp_eng (g : Fin 16) (h : GrpSt → GrpSt) : (s.setGrp g h).eng = s.eng := rfl
@[simp] theorem setGrp_gang (g : Fin 16) (h : GrpSt → GrpSt) : (s.setGrp g h).gang = s.gang := rfl
@[simp] theorem setGrp_sg (g : Fin 16) (h : GrpSt → GrpSt) : (s.setGrp g h).sg = s.sg := rfl
@[simp] theorem setGrp_grid (g : Fin 16) (h : GrpSt → GrpSt) : (s.setGrp g h).grid = s.grid := rfl
@[simp] theorem setGrp_sram (g : Fin 16) (h : GrpSt → GrpSt) : (s.setGrp g h).sram = s.sram := rfl
@[simp] theorem setGrp_sramBad (g : Fin 16) (h : GrpSt → GrpSt) : (s.setGrp g h).sramBad = s.sramBad := rfl
@[simp] theorem setGrp_arr (g : Fin 16) (h : GrpSt → GrpSt) : (s.setGrp g h).arr = s.arr := rfl
@[simp] theorem setGrp_mt (g : Fin 16) (h : GrpSt → GrpSt) : (s.setGrp g h).mt = s.mt := rfl
@[simp] theorem setGrp_resident (g : Fin 16) (h : GrpSt → GrpSt) : (s.setGrp g h).resident = s.resident := rfl
@[simp] theorem setGrp_cocoon (g : Fin 16) (h : GrpSt → GrpSt) : (s.setGrp g h).cocoon = s.cocoon := rfl
@[simp] theorem setGrp_asleep (g : Fin 16) (h : GrpSt → GrpSt) : (s.setGrp g h).asleep = s.asleep := rfl
@[simp] theorem setGrp_evt (g : Fin 16) (h : GrpSt → GrpSt) : (s.setGrp g h).evt = s.evt := rfl
@[simp] theorem setGrp_mem (g : Fin 16) (h : GrpSt → GrpSt) : (s.setGrp g h).mem = s.mem := rfl
@[simp] theorem setGrp_bad (g : Fin 16) (h : GrpSt → GrpSt) : (s.setGrp g h).bad = s.bad := rfl
@[simp] theorem setGrp_dcMap (g : Fin 16) (h : GrpSt → GrpSt) : (s.setGrp g h).dcMap = s.dcMap := rfl
@[simp] theorem setGrp_dc (g : Fin 16) (h : GrpSt → GrpSt) : (s.setGrp g h).dc = s.dc := rfl
@[simp] theorem setGrp_fill (g : Fin 16) (h : GrpSt → GrpSt) : (s.setGrp g h).fill = s.fill := rfl
@[simp] theorem setGrp_winWait (g : Fin 16) (h : GrpSt → GrpSt) : (s.setGrp g h).winWait = s.winWait := rfl
@[simp] theorem setGrp_resp (g : Fin 16) (h : GrpSt → GrpSt) : (s.setGrp g h).resp = s.resp := rfl
@[simp] theorem setGrp_locked (g : Fin 16) (h : GrpSt → GrpSt) : (s.setGrp g h).locked = s.locked := rfl
@[simp] theorem setGrp_mon (g : Fin 16) (h : GrpSt → GrpSt) : (s.setGrp g h).mon = s.mon := rfl
@[simp] theorem setGrp_failed (g : Fin 16) (h : GrpSt → GrpSt) : (s.setGrp g h).failed = s.failed := rfl
@[simp] theorem setGrp_phase (g : Fin 16) (h : GrpSt → GrpSt) : (s.setGrp g h).phase = s.phase := rfl
@[simp] theorem setGrp_loading (g : Fin 16) (h : GrpSt → GrpSt) : (s.setGrp g h).loading = s.loading := rfl
@[simp] theorem setGrp_qm (g : Fin 16) (h : GrpSt → GrpSt) : (s.setGrp g h).qm = s.qm := rfl
@[simp] theorem setGrp_port (g : Fin 16) (h : GrpSt → GrpSt) : (s.setGrp g h).port = s.port := rfl
@[simp] theorem setGrp_sealQ (g : Fin 16) (h : GrpSt → GrpSt) : (s.setGrp g h).sealQ = s.sealQ := rfl
@[simp] theorem setGrp_sealKey (g : Fin 16) (h : GrpSt → GrpSt) : (s.setGrp g h).sealKey = s.sealKey := rfl
@[simp] theorem setGrp_pwr (g : Fin 16) (h : GrpSt → GrpSt) : (s.setGrp g h).pwr = s.pwr := rfl
@[simp] theorem setGrp_cfgi (g : Fin 16) (h : GrpSt → GrpSt) : (s.setGrp g h).cfgi = s.cfgi := rfl
@[simp] theorem setGrp_sc (g : Fin 16) (h : GrpSt → GrpSt) : (s.setGrp g h).sc = s.sc := rfl
@[simp] theorem setGrp_faults (g : Fin 16) (h : GrpSt → GrpSt) : (s.setGrp g h).faults = s.faults := rfl
@[simp] theorem setGrp_pending (g : Fin 16) (h : GrpSt → GrpSt) : (s.setGrp g h).pending = s.pending := rfl

/-! ### setTb -/

@[simp] theorem setTb_regs (h : TimeSt → TimeSt) : (s.setTb h).regs = s.regs := rfl
@[simp] theorem setTb_fixed (h : TimeSt → TimeSt) : (s.setTb h).fixed = s.fixed := rfl
@[simp] theorem setTb_latch (h : TimeSt → TimeSt) : (s.setTb h).latch = s.latch := rfl
@[simp] theorem setTb_owner (h : TimeSt → TimeSt) : (s.setTb h).owner = s.owner := rfl
@[simp] theorem setTb_pmap (h : TimeSt → TimeSt) : (s.setTb h).pmap = s.pmap := rfl
@[simp] theorem setTb_free (h : TimeSt → TimeSt) : (s.setTb h).free = s.free := rfl
@[simp] theorem setTb_tb (h : TimeSt → TimeSt) : (s.setTb h).tb = h s.tb := rfl
@[simp] theorem setTb_ch (h : TimeSt → TimeSt) : (s.setTb h).ch = s.ch := rfl
@[simp] theorem setTb_grp (h : TimeSt → TimeSt) : (s.setTb h).grp = s.grp := rfl
@[simp] theorem setTb_trg (h : TimeSt → TimeSt) : (s.setTb h).trg = s.trg := rfl
@[simp] theorem setTb_iu (h : TimeSt → TimeSt) : (s.setTb h).iu = s.iu := rfl
@[simp] theorem setTb_xt (h : TimeSt → TimeSt) : (s.setTb h).xt = s.xt := rfl
@[simp] theorem setTb_eng (h : TimeSt → TimeSt) : (s.setTb h).eng = s.eng := rfl
@[simp] theorem setTb_gang (h : TimeSt → TimeSt) : (s.setTb h).gang = s.gang := rfl
@[simp] theorem setTb_sg (h : TimeSt → TimeSt) : (s.setTb h).sg = s.sg := rfl
@[simp] theorem setTb_grid (h : TimeSt → TimeSt) : (s.setTb h).grid = s.grid := rfl
@[simp] theorem setTb_sram (h : TimeSt → TimeSt) : (s.setTb h).sram = s.sram := rfl
@[simp] theorem setTb_sramBad (h : TimeSt → TimeSt) : (s.setTb h).sramBad = s.sramBad := rfl
@[simp] theorem setTb_arr (h : TimeSt → TimeSt) : (s.setTb h).arr = s.arr := rfl
@[simp] theorem setTb_mt (h : TimeSt → TimeSt) : (s.setTb h).mt = s.mt := rfl
@[simp] theorem setTb_resident (h : TimeSt → TimeSt) : (s.setTb h).resident = s.resident := rfl
@[simp] theorem setTb_cocoon (h : TimeSt → TimeSt) : (s.setTb h).cocoon = s.cocoon := rfl
@[simp] theorem setTb_asleep (h : TimeSt → TimeSt) : (s.setTb h).asleep = s.asleep := rfl
@[simp] theorem setTb_evt (h : TimeSt → TimeSt) : (s.setTb h).evt = s.evt := rfl
@[simp] theorem setTb_mem (h : TimeSt → TimeSt) : (s.setTb h).mem = s.mem := rfl
@[simp] theorem setTb_bad (h : TimeSt → TimeSt) : (s.setTb h).bad = s.bad := rfl
@[simp] theorem setTb_dcMap (h : TimeSt → TimeSt) : (s.setTb h).dcMap = s.dcMap := rfl
@[simp] theorem setTb_dc (h : TimeSt → TimeSt) : (s.setTb h).dc = s.dc := rfl
@[simp] theorem setTb_fill (h : TimeSt → TimeSt) : (s.setTb h).fill = s.fill := rfl
@[simp] theorem setTb_winWait (h : TimeSt → TimeSt) : (s.setTb h).winWait = s.winWait := rfl
@[simp] theorem setTb_resp (h : TimeSt → TimeSt) : (s.setTb h).resp = s.resp := rfl
@[simp] theorem setTb_locked (h : TimeSt → TimeSt) : (s.setTb h).locked = s.locked := rfl
@[simp] theorem setTb_mon (h : TimeSt → TimeSt) : (s.setTb h).mon = s.mon := rfl
@[simp] theorem setTb_failed (h : TimeSt → TimeSt) : (s.setTb h).failed = s.failed := rfl
@[simp] theorem setTb_phase (h : TimeSt → TimeSt) : (s.setTb h).phase = s.phase := rfl
@[simp] theorem setTb_loading (h : TimeSt → TimeSt) : (s.setTb h).loading = s.loading := rfl
@[simp] theorem setTb_qm (h : TimeSt → TimeSt) : (s.setTb h).qm = s.qm := rfl
@[simp] theorem setTb_port (h : TimeSt → TimeSt) : (s.setTb h).port = s.port := rfl
@[simp] theorem setTb_sealQ (h : TimeSt → TimeSt) : (s.setTb h).sealQ = s.sealQ := rfl
@[simp] theorem setTb_sealKey (h : TimeSt → TimeSt) : (s.setTb h).sealKey = s.sealKey := rfl
@[simp] theorem setTb_pwr (h : TimeSt → TimeSt) : (s.setTb h).pwr = s.pwr := rfl
@[simp] theorem setTb_cfgi (h : TimeSt → TimeSt) : (s.setTb h).cfgi = s.cfgi := rfl
@[simp] theorem setTb_sc (h : TimeSt → TimeSt) : (s.setTb h).sc = s.sc := rfl
@[simp] theorem setTb_faults (h : TimeSt → TimeSt) : (s.setTb h).faults = s.faults := rfl
@[simp] theorem setTb_pending (h : TimeSt → TimeSt) : (s.setTb h).pending = s.pending := rfl

/-! ### setTrg -/

@[simp] theorem setTrg_regs (h : TrgSt → TrgSt) : (s.setTrg h).regs = s.regs := rfl
@[simp] theorem setTrg_fixed (h : TrgSt → TrgSt) : (s.setTrg h).fixed = s.fixed := rfl
@[simp] theorem setTrg_latch (h : TrgSt → TrgSt) : (s.setTrg h).latch = s.latch := rfl
@[simp] theorem setTrg_owner (h : TrgSt → TrgSt) : (s.setTrg h).owner = s.owner := rfl
@[simp] theorem setTrg_pmap (h : TrgSt → TrgSt) : (s.setTrg h).pmap = s.pmap := rfl
@[simp] theorem setTrg_free (h : TrgSt → TrgSt) : (s.setTrg h).free = s.free := rfl
@[simp] theorem setTrg_tb (h : TrgSt → TrgSt) : (s.setTrg h).tb = s.tb := rfl
@[simp] theorem setTrg_ch (h : TrgSt → TrgSt) : (s.setTrg h).ch = s.ch := rfl
@[simp] theorem setTrg_grp (h : TrgSt → TrgSt) : (s.setTrg h).grp = s.grp := rfl
@[simp] theorem setTrg_trg (h : TrgSt → TrgSt) : (s.setTrg h).trg = h s.trg := rfl
@[simp] theorem setTrg_iu (h : TrgSt → TrgSt) : (s.setTrg h).iu = s.iu := rfl
@[simp] theorem setTrg_xt (h : TrgSt → TrgSt) : (s.setTrg h).xt = s.xt := rfl
@[simp] theorem setTrg_eng (h : TrgSt → TrgSt) : (s.setTrg h).eng = s.eng := rfl
@[simp] theorem setTrg_gang (h : TrgSt → TrgSt) : (s.setTrg h).gang = s.gang := rfl
@[simp] theorem setTrg_sg (h : TrgSt → TrgSt) : (s.setTrg h).sg = s.sg := rfl
@[simp] theorem setTrg_grid (h : TrgSt → TrgSt) : (s.setTrg h).grid = s.grid := rfl
@[simp] theorem setTrg_sram (h : TrgSt → TrgSt) : (s.setTrg h).sram = s.sram := rfl
@[simp] theorem setTrg_sramBad (h : TrgSt → TrgSt) : (s.setTrg h).sramBad = s.sramBad := rfl
@[simp] theorem setTrg_arr (h : TrgSt → TrgSt) : (s.setTrg h).arr = s.arr := rfl
@[simp] theorem setTrg_mt (h : TrgSt → TrgSt) : (s.setTrg h).mt = s.mt := rfl
@[simp] theorem setTrg_resident (h : TrgSt → TrgSt) : (s.setTrg h).resident = s.resident := rfl
@[simp] theorem setTrg_cocoon (h : TrgSt → TrgSt) : (s.setTrg h).cocoon = s.cocoon := rfl
@[simp] theorem setTrg_asleep (h : TrgSt → TrgSt) : (s.setTrg h).asleep = s.asleep := rfl
@[simp] theorem setTrg_evt (h : TrgSt → TrgSt) : (s.setTrg h).evt = s.evt := rfl
@[simp] theorem setTrg_mem (h : TrgSt → TrgSt) : (s.setTrg h).mem = s.mem := rfl
@[simp] theorem setTrg_bad (h : TrgSt → TrgSt) : (s.setTrg h).bad = s.bad := rfl
@[simp] theorem setTrg_dcMap (h : TrgSt → TrgSt) : (s.setTrg h).dcMap = s.dcMap := rfl
@[simp] theorem setTrg_dc (h : TrgSt → TrgSt) : (s.setTrg h).dc = s.dc := rfl
@[simp] theorem setTrg_fill (h : TrgSt → TrgSt) : (s.setTrg h).fill = s.fill := rfl
@[simp] theorem setTrg_winWait (h : TrgSt → TrgSt) : (s.setTrg h).winWait = s.winWait := rfl
@[simp] theorem setTrg_resp (h : TrgSt → TrgSt) : (s.setTrg h).resp = s.resp := rfl
@[simp] theorem setTrg_locked (h : TrgSt → TrgSt) : (s.setTrg h).locked = s.locked := rfl
@[simp] theorem setTrg_mon (h : TrgSt → TrgSt) : (s.setTrg h).mon = s.mon := rfl
@[simp] theorem setTrg_failed (h : TrgSt → TrgSt) : (s.setTrg h).failed = s.failed := rfl
@[simp] theorem setTrg_phase (h : TrgSt → TrgSt) : (s.setTrg h).phase = s.phase := rfl
@[simp] theorem setTrg_loading (h : TrgSt → TrgSt) : (s.setTrg h).loading = s.loading := rfl
@[simp] theorem setTrg_qm (h : TrgSt → TrgSt) : (s.setTrg h).qm = s.qm := rfl
@[simp] theorem setTrg_port (h : TrgSt → TrgSt) : (s.setTrg h).port = s.port := rfl
@[simp] theorem setTrg_sealQ (h : TrgSt → TrgSt) : (s.setTrg h).sealQ = s.sealQ := rfl
@[simp] theorem setTrg_sealKey (h : TrgSt → TrgSt) : (s.setTrg h).sealKey = s.sealKey := rfl
@[simp] theorem setTrg_pwr (h : TrgSt → TrgSt) : (s.setTrg h).pwr = s.pwr := rfl
@[simp] theorem setTrg_cfgi (h : TrgSt → TrgSt) : (s.setTrg h).cfgi = s.cfgi := rfl
@[simp] theorem setTrg_sc (h : TrgSt → TrgSt) : (s.setTrg h).sc = s.sc := rfl
@[simp] theorem setTrg_faults (h : TrgSt → TrgSt) : (s.setTrg h).faults = s.faults := rfl
@[simp] theorem setTrg_pending (h : TrgSt → TrgSt) : (s.setTrg h).pending = s.pending := rfl

/-! ### setSeq -/

@[simp] theorem setSeq_regs (q : Fin 8) (h : SeqSt → SeqSt) : (s.setSeq q h).regs = s.regs := rfl
@[simp] theorem setSeq_fixed (q : Fin 8) (h : SeqSt → SeqSt) : (s.setSeq q h).fixed = s.fixed := rfl
@[simp] theorem setSeq_latch (q : Fin 8) (h : SeqSt → SeqSt) : (s.setSeq q h).latch = s.latch := rfl
@[simp] theorem setSeq_owner (q : Fin 8) (h : SeqSt → SeqSt) : (s.setSeq q h).owner = s.owner := rfl
@[simp] theorem setSeq_pmap (q : Fin 8) (h : SeqSt → SeqSt) : (s.setSeq q h).pmap = s.pmap := rfl
@[simp] theorem setSeq_free (q : Fin 8) (h : SeqSt → SeqSt) : (s.setSeq q h).free = s.free := rfl
@[simp] theorem setSeq_tb (q : Fin 8) (h : SeqSt → SeqSt) : (s.setSeq q h).tb = s.tb := rfl
@[simp] theorem setSeq_ch (q : Fin 8) (h : SeqSt → SeqSt) : (s.setSeq q h).ch = s.ch := rfl
@[simp] theorem setSeq_grp (q : Fin 8) (h : SeqSt → SeqSt) : (s.setSeq q h).grp = s.grp := rfl
@[simp] theorem setSeq_trg (q : Fin 8) (h : SeqSt → SeqSt) : (s.setSeq q h).trg = { s.trg with seq := s.trg.seq.set q (h s.trg.seq[q]) } := rfl
@[simp] theorem setSeq_iu (q : Fin 8) (h : SeqSt → SeqSt) : (s.setSeq q h).iu = s.iu := rfl
@[simp] theorem setSeq_xt (q : Fin 8) (h : SeqSt → SeqSt) : (s.setSeq q h).xt = s.xt := rfl
@[simp] theorem setSeq_eng (q : Fin 8) (h : SeqSt → SeqSt) : (s.setSeq q h).eng = s.eng := rfl
@[simp] theorem setSeq_gang (q : Fin 8) (h : SeqSt → SeqSt) : (s.setSeq q h).gang = s.gang := rfl
@[simp] theorem setSeq_sg (q : Fin 8) (h : SeqSt → SeqSt) : (s.setSeq q h).sg = s.sg := rfl
@[simp] theorem setSeq_grid (q : Fin 8) (h : SeqSt → SeqSt) : (s.setSeq q h).grid = s.grid := rfl
@[simp] theorem setSeq_sram (q : Fin 8) (h : SeqSt → SeqSt) : (s.setSeq q h).sram = s.sram := rfl
@[simp] theorem setSeq_sramBad (q : Fin 8) (h : SeqSt → SeqSt) : (s.setSeq q h).sramBad = s.sramBad := rfl
@[simp] theorem setSeq_arr (q : Fin 8) (h : SeqSt → SeqSt) : (s.setSeq q h).arr = s.arr := rfl
@[simp] theorem setSeq_mt (q : Fin 8) (h : SeqSt → SeqSt) : (s.setSeq q h).mt = s.mt := rfl
@[simp] theorem setSeq_resident (q : Fin 8) (h : SeqSt → SeqSt) : (s.setSeq q h).resident = s.resident := rfl
@[simp] theorem setSeq_cocoon (q : Fin 8) (h : SeqSt → SeqSt) : (s.setSeq q h).cocoon = s.cocoon := rfl
@[simp] theorem setSeq_asleep (q : Fin 8) (h : SeqSt → SeqSt) : (s.setSeq q h).asleep = s.asleep := rfl
@[simp] theorem setSeq_evt (q : Fin 8) (h : SeqSt → SeqSt) : (s.setSeq q h).evt = s.evt := rfl
@[simp] theorem setSeq_mem (q : Fin 8) (h : SeqSt → SeqSt) : (s.setSeq q h).mem = s.mem := rfl
@[simp] theorem setSeq_bad (q : Fin 8) (h : SeqSt → SeqSt) : (s.setSeq q h).bad = s.bad := rfl
@[simp] theorem setSeq_dcMap (q : Fin 8) (h : SeqSt → SeqSt) : (s.setSeq q h).dcMap = s.dcMap := rfl
@[simp] theorem setSeq_dc (q : Fin 8) (h : SeqSt → SeqSt) : (s.setSeq q h).dc = s.dc := rfl
@[simp] theorem setSeq_fill (q : Fin 8) (h : SeqSt → SeqSt) : (s.setSeq q h).fill = s.fill := rfl
@[simp] theorem setSeq_winWait (q : Fin 8) (h : SeqSt → SeqSt) : (s.setSeq q h).winWait = s.winWait := rfl
@[simp] theorem setSeq_resp (q : Fin 8) (h : SeqSt → SeqSt) : (s.setSeq q h).resp = s.resp := rfl
@[simp] theorem setSeq_locked (q : Fin 8) (h : SeqSt → SeqSt) : (s.setSeq q h).locked = s.locked := rfl
@[simp] theorem setSeq_mon (q : Fin 8) (h : SeqSt → SeqSt) : (s.setSeq q h).mon = s.mon := rfl
@[simp] theorem setSeq_failed (q : Fin 8) (h : SeqSt → SeqSt) : (s.setSeq q h).failed = s.failed := rfl
@[simp] theorem setSeq_phase (q : Fin 8) (h : SeqSt → SeqSt) : (s.setSeq q h).phase = s.phase := rfl
@[simp] theorem setSeq_loading (q : Fin 8) (h : SeqSt → SeqSt) : (s.setSeq q h).loading = s.loading := rfl
@[simp] theorem setSeq_qm (q : Fin 8) (h : SeqSt → SeqSt) : (s.setSeq q h).qm = s.qm := rfl
@[simp] theorem setSeq_port (q : Fin 8) (h : SeqSt → SeqSt) : (s.setSeq q h).port = s.port := rfl
@[simp] theorem setSeq_sealQ (q : Fin 8) (h : SeqSt → SeqSt) : (s.setSeq q h).sealQ = s.sealQ := rfl
@[simp] theorem setSeq_sealKey (q : Fin 8) (h : SeqSt → SeqSt) : (s.setSeq q h).sealKey = s.sealKey := rfl
@[simp] theorem setSeq_pwr (q : Fin 8) (h : SeqSt → SeqSt) : (s.setSeq q h).pwr = s.pwr := rfl
@[simp] theorem setSeq_cfgi (q : Fin 8) (h : SeqSt → SeqSt) : (s.setSeq q h).cfgi = s.cfgi := rfl
@[simp] theorem setSeq_sc (q : Fin 8) (h : SeqSt → SeqSt) : (s.setSeq q h).sc = s.sc := rfl
@[simp] theorem setSeq_faults (q : Fin 8) (h : SeqSt → SeqSt) : (s.setSeq q h).faults = s.faults := rfl
@[simp] theorem setSeq_pending (q : Fin 8) (h : SeqSt → SeqSt) : (s.setSeq q h).pending = s.pending := rfl

/-! ### setCt -/

@[simp] theorem setCt_regs (n : Fin 32) (h : CtSt → CtSt) : (s.setCt n h).regs = s.regs := rfl
@[simp] theorem setCt_fixed (n : Fin 32) (h : CtSt → CtSt) : (s.setCt n h).fixed = s.fixed := rfl
@[simp] theorem setCt_latch (n : Fin 32) (h : CtSt → CtSt) : (s.setCt n h).latch = s.latch := rfl
@[simp] theorem setCt_owner (n : Fin 32) (h : CtSt → CtSt) : (s.setCt n h).owner = s.owner := rfl
@[simp] theorem setCt_pmap (n : Fin 32) (h : CtSt → CtSt) : (s.setCt n h).pmap = s.pmap := rfl
@[simp] theorem setCt_free (n : Fin 32) (h : CtSt → CtSt) : (s.setCt n h).free = s.free := rfl
@[simp] theorem setCt_tb (n : Fin 32) (h : CtSt → CtSt) : (s.setCt n h).tb = s.tb := rfl
@[simp] theorem setCt_ch (n : Fin 32) (h : CtSt → CtSt) : (s.setCt n h).ch = s.ch := rfl
@[simp] theorem setCt_grp (n : Fin 32) (h : CtSt → CtSt) : (s.setCt n h).grp = s.grp := rfl
@[simp] theorem setCt_trg (n : Fin 32) (h : CtSt → CtSt) : (s.setCt n h).trg = { s.trg with ct := s.trg.ct.set n (h s.trg.ct[n]) } := rfl
@[simp] theorem setCt_iu (n : Fin 32) (h : CtSt → CtSt) : (s.setCt n h).iu = s.iu := rfl
@[simp] theorem setCt_xt (n : Fin 32) (h : CtSt → CtSt) : (s.setCt n h).xt = s.xt := rfl
@[simp] theorem setCt_eng (n : Fin 32) (h : CtSt → CtSt) : (s.setCt n h).eng = s.eng := rfl
@[simp] theorem setCt_gang (n : Fin 32) (h : CtSt → CtSt) : (s.setCt n h).gang = s.gang := rfl
@[simp] theorem setCt_sg (n : Fin 32) (h : CtSt → CtSt) : (s.setCt n h).sg = s.sg := rfl
@[simp] theorem setCt_grid (n : Fin 32) (h : CtSt → CtSt) : (s.setCt n h).grid = s.grid := rfl
@[simp] theorem setCt_sram (n : Fin 32) (h : CtSt → CtSt) : (s.setCt n h).sram = s.sram := rfl
@[simp] theorem setCt_sramBad (n : Fin 32) (h : CtSt → CtSt) : (s.setCt n h).sramBad = s.sramBad := rfl
@[simp] theorem setCt_arr (n : Fin 32) (h : CtSt → CtSt) : (s.setCt n h).arr = s.arr := rfl
@[simp] theorem setCt_mt (n : Fin 32) (h : CtSt → CtSt) : (s.setCt n h).mt = s.mt := rfl
@[simp] theorem setCt_resident (n : Fin 32) (h : CtSt → CtSt) : (s.setCt n h).resident = s.resident := rfl
@[simp] theorem setCt_cocoon (n : Fin 32) (h : CtSt → CtSt) : (s.setCt n h).cocoon = s.cocoon := rfl
@[simp] theorem setCt_asleep (n : Fin 32) (h : CtSt → CtSt) : (s.setCt n h).asleep = s.asleep := rfl
@[simp] theorem setCt_evt (n : Fin 32) (h : CtSt → CtSt) : (s.setCt n h).evt = s.evt := rfl
@[simp] theorem setCt_mem (n : Fin 32) (h : CtSt → CtSt) : (s.setCt n h).mem = s.mem := rfl
@[simp] theorem setCt_bad (n : Fin 32) (h : CtSt → CtSt) : (s.setCt n h).bad = s.bad := rfl
@[simp] theorem setCt_dcMap (n : Fin 32) (h : CtSt → CtSt) : (s.setCt n h).dcMap = s.dcMap := rfl
@[simp] theorem setCt_dc (n : Fin 32) (h : CtSt → CtSt) : (s.setCt n h).dc = s.dc := rfl
@[simp] theorem setCt_fill (n : Fin 32) (h : CtSt → CtSt) : (s.setCt n h).fill = s.fill := rfl
@[simp] theorem setCt_winWait (n : Fin 32) (h : CtSt → CtSt) : (s.setCt n h).winWait = s.winWait := rfl
@[simp] theorem setCt_resp (n : Fin 32) (h : CtSt → CtSt) : (s.setCt n h).resp = s.resp := rfl
@[simp] theorem setCt_locked (n : Fin 32) (h : CtSt → CtSt) : (s.setCt n h).locked = s.locked := rfl
@[simp] theorem setCt_mon (n : Fin 32) (h : CtSt → CtSt) : (s.setCt n h).mon = s.mon := rfl
@[simp] theorem setCt_failed (n : Fin 32) (h : CtSt → CtSt) : (s.setCt n h).failed = s.failed := rfl
@[simp] theorem setCt_phase (n : Fin 32) (h : CtSt → CtSt) : (s.setCt n h).phase = s.phase := rfl
@[simp] theorem setCt_loading (n : Fin 32) (h : CtSt → CtSt) : (s.setCt n h).loading = s.loading := rfl
@[simp] theorem setCt_qm (n : Fin 32) (h : CtSt → CtSt) : (s.setCt n h).qm = s.qm := rfl
@[simp] theorem setCt_port (n : Fin 32) (h : CtSt → CtSt) : (s.setCt n h).port = s.port := rfl
@[simp] theorem setCt_sealQ (n : Fin 32) (h : CtSt → CtSt) : (s.setCt n h).sealQ = s.sealQ := rfl
@[simp] theorem setCt_sealKey (n : Fin 32) (h : CtSt → CtSt) : (s.setCt n h).sealKey = s.sealKey := rfl
@[simp] theorem setCt_pwr (n : Fin 32) (h : CtSt → CtSt) : (s.setCt n h).pwr = s.pwr := rfl
@[simp] theorem setCt_cfgi (n : Fin 32) (h : CtSt → CtSt) : (s.setCt n h).cfgi = s.cfgi := rfl
@[simp] theorem setCt_sc (n : Fin 32) (h : CtSt → CtSt) : (s.setCt n h).sc = s.sc := rfl
@[simp] theorem setCt_faults (n : Fin 32) (h : CtSt → CtSt) : (s.setCt n h).faults = s.faults := rfl
@[simp] theorem setCt_pending (n : Fin 32) (h : CtSt → CtSt) : (s.setCt n h).pending = s.pending := rfl

/-! ### setPc -/

@[simp] theorem setPc_regs (n : Fin 64) (h : PcSt → PcSt) : (s.setPc n h).regs = s.regs := rfl
@[simp] theorem setPc_fixed (n : Fin 64) (h : PcSt → PcSt) : (s.setPc n h).fixed = s.fixed := rfl
@[simp] theorem setPc_latch (n : Fin 64) (h : PcSt → PcSt) : (s.setPc n h).latch = s.latch := rfl
@[simp] theorem setPc_owner (n : Fin 64) (h : PcSt → PcSt) : (s.setPc n h).owner = s.owner := rfl
@[simp] theorem setPc_pmap (n : Fin 64) (h : PcSt → PcSt) : (s.setPc n h).pmap = s.pmap := rfl
@[simp] theorem setPc_free (n : Fin 64) (h : PcSt → PcSt) : (s.setPc n h).free = s.free := rfl
@[simp] theorem setPc_tb (n : Fin 64) (h : PcSt → PcSt) : (s.setPc n h).tb = s.tb := rfl
@[simp] theorem setPc_ch (n : Fin 64) (h : PcSt → PcSt) : (s.setPc n h).ch = s.ch := rfl
@[simp] theorem setPc_grp (n : Fin 64) (h : PcSt → PcSt) : (s.setPc n h).grp = s.grp := rfl
@[simp] theorem setPc_trg (n : Fin 64) (h : PcSt → PcSt) : (s.setPc n h).trg = { s.trg with pc := s.trg.pc.set n (h s.trg.pc[n]) } := rfl
@[simp] theorem setPc_iu (n : Fin 64) (h : PcSt → PcSt) : (s.setPc n h).iu = s.iu := rfl
@[simp] theorem setPc_xt (n : Fin 64) (h : PcSt → PcSt) : (s.setPc n h).xt = s.xt := rfl
@[simp] theorem setPc_eng (n : Fin 64) (h : PcSt → PcSt) : (s.setPc n h).eng = s.eng := rfl
@[simp] theorem setPc_gang (n : Fin 64) (h : PcSt → PcSt) : (s.setPc n h).gang = s.gang := rfl
@[simp] theorem setPc_sg (n : Fin 64) (h : PcSt → PcSt) : (s.setPc n h).sg = s.sg := rfl
@[simp] theorem setPc_grid (n : Fin 64) (h : PcSt → PcSt) : (s.setPc n h).grid = s.grid := rfl
@[simp] theorem setPc_sram (n : Fin 64) (h : PcSt → PcSt) : (s.setPc n h).sram = s.sram := rfl
@[simp] theorem setPc_sramBad (n : Fin 64) (h : PcSt → PcSt) : (s.setPc n h).sramBad = s.sramBad := rfl
@[simp] theorem setPc_arr (n : Fin 64) (h : PcSt → PcSt) : (s.setPc n h).arr = s.arr := rfl
@[simp] theorem setPc_mt (n : Fin 64) (h : PcSt → PcSt) : (s.setPc n h).mt = s.mt := rfl
@[simp] theorem setPc_resident (n : Fin 64) (h : PcSt → PcSt) : (s.setPc n h).resident = s.resident := rfl
@[simp] theorem setPc_cocoon (n : Fin 64) (h : PcSt → PcSt) : (s.setPc n h).cocoon = s.cocoon := rfl
@[simp] theorem setPc_asleep (n : Fin 64) (h : PcSt → PcSt) : (s.setPc n h).asleep = s.asleep := rfl
@[simp] theorem setPc_evt (n : Fin 64) (h : PcSt → PcSt) : (s.setPc n h).evt = s.evt := rfl
@[simp] theorem setPc_mem (n : Fin 64) (h : PcSt → PcSt) : (s.setPc n h).mem = s.mem := rfl
@[simp] theorem setPc_bad (n : Fin 64) (h : PcSt → PcSt) : (s.setPc n h).bad = s.bad := rfl
@[simp] theorem setPc_dcMap (n : Fin 64) (h : PcSt → PcSt) : (s.setPc n h).dcMap = s.dcMap := rfl
@[simp] theorem setPc_dc (n : Fin 64) (h : PcSt → PcSt) : (s.setPc n h).dc = s.dc := rfl
@[simp] theorem setPc_fill (n : Fin 64) (h : PcSt → PcSt) : (s.setPc n h).fill = s.fill := rfl
@[simp] theorem setPc_winWait (n : Fin 64) (h : PcSt → PcSt) : (s.setPc n h).winWait = s.winWait := rfl
@[simp] theorem setPc_resp (n : Fin 64) (h : PcSt → PcSt) : (s.setPc n h).resp = s.resp := rfl
@[simp] theorem setPc_locked (n : Fin 64) (h : PcSt → PcSt) : (s.setPc n h).locked = s.locked := rfl
@[simp] theorem setPc_mon (n : Fin 64) (h : PcSt → PcSt) : (s.setPc n h).mon = s.mon := rfl
@[simp] theorem setPc_failed (n : Fin 64) (h : PcSt → PcSt) : (s.setPc n h).failed = s.failed := rfl
@[simp] theorem setPc_phase (n : Fin 64) (h : PcSt → PcSt) : (s.setPc n h).phase = s.phase := rfl
@[simp] theorem setPc_loading (n : Fin 64) (h : PcSt → PcSt) : (s.setPc n h).loading = s.loading := rfl
@[simp] theorem setPc_qm (n : Fin 64) (h : PcSt → PcSt) : (s.setPc n h).qm = s.qm := rfl
@[simp] theorem setPc_port (n : Fin 64) (h : PcSt → PcSt) : (s.setPc n h).port = s.port := rfl
@[simp] theorem setPc_sealQ (n : Fin 64) (h : PcSt → PcSt) : (s.setPc n h).sealQ = s.sealQ := rfl
@[simp] theorem setPc_sealKey (n : Fin 64) (h : PcSt → PcSt) : (s.setPc n h).sealKey = s.sealKey := rfl
@[simp] theorem setPc_pwr (n : Fin 64) (h : PcSt → PcSt) : (s.setPc n h).pwr = s.pwr := rfl
@[simp] theorem setPc_cfgi (n : Fin 64) (h : PcSt → PcSt) : (s.setPc n h).cfgi = s.cfgi := rfl
@[simp] theorem setPc_sc (n : Fin 64) (h : PcSt → PcSt) : (s.setPc n h).sc = s.sc := rfl
@[simp] theorem setPc_faults (n : Fin 64) (h : PcSt → PcSt) : (s.setPc n h).faults = s.faults := rfl
@[simp] theorem setPc_pending (n : Fin 64) (h : PcSt → PcSt) : (s.setPc n h).pending = s.pending := rfl

/-! ### setIq -/

@[simp] theorem setIq_regs (n : Fin 32) (h : IqSt → IqSt) : (s.setIq n h).regs = s.regs := rfl
@[simp] theorem setIq_fixed (n : Fin 32) (h : IqSt → IqSt) : (s.setIq n h).fixed = s.fixed := rfl
@[simp] theorem setIq_latch (n : Fin 32) (h : IqSt → IqSt) : (s.setIq n h).latch = s.latch := rfl
@[simp] theorem setIq_owner (n : Fin 32) (h : IqSt → IqSt) : (s.setIq n h).owner = s.owner := rfl
@[simp] theorem setIq_pmap (n : Fin 32) (h : IqSt → IqSt) : (s.setIq n h).pmap = s.pmap := rfl
@[simp] theorem setIq_free (n : Fin 32) (h : IqSt → IqSt) : (s.setIq n h).free = s.free := rfl
@[simp] theorem setIq_tb (n : Fin 32) (h : IqSt → IqSt) : (s.setIq n h).tb = s.tb := rfl
@[simp] theorem setIq_ch (n : Fin 32) (h : IqSt → IqSt) : (s.setIq n h).ch = s.ch := rfl
@[simp] theorem setIq_grp (n : Fin 32) (h : IqSt → IqSt) : (s.setIq n h).grp = s.grp := rfl
@[simp] theorem setIq_trg (n : Fin 32) (h : IqSt → IqSt) : (s.setIq n h).trg = { s.trg with iq := s.trg.iq.set n (h s.trg.iq[n]) } := rfl
@[simp] theorem setIq_iu (n : Fin 32) (h : IqSt → IqSt) : (s.setIq n h).iu = s.iu := rfl
@[simp] theorem setIq_xt (n : Fin 32) (h : IqSt → IqSt) : (s.setIq n h).xt = s.xt := rfl
@[simp] theorem setIq_eng (n : Fin 32) (h : IqSt → IqSt) : (s.setIq n h).eng = s.eng := rfl
@[simp] theorem setIq_gang (n : Fin 32) (h : IqSt → IqSt) : (s.setIq n h).gang = s.gang := rfl
@[simp] theorem setIq_sg (n : Fin 32) (h : IqSt → IqSt) : (s.setIq n h).sg = s.sg := rfl
@[simp] theorem setIq_grid (n : Fin 32) (h : IqSt → IqSt) : (s.setIq n h).grid = s.grid := rfl
@[simp] theorem setIq_sram (n : Fin 32) (h : IqSt → IqSt) : (s.setIq n h).sram = s.sram := rfl
@[simp] theorem setIq_sramBad (n : Fin 32) (h : IqSt → IqSt) : (s.setIq n h).sramBad = s.sramBad := rfl
@[simp] theorem setIq_arr (n : Fin 32) (h : IqSt → IqSt) : (s.setIq n h).arr = s.arr := rfl
@[simp] theorem setIq_mt (n : Fin 32) (h : IqSt → IqSt) : (s.setIq n h).mt = s.mt := rfl
@[simp] theorem setIq_resident (n : Fin 32) (h : IqSt → IqSt) : (s.setIq n h).resident = s.resident := rfl
@[simp] theorem setIq_cocoon (n : Fin 32) (h : IqSt → IqSt) : (s.setIq n h).cocoon = s.cocoon := rfl
@[simp] theorem setIq_asleep (n : Fin 32) (h : IqSt → IqSt) : (s.setIq n h).asleep = s.asleep := rfl
@[simp] theorem setIq_evt (n : Fin 32) (h : IqSt → IqSt) : (s.setIq n h).evt = s.evt := rfl
@[simp] theorem setIq_mem (n : Fin 32) (h : IqSt → IqSt) : (s.setIq n h).mem = s.mem := rfl
@[simp] theorem setIq_bad (n : Fin 32) (h : IqSt → IqSt) : (s.setIq n h).bad = s.bad := rfl
@[simp] theorem setIq_dcMap (n : Fin 32) (h : IqSt → IqSt) : (s.setIq n h).dcMap = s.dcMap := rfl
@[simp] theorem setIq_dc (n : Fin 32) (h : IqSt → IqSt) : (s.setIq n h).dc = s.dc := rfl
@[simp] theorem setIq_fill (n : Fin 32) (h : IqSt → IqSt) : (s.setIq n h).fill = s.fill := rfl
@[simp] theorem setIq_winWait (n : Fin 32) (h : IqSt → IqSt) : (s.setIq n h).winWait = s.winWait := rfl
@[simp] theorem setIq_resp (n : Fin 32) (h : IqSt → IqSt) : (s.setIq n h).resp = s.resp := rfl
@[simp] theorem setIq_locked (n : Fin 32) (h : IqSt → IqSt) : (s.setIq n h).locked = s.locked := rfl
@[simp] theorem setIq_mon (n : Fin 32) (h : IqSt → IqSt) : (s.setIq n h).mon = s.mon := rfl
@[simp] theorem setIq_failed (n : Fin 32) (h : IqSt → IqSt) : (s.setIq n h).failed = s.failed := rfl
@[simp] theorem setIq_phase (n : Fin 32) (h : IqSt → IqSt) : (s.setIq n h).phase = s.phase := rfl
@[simp] theorem setIq_loading (n : Fin 32) (h : IqSt → IqSt) : (s.setIq n h).loading = s.loading := rfl
@[simp] theorem setIq_qm (n : Fin 32) (h : IqSt → IqSt) : (s.setIq n h).qm = s.qm := rfl
@[simp] theorem setIq_port (n : Fin 32) (h : IqSt → IqSt) : (s.setIq n h).port = s.port := rfl
@[simp] theorem setIq_sealQ (n : Fin 32) (h : IqSt → IqSt) : (s.setIq n h).sealQ = s.sealQ := rfl
@[simp] theorem setIq_sealKey (n : Fin 32) (h : IqSt → IqSt) : (s.setIq n h).sealKey = s.sealKey := rfl
@[simp] theorem setIq_pwr (n : Fin 32) (h : IqSt → IqSt) : (s.setIq n h).pwr = s.pwr := rfl
@[simp] theorem setIq_cfgi (n : Fin 32) (h : IqSt → IqSt) : (s.setIq n h).cfgi = s.cfgi := rfl
@[simp] theorem setIq_sc (n : Fin 32) (h : IqSt → IqSt) : (s.setIq n h).sc = s.sc := rfl
@[simp] theorem setIq_faults (n : Fin 32) (h : IqSt → IqSt) : (s.setIq n h).faults = s.faults := rfl
@[simp] theorem setIq_pending (n : Fin 32) (h : IqSt → IqSt) : (s.setIq n h).pending = s.pending := rfl

/-! ### setEvt -/

@[simp] theorem setEvt_regs (p : Fin 4) (h : EvStore → EvStore) : (s.setEvt p h).regs = s.regs := rfl
@[simp] theorem setEvt_fixed (p : Fin 4) (h : EvStore → EvStore) : (s.setEvt p h).fixed = s.fixed := rfl
@[simp] theorem setEvt_latch (p : Fin 4) (h : EvStore → EvStore) : (s.setEvt p h).latch = s.latch := rfl
@[simp] theorem setEvt_owner (p : Fin 4) (h : EvStore → EvStore) : (s.setEvt p h).owner = s.owner := rfl
@[simp] theorem setEvt_pmap (p : Fin 4) (h : EvStore → EvStore) : (s.setEvt p h).pmap = s.pmap := rfl
@[simp] theorem setEvt_free (p : Fin 4) (h : EvStore → EvStore) : (s.setEvt p h).free = s.free := rfl
@[simp] theorem setEvt_tb (p : Fin 4) (h : EvStore → EvStore) : (s.setEvt p h).tb = s.tb := rfl
@[simp] theorem setEvt_ch (p : Fin 4) (h : EvStore → EvStore) : (s.setEvt p h).ch = s.ch := rfl
@[simp] theorem setEvt_grp (p : Fin 4) (h : EvStore → EvStore) : (s.setEvt p h).grp = s.grp := rfl
@[simp] theorem setEvt_trg (p : Fin 4) (h : EvStore → EvStore) : (s.setEvt p h).trg = s.trg := rfl
@[simp] theorem setEvt_iu (p : Fin 4) (h : EvStore → EvStore) : (s.setEvt p h).iu = s.iu := rfl
@[simp] theorem setEvt_xt (p : Fin 4) (h : EvStore → EvStore) : (s.setEvt p h).xt = s.xt := rfl
@[simp] theorem setEvt_eng (p : Fin 4) (h : EvStore → EvStore) : (s.setEvt p h).eng = s.eng := rfl
@[simp] theorem setEvt_gang (p : Fin 4) (h : EvStore → EvStore) : (s.setEvt p h).gang = s.gang := rfl
@[simp] theorem setEvt_sg (p : Fin 4) (h : EvStore → EvStore) : (s.setEvt p h).sg = s.sg := rfl
@[simp] theorem setEvt_grid (p : Fin 4) (h : EvStore → EvStore) : (s.setEvt p h).grid = s.grid := rfl
@[simp] theorem setEvt_sram (p : Fin 4) (h : EvStore → EvStore) : (s.setEvt p h).sram = s.sram := rfl
@[simp] theorem setEvt_sramBad (p : Fin 4) (h : EvStore → EvStore) : (s.setEvt p h).sramBad = s.sramBad := rfl
@[simp] theorem setEvt_arr (p : Fin 4) (h : EvStore → EvStore) : (s.setEvt p h).arr = s.arr := rfl
@[simp] theorem setEvt_mt (p : Fin 4) (h : EvStore → EvStore) : (s.setEvt p h).mt = s.mt := rfl
@[simp] theorem setEvt_resident (p : Fin 4) (h : EvStore → EvStore) : (s.setEvt p h).resident = s.resident := rfl
@[simp] theorem setEvt_cocoon (p : Fin 4) (h : EvStore → EvStore) : (s.setEvt p h).cocoon = s.cocoon := rfl
@[simp] theorem setEvt_asleep (p : Fin 4) (h : EvStore → EvStore) : (s.setEvt p h).asleep = s.asleep := rfl
@[simp] theorem setEvt_evt (p : Fin 4) (h : EvStore → EvStore) : (s.setEvt p h).evt = s.evt.set p (h s.evt[p]) := rfl
@[simp] theorem setEvt_mem (p : Fin 4) (h : EvStore → EvStore) : (s.setEvt p h).mem = s.mem := rfl
@[simp] theorem setEvt_bad (p : Fin 4) (h : EvStore → EvStore) : (s.setEvt p h).bad = s.bad := rfl
@[simp] theorem setEvt_dcMap (p : Fin 4) (h : EvStore → EvStore) : (s.setEvt p h).dcMap = s.dcMap := rfl
@[simp] theorem setEvt_dc (p : Fin 4) (h : EvStore → EvStore) : (s.setEvt p h).dc = s.dc := rfl
@[simp] theorem setEvt_fill (p : Fin 4) (h : EvStore → EvStore) : (s.setEvt p h).fill = s.fill := rfl
@[simp] theorem setEvt_winWait (p : Fin 4) (h : EvStore → EvStore) : (s.setEvt p h).winWait = s.winWait := rfl
@[simp] theorem setEvt_resp (p : Fin 4) (h : EvStore → EvStore) : (s.setEvt p h).resp = s.resp := rfl
@[simp] theorem setEvt_locked (p : Fin 4) (h : EvStore → EvStore) : (s.setEvt p h).locked = s.locked := rfl
@[simp] theorem setEvt_mon (p : Fin 4) (h : EvStore → EvStore) : (s.setEvt p h).mon = s.mon := rfl
@[simp] theorem setEvt_failed (p : Fin 4) (h : EvStore → EvStore) : (s.setEvt p h).failed = s.failed := rfl
@[simp] theorem setEvt_phase (p : Fin 4) (h : EvStore → EvStore) : (s.setEvt p h).phase = s.phase := rfl
@[simp] theorem setEvt_loading (p : Fin 4) (h : EvStore → EvStore) : (s.setEvt p h).loading = s.loading := rfl
@[simp] theorem setEvt_qm (p : Fin 4) (h : EvStore → EvStore) : (s.setEvt p h).qm = s.qm := rfl
@[simp] theorem setEvt_port (p : Fin 4) (h : EvStore → EvStore) : (s.setEvt p h).port = s.port := rfl
@[simp] theorem setEvt_sealQ (p : Fin 4) (h : EvStore → EvStore) : (s.setEvt p h).sealQ = s.sealQ := rfl
@[simp] theorem setEvt_sealKey (p : Fin 4) (h : EvStore → EvStore) : (s.setEvt p h).sealKey = s.sealKey := rfl
@[simp] theorem setEvt_pwr (p : Fin 4) (h : EvStore → EvStore) : (s.setEvt p h).pwr = s.pwr := rfl
@[simp] theorem setEvt_cfgi (p : Fin 4) (h : EvStore → EvStore) : (s.setEvt p h).cfgi = s.cfgi := rfl
@[simp] theorem setEvt_sc (p : Fin 4) (h : EvStore → EvStore) : (s.setEvt p h).sc = s.sc := rfl
@[simp] theorem setEvt_faults (p : Fin 4) (h : EvStore → EvStore) : (s.setEvt p h).faults = s.faults := rfl
@[simp] theorem setEvt_pending (p : Fin 4) (h : EvStore → EvStore) : (s.setEvt p h).pending = s.pending := rfl

/-! ### setIu -/

@[simp] theorem setIu_regs (u : Fin 16) (h : IuSt → IuSt) : (s.setIu u h).regs = s.regs := rfl
@[simp] theorem setIu_fixed (u : Fin 16) (h : IuSt → IuSt) : (s.setIu u h).fixed = s.fixed := rfl
@[simp] theorem setIu_latch (u : Fin 16) (h : IuSt → IuSt) : (s.setIu u h).latch = s.latch := rfl
@[simp] theorem setIu_owner (u : Fin 16) (h : IuSt → IuSt) : (s.setIu u h).owner = s.owner := rfl
@[simp] theorem setIu_pmap (u : Fin 16) (h : IuSt → IuSt) : (s.setIu u h).pmap = s.pmap := rfl
@[simp] theorem setIu_free (u : Fin 16) (h : IuSt → IuSt) : (s.setIu u h).free = s.free := rfl
@[simp] theorem setIu_tb (u : Fin 16) (h : IuSt → IuSt) : (s.setIu u h).tb = s.tb := rfl
@[simp] theorem setIu_ch (u : Fin 16) (h : IuSt → IuSt) : (s.setIu u h).ch = s.ch := rfl
@[simp] theorem setIu_grp (u : Fin 16) (h : IuSt → IuSt) : (s.setIu u h).grp = s.grp := rfl
@[simp] theorem setIu_trg (u : Fin 16) (h : IuSt → IuSt) : (s.setIu u h).trg = s.trg := rfl
@[simp] theorem setIu_iu (u : Fin 16) (h : IuSt → IuSt) : (s.setIu u h).iu = s.iu.set u (h s.iu[u]) := rfl
@[simp] theorem setIu_xt (u : Fin 16) (h : IuSt → IuSt) : (s.setIu u h).xt = s.xt := rfl
@[simp] theorem setIu_eng (u : Fin 16) (h : IuSt → IuSt) : (s.setIu u h).eng = s.eng := rfl
@[simp] theorem setIu_gang (u : Fin 16) (h : IuSt → IuSt) : (s.setIu u h).gang = s.gang := rfl
@[simp] theorem setIu_sg (u : Fin 16) (h : IuSt → IuSt) : (s.setIu u h).sg = s.sg := rfl
@[simp] theorem setIu_grid (u : Fin 16) (h : IuSt → IuSt) : (s.setIu u h).grid = s.grid := rfl
@[simp] theorem setIu_sram (u : Fin 16) (h : IuSt → IuSt) : (s.setIu u h).sram = s.sram := rfl
@[simp] theorem setIu_sramBad (u : Fin 16) (h : IuSt → IuSt) : (s.setIu u h).sramBad = s.sramBad := rfl
@[simp] theorem setIu_arr (u : Fin 16) (h : IuSt → IuSt) : (s.setIu u h).arr = s.arr := rfl
@[simp] theorem setIu_mt (u : Fin 16) (h : IuSt → IuSt) : (s.setIu u h).mt = s.mt := rfl
@[simp] theorem setIu_resident (u : Fin 16) (h : IuSt → IuSt) : (s.setIu u h).resident = s.resident := rfl
@[simp] theorem setIu_cocoon (u : Fin 16) (h : IuSt → IuSt) : (s.setIu u h).cocoon = s.cocoon := rfl
@[simp] theorem setIu_asleep (u : Fin 16) (h : IuSt → IuSt) : (s.setIu u h).asleep = s.asleep := rfl
@[simp] theorem setIu_evt (u : Fin 16) (h : IuSt → IuSt) : (s.setIu u h).evt = s.evt := rfl
@[simp] theorem setIu_mem (u : Fin 16) (h : IuSt → IuSt) : (s.setIu u h).mem = s.mem := rfl
@[simp] theorem setIu_bad (u : Fin 16) (h : IuSt → IuSt) : (s.setIu u h).bad = s.bad := rfl
@[simp] theorem setIu_dcMap (u : Fin 16) (h : IuSt → IuSt) : (s.setIu u h).dcMap = s.dcMap := rfl
@[simp] theorem setIu_dc (u : Fin 16) (h : IuSt → IuSt) : (s.setIu u h).dc = s.dc := rfl
@[simp] theorem setIu_fill (u : Fin 16) (h : IuSt → IuSt) : (s.setIu u h).fill = s.fill := rfl
@[simp] theorem setIu_winWait (u : Fin 16) (h : IuSt → IuSt) : (s.setIu u h).winWait = s.winWait := rfl
@[simp] theorem setIu_resp (u : Fin 16) (h : IuSt → IuSt) : (s.setIu u h).resp = s.resp := rfl
@[simp] theorem setIu_locked (u : Fin 16) (h : IuSt → IuSt) : (s.setIu u h).locked = s.locked := rfl
@[simp] theorem setIu_mon (u : Fin 16) (h : IuSt → IuSt) : (s.setIu u h).mon = s.mon := rfl
@[simp] theorem setIu_failed (u : Fin 16) (h : IuSt → IuSt) : (s.setIu u h).failed = s.failed := rfl
@[simp] theorem setIu_phase (u : Fin 16) (h : IuSt → IuSt) : (s.setIu u h).phase = s.phase := rfl
@[simp] theorem setIu_loading (u : Fin 16) (h : IuSt → IuSt) : (s.setIu u h).loading = s.loading := rfl
@[simp] theorem setIu_qm (u : Fin 16) (h : IuSt → IuSt) : (s.setIu u h).qm = s.qm := rfl
@[simp] theorem setIu_port (u : Fin 16) (h : IuSt → IuSt) : (s.setIu u h).port = s.port := rfl
@[simp] theorem setIu_sealQ (u : Fin 16) (h : IuSt → IuSt) : (s.setIu u h).sealQ = s.sealQ := rfl
@[simp] theorem setIu_sealKey (u : Fin 16) (h : IuSt → IuSt) : (s.setIu u h).sealKey = s.sealKey := rfl
@[simp] theorem setIu_pwr (u : Fin 16) (h : IuSt → IuSt) : (s.setIu u h).pwr = s.pwr := rfl
@[simp] theorem setIu_cfgi (u : Fin 16) (h : IuSt → IuSt) : (s.setIu u h).cfgi = s.cfgi := rfl
@[simp] theorem setIu_sc (u : Fin 16) (h : IuSt → IuSt) : (s.setIu u h).sc = s.sc := rfl
@[simp] theorem setIu_faults (u : Fin 16) (h : IuSt → IuSt) : (s.setIu u h).faults = s.faults := rfl
@[simp] theorem setIu_pending (u : Fin 16) (h : IuSt → IuSt) : (s.setIu u h).pending = s.pending := rfl

/-! ### setXt -/

@[simp] theorem setXt_regs (x : Fin 128) (h : XtSt → XtSt) : (s.setXt x h).regs = s.regs := rfl
@[simp] theorem setXt_fixed (x : Fin 128) (h : XtSt → XtSt) : (s.setXt x h).fixed = s.fixed := rfl
@[simp] theorem setXt_latch (x : Fin 128) (h : XtSt → XtSt) : (s.setXt x h).latch = s.latch := rfl
@[simp] theorem setXt_owner (x : Fin 128) (h : XtSt → XtSt) : (s.setXt x h).owner = s.owner := rfl
@[simp] theorem setXt_pmap (x : Fin 128) (h : XtSt → XtSt) : (s.setXt x h).pmap = s.pmap := rfl
@[simp] theorem setXt_free (x : Fin 128) (h : XtSt → XtSt) : (s.setXt x h).free = s.free := rfl
@[simp] theorem setXt_tb (x : Fin 128) (h : XtSt → XtSt) : (s.setXt x h).tb = s.tb := rfl
@[simp] theorem setXt_ch (x : Fin 128) (h : XtSt → XtSt) : (s.setXt x h).ch = s.ch := rfl
@[simp] theorem setXt_grp (x : Fin 128) (h : XtSt → XtSt) : (s.setXt x h).grp = s.grp := rfl
@[simp] theorem setXt_trg (x : Fin 128) (h : XtSt → XtSt) : (s.setXt x h).trg = s.trg := rfl
@[simp] theorem setXt_iu (x : Fin 128) (h : XtSt → XtSt) : (s.setXt x h).iu = s.iu := rfl
@[simp] theorem setXt_xt (x : Fin 128) (h : XtSt → XtSt) : (s.setXt x h).xt = s.xt.set x (h s.xt[x]) := rfl
@[simp] theorem setXt_eng (x : Fin 128) (h : XtSt → XtSt) : (s.setXt x h).eng = s.eng := rfl
@[simp] theorem setXt_gang (x : Fin 128) (h : XtSt → XtSt) : (s.setXt x h).gang = s.gang := rfl
@[simp] theorem setXt_sg (x : Fin 128) (h : XtSt → XtSt) : (s.setXt x h).sg = s.sg := rfl
@[simp] theorem setXt_grid (x : Fin 128) (h : XtSt → XtSt) : (s.setXt x h).grid = s.grid := rfl
@[simp] theorem setXt_sram (x : Fin 128) (h : XtSt → XtSt) : (s.setXt x h).sram = s.sram := rfl
@[simp] theorem setXt_sramBad (x : Fin 128) (h : XtSt → XtSt) : (s.setXt x h).sramBad = s.sramBad := rfl
@[simp] theorem setXt_arr (x : Fin 128) (h : XtSt → XtSt) : (s.setXt x h).arr = s.arr := rfl
@[simp] theorem setXt_mt (x : Fin 128) (h : XtSt → XtSt) : (s.setXt x h).mt = s.mt := rfl
@[simp] theorem setXt_resident (x : Fin 128) (h : XtSt → XtSt) : (s.setXt x h).resident = s.resident := rfl
@[simp] theorem setXt_cocoon (x : Fin 128) (h : XtSt → XtSt) : (s.setXt x h).cocoon = s.cocoon := rfl
@[simp] theorem setXt_asleep (x : Fin 128) (h : XtSt → XtSt) : (s.setXt x h).asleep = s.asleep := rfl
@[simp] theorem setXt_evt (x : Fin 128) (h : XtSt → XtSt) : (s.setXt x h).evt = s.evt := rfl
@[simp] theorem setXt_mem (x : Fin 128) (h : XtSt → XtSt) : (s.setXt x h).mem = s.mem := rfl
@[simp] theorem setXt_bad (x : Fin 128) (h : XtSt → XtSt) : (s.setXt x h).bad = s.bad := rfl
@[simp] theorem setXt_dcMap (x : Fin 128) (h : XtSt → XtSt) : (s.setXt x h).dcMap = s.dcMap := rfl
@[simp] theorem setXt_dc (x : Fin 128) (h : XtSt → XtSt) : (s.setXt x h).dc = s.dc := rfl
@[simp] theorem setXt_fill (x : Fin 128) (h : XtSt → XtSt) : (s.setXt x h).fill = s.fill := rfl
@[simp] theorem setXt_winWait (x : Fin 128) (h : XtSt → XtSt) : (s.setXt x h).winWait = s.winWait := rfl
@[simp] theorem setXt_resp (x : Fin 128) (h : XtSt → XtSt) : (s.setXt x h).resp = s.resp := rfl
@[simp] theorem setXt_locked (x : Fin 128) (h : XtSt → XtSt) : (s.setXt x h).locked = s.locked := rfl
@[simp] theorem setXt_mon (x : Fin 128) (h : XtSt → XtSt) : (s.setXt x h).mon = s.mon := rfl
@[simp] theorem setXt_failed (x : Fin 128) (h : XtSt → XtSt) : (s.setXt x h).failed = s.failed := rfl
@[simp] theorem setXt_phase (x : Fin 128) (h : XtSt → XtSt) : (s.setXt x h).phase = s.phase := rfl
@[simp] theorem setXt_loading (x : Fin 128) (h : XtSt → XtSt) : (s.setXt x h).loading = s.loading := rfl
@[simp] theorem setXt_qm (x : Fin 128) (h : XtSt → XtSt) : (s.setXt x h).qm = s.qm := rfl
@[simp] theorem setXt_port (x : Fin 128) (h : XtSt → XtSt) : (s.setXt x h).port = s.port := rfl
@[simp] theorem setXt_sealQ (x : Fin 128) (h : XtSt → XtSt) : (s.setXt x h).sealQ = s.sealQ := rfl
@[simp] theorem setXt_sealKey (x : Fin 128) (h : XtSt → XtSt) : (s.setXt x h).sealKey = s.sealKey := rfl
@[simp] theorem setXt_pwr (x : Fin 128) (h : XtSt → XtSt) : (s.setXt x h).pwr = s.pwr := rfl
@[simp] theorem setXt_cfgi (x : Fin 128) (h : XtSt → XtSt) : (s.setXt x h).cfgi = s.cfgi := rfl
@[simp] theorem setXt_sc (x : Fin 128) (h : XtSt → XtSt) : (s.setXt x h).sc = s.sc := rfl
@[simp] theorem setXt_faults (x : Fin 128) (h : XtSt → XtSt) : (s.setXt x h).faults = s.faults := rfl
@[simp] theorem setXt_pending (x : Fin 128) (h : XtSt → XtSt) : (s.setXt x h).pending = s.pending := rfl

/-! ### setEng -/

@[simp] theorem setEng_regs (e : Fin 256) (h : EngSt → EngSt) : (s.setEng e h).regs = s.regs := rfl
@[simp] theorem setEng_fixed (e : Fin 256) (h : EngSt → EngSt) : (s.setEng e h).fixed = s.fixed := rfl
@[simp] theorem setEng_latch (e : Fin 256) (h : EngSt → EngSt) : (s.setEng e h).latch = s.latch := rfl
@[simp] theorem setEng_owner (e : Fin 256) (h : EngSt → EngSt) : (s.setEng e h).owner = s.owner := rfl
@[simp] theorem setEng_pmap (e : Fin 256) (h : EngSt → EngSt) : (s.setEng e h).pmap = s.pmap := rfl
@[simp] theorem setEng_free (e : Fin 256) (h : EngSt → EngSt) : (s.setEng e h).free = s.free := rfl
@[simp] theorem setEng_tb (e : Fin 256) (h : EngSt → EngSt) : (s.setEng e h).tb = s.tb := rfl
@[simp] theorem setEng_ch (e : Fin 256) (h : EngSt → EngSt) : (s.setEng e h).ch = s.ch := rfl
@[simp] theorem setEng_grp (e : Fin 256) (h : EngSt → EngSt) : (s.setEng e h).grp = s.grp := rfl
@[simp] theorem setEng_trg (e : Fin 256) (h : EngSt → EngSt) : (s.setEng e h).trg = s.trg := rfl
@[simp] theorem setEng_iu (e : Fin 256) (h : EngSt → EngSt) : (s.setEng e h).iu = s.iu := rfl
@[simp] theorem setEng_xt (e : Fin 256) (h : EngSt → EngSt) : (s.setEng e h).xt = s.xt := rfl
@[simp] theorem setEng_eng (e : Fin 256) (h : EngSt → EngSt) : (s.setEng e h).eng = s.eng.set e (h s.eng[e]) := rfl
@[simp] theorem setEng_gang (e : Fin 256) (h : EngSt → EngSt) : (s.setEng e h).gang = s.gang := rfl
@[simp] theorem setEng_sg (e : Fin 256) (h : EngSt → EngSt) : (s.setEng e h).sg = s.sg := rfl
@[simp] theorem setEng_grid (e : Fin 256) (h : EngSt → EngSt) : (s.setEng e h).grid = s.grid := rfl
@[simp] theorem setEng_sram (e : Fin 256) (h : EngSt → EngSt) : (s.setEng e h).sram = s.sram := rfl
@[simp] theorem setEng_sramBad (e : Fin 256) (h : EngSt → EngSt) : (s.setEng e h).sramBad = s.sramBad := rfl
@[simp] theorem setEng_arr (e : Fin 256) (h : EngSt → EngSt) : (s.setEng e h).arr = s.arr := rfl
@[simp] theorem setEng_mt (e : Fin 256) (h : EngSt → EngSt) : (s.setEng e h).mt = s.mt := rfl
@[simp] theorem setEng_resident (e : Fin 256) (h : EngSt → EngSt) : (s.setEng e h).resident = s.resident := rfl
@[simp] theorem setEng_cocoon (e : Fin 256) (h : EngSt → EngSt) : (s.setEng e h).cocoon = s.cocoon := rfl
@[simp] theorem setEng_asleep (e : Fin 256) (h : EngSt → EngSt) : (s.setEng e h).asleep = s.asleep := rfl
@[simp] theorem setEng_evt (e : Fin 256) (h : EngSt → EngSt) : (s.setEng e h).evt = s.evt := rfl
@[simp] theorem setEng_mem (e : Fin 256) (h : EngSt → EngSt) : (s.setEng e h).mem = s.mem := rfl
@[simp] theorem setEng_bad (e : Fin 256) (h : EngSt → EngSt) : (s.setEng e h).bad = s.bad := rfl
@[simp] theorem setEng_dcMap (e : Fin 256) (h : EngSt → EngSt) : (s.setEng e h).dcMap = s.dcMap := rfl
@[simp] theorem setEng_dc (e : Fin 256) (h : EngSt → EngSt) : (s.setEng e h).dc = s.dc := rfl
@[simp] theorem setEng_fill (e : Fin 256) (h : EngSt → EngSt) : (s.setEng e h).fill = s.fill := rfl
@[simp] theorem setEng_winWait (e : Fin 256) (h : EngSt → EngSt) : (s.setEng e h).winWait = s.winWait := rfl
@[simp] theorem setEng_resp (e : Fin 256) (h : EngSt → EngSt) : (s.setEng e h).resp = s.resp := rfl
@[simp] theorem setEng_locked (e : Fin 256) (h : EngSt → EngSt) : (s.setEng e h).locked = s.locked := rfl
@[simp] theorem setEng_mon (e : Fin 256) (h : EngSt → EngSt) : (s.setEng e h).mon = s.mon := rfl
@[simp] theorem setEng_failed (e : Fin 256) (h : EngSt → EngSt) : (s.setEng e h).failed = s.failed := rfl
@[simp] theorem setEng_phase (e : Fin 256) (h : EngSt → EngSt) : (s.setEng e h).phase = s.phase := rfl
@[simp] theorem setEng_loading (e : Fin 256) (h : EngSt → EngSt) : (s.setEng e h).loading = s.loading := rfl
@[simp] theorem setEng_qm (e : Fin 256) (h : EngSt → EngSt) : (s.setEng e h).qm = s.qm := rfl
@[simp] theorem setEng_port (e : Fin 256) (h : EngSt → EngSt) : (s.setEng e h).port = s.port := rfl
@[simp] theorem setEng_sealQ (e : Fin 256) (h : EngSt → EngSt) : (s.setEng e h).sealQ = s.sealQ := rfl
@[simp] theorem setEng_sealKey (e : Fin 256) (h : EngSt → EngSt) : (s.setEng e h).sealKey = s.sealKey := rfl
@[simp] theorem setEng_pwr (e : Fin 256) (h : EngSt → EngSt) : (s.setEng e h).pwr = s.pwr := rfl
@[simp] theorem setEng_cfgi (e : Fin 256) (h : EngSt → EngSt) : (s.setEng e h).cfgi = s.cfgi := rfl
@[simp] theorem setEng_sc (e : Fin 256) (h : EngSt → EngSt) : (s.setEng e h).sc = s.sc := rfl
@[simp] theorem setEng_faults (e : Fin 256) (h : EngSt → EngSt) : (s.setEng e h).faults = s.faults := rfl
@[simp] theorem setEng_pending (e : Fin 256) (h : EngSt → EngSt) : (s.setEng e h).pending = s.pending := rfl

/-! ### setGang -/

@[simp] theorem setGang_regs (e : Fin 256) (g : GangSt) : (s.setGang e g).regs = s.regs := rfl
@[simp] theorem setGang_fixed (e : Fin 256) (g : GangSt) : (s.setGang e g).fixed = s.fixed := rfl
@[simp] theorem setGang_latch (e : Fin 256) (g : GangSt) : (s.setGang e g).latch = s.latch := rfl
@[simp] theorem setGang_owner (e : Fin 256) (g : GangSt) : (s.setGang e g).owner = s.owner := rfl
@[simp] theorem setGang_pmap (e : Fin 256) (g : GangSt) : (s.setGang e g).pmap = s.pmap := rfl
@[simp] theorem setGang_free (e : Fin 256) (g : GangSt) : (s.setGang e g).free = s.free := rfl
@[simp] theorem setGang_tb (e : Fin 256) (g : GangSt) : (s.setGang e g).tb = s.tb := rfl
@[simp] theorem setGang_ch (e : Fin 256) (g : GangSt) : (s.setGang e g).ch = s.ch := rfl
@[simp] theorem setGang_grp (e : Fin 256) (g : GangSt) : (s.setGang e g).grp = s.grp := rfl
@[simp] theorem setGang_trg (e : Fin 256) (g : GangSt) : (s.setGang e g).trg = s.trg := rfl
@[simp] theorem setGang_iu (e : Fin 256) (g : GangSt) : (s.setGang e g).iu = s.iu := rfl
@[simp] theorem setGang_xt (e : Fin 256) (g : GangSt) : (s.setGang e g).xt = s.xt := rfl
@[simp] theorem setGang_eng (e : Fin 256) (g : GangSt) : (s.setGang e g).eng = s.eng := rfl
@[simp] theorem setGang_gang (e : Fin 256) (g : GangSt) : (s.setGang e g).gang = Tab.set (fun _ => {}) s.gang e g := rfl
@[simp] theorem setGang_sg (e : Fin 256) (g : GangSt) : (s.setGang e g).sg = s.sg := rfl
@[simp] theorem setGang_grid (e : Fin 256) (g : GangSt) : (s.setGang e g).grid = s.grid := rfl
@[simp] theorem setGang_sram (e : Fin 256) (g : GangSt) : (s.setGang e g).sram = s.sram := rfl
@[simp] theorem setGang_sramBad (e : Fin 256) (g : GangSt) : (s.setGang e g).sramBad = s.sramBad := rfl
@[simp] theorem setGang_arr (e : Fin 256) (g : GangSt) : (s.setGang e g).arr = s.arr := rfl
@[simp] theorem setGang_mt (e : Fin 256) (g : GangSt) : (s.setGang e g).mt = s.mt := rfl
@[simp] theorem setGang_resident (e : Fin 256) (g : GangSt) : (s.setGang e g).resident = s.resident := rfl
@[simp] theorem setGang_cocoon (e : Fin 256) (g : GangSt) : (s.setGang e g).cocoon = s.cocoon := rfl
@[simp] theorem setGang_asleep (e : Fin 256) (g : GangSt) : (s.setGang e g).asleep = s.asleep := rfl
@[simp] theorem setGang_evt (e : Fin 256) (g : GangSt) : (s.setGang e g).evt = s.evt := rfl
@[simp] theorem setGang_mem (e : Fin 256) (g : GangSt) : (s.setGang e g).mem = s.mem := rfl
@[simp] theorem setGang_bad (e : Fin 256) (g : GangSt) : (s.setGang e g).bad = s.bad := rfl
@[simp] theorem setGang_dcMap (e : Fin 256) (g : GangSt) : (s.setGang e g).dcMap = s.dcMap := rfl
@[simp] theorem setGang_dc (e : Fin 256) (g : GangSt) : (s.setGang e g).dc = s.dc := rfl
@[simp] theorem setGang_fill (e : Fin 256) (g : GangSt) : (s.setGang e g).fill = s.fill := rfl
@[simp] theorem setGang_winWait (e : Fin 256) (g : GangSt) : (s.setGang e g).winWait = s.winWait := rfl
@[simp] theorem setGang_resp (e : Fin 256) (g : GangSt) : (s.setGang e g).resp = s.resp := rfl
@[simp] theorem setGang_locked (e : Fin 256) (g : GangSt) : (s.setGang e g).locked = s.locked := rfl
@[simp] theorem setGang_mon (e : Fin 256) (g : GangSt) : (s.setGang e g).mon = s.mon := rfl
@[simp] theorem setGang_failed (e : Fin 256) (g : GangSt) : (s.setGang e g).failed = s.failed := rfl
@[simp] theorem setGang_phase (e : Fin 256) (g : GangSt) : (s.setGang e g).phase = s.phase := rfl
@[simp] theorem setGang_loading (e : Fin 256) (g : GangSt) : (s.setGang e g).loading = s.loading := rfl
@[simp] theorem setGang_qm (e : Fin 256) (g : GangSt) : (s.setGang e g).qm = s.qm := rfl
@[simp] theorem setGang_port (e : Fin 256) (g : GangSt) : (s.setGang e g).port = s.port := rfl
@[simp] theorem setGang_sealQ (e : Fin 256) (g : GangSt) : (s.setGang e g).sealQ = s.sealQ := rfl
@[simp] theorem setGang_sealKey (e : Fin 256) (g : GangSt) : (s.setGang e g).sealKey = s.sealKey := rfl
@[simp] theorem setGang_pwr (e : Fin 256) (g : GangSt) : (s.setGang e g).pwr = s.pwr := rfl
@[simp] theorem setGang_cfgi (e : Fin 256) (g : GangSt) : (s.setGang e g).cfgi = s.cfgi := rfl
@[simp] theorem setGang_sc (e : Fin 256) (g : GangSt) : (s.setGang e g).sc = s.sc := rfl
@[simp] theorem setGang_faults (e : Fin 256) (g : GangSt) : (s.setGang e g).faults = s.faults := rfl
@[simp] theorem setGang_pending (e : Fin 256) (g : GangSt) : (s.setGang e g).pending = s.pending := rfl

/-! ### setSg -/

@[simp] theorem setSg_regs (g : Fin 8) (h : SgSt → SgSt) : (s.setSg g h).regs = s.regs := rfl
@[simp] theorem setSg_fixed (g : Fin 8) (h : SgSt → SgSt) : (s.setSg g h).fixed = s.fixed := rfl
@[simp] theorem setSg_latch (g : Fin 8) (h : SgSt → SgSt) : (s.setSg g h).latch = s.latch := rfl
@[simp] theorem setSg_owner (g : Fin 8) (h : SgSt → SgSt) : (s.setSg g h).owner = s.owner := rfl
@[simp] theorem setSg_pmap (g : Fin 8) (h : SgSt → SgSt) : (s.setSg g h).pmap = s.pmap := rfl
@[simp] theorem setSg_free (g : Fin 8) (h : SgSt → SgSt) : (s.setSg g h).free = s.free := rfl
@[simp] theorem setSg_tb (g : Fin 8) (h : SgSt → SgSt) : (s.setSg g h).tb = s.tb := rfl
@[simp] theorem setSg_ch (g : Fin 8) (h : SgSt → SgSt) : (s.setSg g h).ch = s.ch := rfl
@[simp] theorem setSg_grp (g : Fin 8) (h : SgSt → SgSt) : (s.setSg g h).grp = s.grp := rfl
@[simp] theorem setSg_trg (g : Fin 8) (h : SgSt → SgSt) : (s.setSg g h).trg = s.trg := rfl
@[simp] theorem setSg_iu (g : Fin 8) (h : SgSt → SgSt) : (s.setSg g h).iu = s.iu := rfl
@[simp] theorem setSg_xt (g : Fin 8) (h : SgSt → SgSt) : (s.setSg g h).xt = s.xt := rfl
@[simp] theorem setSg_eng (g : Fin 8) (h : SgSt → SgSt) : (s.setSg g h).eng = s.eng := rfl
@[simp] theorem setSg_gang (g : Fin 8) (h : SgSt → SgSt) : (s.setSg g h).gang = s.gang := rfl
@[simp] theorem setSg_sg (g : Fin 8) (h : SgSt → SgSt) : (s.setSg g h).sg = s.sg.set g (h s.sg[g]) := rfl
@[simp] theorem setSg_grid (g : Fin 8) (h : SgSt → SgSt) : (s.setSg g h).grid = s.grid := rfl
@[simp] theorem setSg_sram (g : Fin 8) (h : SgSt → SgSt) : (s.setSg g h).sram = s.sram := rfl
@[simp] theorem setSg_sramBad (g : Fin 8) (h : SgSt → SgSt) : (s.setSg g h).sramBad = s.sramBad := rfl
@[simp] theorem setSg_arr (g : Fin 8) (h : SgSt → SgSt) : (s.setSg g h).arr = s.arr := rfl
@[simp] theorem setSg_mt (g : Fin 8) (h : SgSt → SgSt) : (s.setSg g h).mt = s.mt := rfl
@[simp] theorem setSg_resident (g : Fin 8) (h : SgSt → SgSt) : (s.setSg g h).resident = s.resident := rfl
@[simp] theorem setSg_cocoon (g : Fin 8) (h : SgSt → SgSt) : (s.setSg g h).cocoon = s.cocoon := rfl
@[simp] theorem setSg_asleep (g : Fin 8) (h : SgSt → SgSt) : (s.setSg g h).asleep = s.asleep := rfl
@[simp] theorem setSg_evt (g : Fin 8) (h : SgSt → SgSt) : (s.setSg g h).evt = s.evt := rfl
@[simp] theorem setSg_mem (g : Fin 8) (h : SgSt → SgSt) : (s.setSg g h).mem = s.mem := rfl
@[simp] theorem setSg_bad (g : Fin 8) (h : SgSt → SgSt) : (s.setSg g h).bad = s.bad := rfl
@[simp] theorem setSg_dcMap (g : Fin 8) (h : SgSt → SgSt) : (s.setSg g h).dcMap = s.dcMap := rfl
@[simp] theorem setSg_dc (g : Fin 8) (h : SgSt → SgSt) : (s.setSg g h).dc = s.dc := rfl
@[simp] theorem setSg_fill (g : Fin 8) (h : SgSt → SgSt) : (s.setSg g h).fill = s.fill := rfl
@[simp] theorem setSg_winWait (g : Fin 8) (h : SgSt → SgSt) : (s.setSg g h).winWait = s.winWait := rfl
@[simp] theorem setSg_resp (g : Fin 8) (h : SgSt → SgSt) : (s.setSg g h).resp = s.resp := rfl
@[simp] theorem setSg_locked (g : Fin 8) (h : SgSt → SgSt) : (s.setSg g h).locked = s.locked := rfl
@[simp] theorem setSg_mon (g : Fin 8) (h : SgSt → SgSt) : (s.setSg g h).mon = s.mon := rfl
@[simp] theorem setSg_failed (g : Fin 8) (h : SgSt → SgSt) : (s.setSg g h).failed = s.failed := rfl
@[simp] theorem setSg_phase (g : Fin 8) (h : SgSt → SgSt) : (s.setSg g h).phase = s.phase := rfl
@[simp] theorem setSg_loading (g : Fin 8) (h : SgSt → SgSt) : (s.setSg g h).loading = s.loading := rfl
@[simp] theorem setSg_qm (g : Fin 8) (h : SgSt → SgSt) : (s.setSg g h).qm = s.qm := rfl
@[simp] theorem setSg_port (g : Fin 8) (h : SgSt → SgSt) : (s.setSg g h).port = s.port := rfl
@[simp] theorem setSg_sealQ (g : Fin 8) (h : SgSt → SgSt) : (s.setSg g h).sealQ = s.sealQ := rfl
@[simp] theorem setSg_sealKey (g : Fin 8) (h : SgSt → SgSt) : (s.setSg g h).sealKey = s.sealKey := rfl
@[simp] theorem setSg_pwr (g : Fin 8) (h : SgSt → SgSt) : (s.setSg g h).pwr = s.pwr := rfl
@[simp] theorem setSg_cfgi (g : Fin 8) (h : SgSt → SgSt) : (s.setSg g h).cfgi = s.cfgi := rfl
@[simp] theorem setSg_sc (g : Fin 8) (h : SgSt → SgSt) : (s.setSg g h).sc = s.sc := rfl
@[simp] theorem setSg_faults (g : Fin 8) (h : SgSt → SgSt) : (s.setSg g h).faults = s.faults := rfl
@[simp] theorem setSg_pending (g : Fin 8) (h : SgSt → SgSt) : (s.setSg g h).pending = s.pending := rfl

/-! ### setPort -/

@[simp] theorem setPort_regs (p : Fin 4) (h : PortSt → PortSt) : (s.setPort p h).regs = s.regs := rfl
@[simp] theorem setPort_fixed (p : Fin 4) (h : PortSt → PortSt) : (s.setPort p h).fixed = s.fixed := rfl
@[simp] theorem setPort_latch (p : Fin 4) (h : PortSt → PortSt) : (s.setPort p h).latch = s.latch := rfl
@[simp] theorem setPort_owner (p : Fin 4) (h : PortSt → PortSt) : (s.setPort p h).owner = s.owner := rfl
@[simp] theorem setPort_pmap (p : Fin 4) (h : PortSt → PortSt) : (s.setPort p h).pmap = s.pmap := rfl
@[simp] theorem setPort_free (p : Fin 4) (h : PortSt → PortSt) : (s.setPort p h).free = s.free := rfl
@[simp] theorem setPort_tb (p : Fin 4) (h : PortSt → PortSt) : (s.setPort p h).tb = s.tb := rfl
@[simp] theorem setPort_ch (p : Fin 4) (h : PortSt → PortSt) : (s.setPort p h).ch = s.ch := rfl
@[simp] theorem setPort_grp (p : Fin 4) (h : PortSt → PortSt) : (s.setPort p h).grp = s.grp := rfl
@[simp] theorem setPort_trg (p : Fin 4) (h : PortSt → PortSt) : (s.setPort p h).trg = s.trg := rfl
@[simp] theorem setPort_iu (p : Fin 4) (h : PortSt → PortSt) : (s.setPort p h).iu = s.iu := rfl
@[simp] theorem setPort_xt (p : Fin 4) (h : PortSt → PortSt) : (s.setPort p h).xt = s.xt := rfl
@[simp] theorem setPort_eng (p : Fin 4) (h : PortSt → PortSt) : (s.setPort p h).eng = s.eng := rfl
@[simp] theorem setPort_gang (p : Fin 4) (h : PortSt → PortSt) : (s.setPort p h).gang = s.gang := rfl
@[simp] theorem setPort_sg (p : Fin 4) (h : PortSt → PortSt) : (s.setPort p h).sg = s.sg := rfl
@[simp] theorem setPort_grid (p : Fin 4) (h : PortSt → PortSt) : (s.setPort p h).grid = s.grid := rfl
@[simp] theorem setPort_sram (p : Fin 4) (h : PortSt → PortSt) : (s.setPort p h).sram = s.sram := rfl
@[simp] theorem setPort_sramBad (p : Fin 4) (h : PortSt → PortSt) : (s.setPort p h).sramBad = s.sramBad := rfl
@[simp] theorem setPort_arr (p : Fin 4) (h : PortSt → PortSt) : (s.setPort p h).arr = s.arr := rfl
@[simp] theorem setPort_mt (p : Fin 4) (h : PortSt → PortSt) : (s.setPort p h).mt = s.mt := rfl
@[simp] theorem setPort_resident (p : Fin 4) (h : PortSt → PortSt) : (s.setPort p h).resident = s.resident := rfl
@[simp] theorem setPort_cocoon (p : Fin 4) (h : PortSt → PortSt) : (s.setPort p h).cocoon = s.cocoon := rfl
@[simp] theorem setPort_asleep (p : Fin 4) (h : PortSt → PortSt) : (s.setPort p h).asleep = s.asleep := rfl
@[simp] theorem setPort_evt (p : Fin 4) (h : PortSt → PortSt) : (s.setPort p h).evt = s.evt := rfl
@[simp] theorem setPort_mem (p : Fin 4) (h : PortSt → PortSt) : (s.setPort p h).mem = s.mem := rfl
@[simp] theorem setPort_bad (p : Fin 4) (h : PortSt → PortSt) : (s.setPort p h).bad = s.bad := rfl
@[simp] theorem setPort_dcMap (p : Fin 4) (h : PortSt → PortSt) : (s.setPort p h).dcMap = s.dcMap := rfl
@[simp] theorem setPort_dc (p : Fin 4) (h : PortSt → PortSt) : (s.setPort p h).dc = s.dc := rfl
@[simp] theorem setPort_fill (p : Fin 4) (h : PortSt → PortSt) : (s.setPort p h).fill = s.fill := rfl
@[simp] theorem setPort_winWait (p : Fin 4) (h : PortSt → PortSt) : (s.setPort p h).winWait = s.winWait := rfl
@[simp] theorem setPort_resp (p : Fin 4) (h : PortSt → PortSt) : (s.setPort p h).resp = s.resp := rfl
@[simp] theorem setPort_locked (p : Fin 4) (h : PortSt → PortSt) : (s.setPort p h).locked = s.locked := rfl
@[simp] theorem setPort_mon (p : Fin 4) (h : PortSt → PortSt) : (s.setPort p h).mon = s.mon := rfl
@[simp] theorem setPort_failed (p : Fin 4) (h : PortSt → PortSt) : (s.setPort p h).failed = s.failed := rfl
@[simp] theorem setPort_phase (p : Fin 4) (h : PortSt → PortSt) : (s.setPort p h).phase = s.phase := rfl
@[simp] theorem setPort_loading (p : Fin 4) (h : PortSt → PortSt) : (s.setPort p h).loading = s.loading := rfl
@[simp] theorem setPort_qm (p : Fin 4) (h : PortSt → PortSt) : (s.setPort p h).qm = s.qm := rfl
@[simp] theorem setPort_port (p : Fin 4) (h : PortSt → PortSt) : (s.setPort p h).port = s.port.set p (h s.port[p]) := rfl
@[simp] theorem setPort_sealQ (p : Fin 4) (h : PortSt → PortSt) : (s.setPort p h).sealQ = s.sealQ := rfl
@[simp] theorem setPort_sealKey (p : Fin 4) (h : PortSt → PortSt) : (s.setPort p h).sealKey = s.sealKey := rfl
@[simp] theorem setPort_pwr (p : Fin 4) (h : PortSt → PortSt) : (s.setPort p h).pwr = s.pwr := rfl
@[simp] theorem setPort_cfgi (p : Fin 4) (h : PortSt → PortSt) : (s.setPort p h).cfgi = s.cfgi := rfl
@[simp] theorem setPort_sc (p : Fin 4) (h : PortSt → PortSt) : (s.setPort p h).sc = s.sc := rfl
@[simp] theorem setPort_faults (p : Fin 4) (h : PortSt → PortSt) : (s.setPort p h).faults = s.faults := rfl
@[simp] theorem setPort_pending (p : Fin 4) (h : PortSt → PortSt) : (s.setPort p h).pending = s.pending := rfl

/-! ### setQm -/

@[simp] theorem setQm_regs (h : QmSt → QmSt) : (s.setQm h).regs = s.regs := rfl
@[simp] theorem setQm_fixed (h : QmSt → QmSt) : (s.setQm h).fixed = s.fixed := rfl
@[simp] theorem setQm_latch (h : QmSt → QmSt) : (s.setQm h).latch = s.latch := rfl
@[simp] theorem setQm_owner (h : QmSt → QmSt) : (s.setQm h).owner = s.owner := rfl
@[simp] theorem setQm_pmap (h : QmSt → QmSt) : (s.setQm h).pmap = s.pmap := rfl
@[simp] theorem setQm_free (h : QmSt → QmSt) : (s.setQm h).free = s.free := rfl
@[simp] theorem setQm_tb (h : QmSt → QmSt) : (s.setQm h).tb = s.tb := rfl
@[simp] theorem setQm_ch (h : QmSt → QmSt) : (s.setQm h).ch = s.ch := rfl
@[simp] theorem setQm_grp (h : QmSt → QmSt) : (s.setQm h).grp = s.grp := rfl
@[simp] theorem setQm_trg (h : QmSt → QmSt) : (s.setQm h).trg = s.trg := rfl
@[simp] theorem setQm_iu (h : QmSt → QmSt) : (s.setQm h).iu = s.iu := rfl
@[simp] theorem setQm_xt (h : QmSt → QmSt) : (s.setQm h).xt = s.xt := rfl
@[simp] theorem setQm_eng (h : QmSt → QmSt) : (s.setQm h).eng = s.eng := rfl
@[simp] theorem setQm_gang (h : QmSt → QmSt) : (s.setQm h).gang = s.gang := rfl
@[simp] theorem setQm_sg (h : QmSt → QmSt) : (s.setQm h).sg = s.sg := rfl
@[simp] theorem setQm_grid (h : QmSt → QmSt) : (s.setQm h).grid = s.grid := rfl
@[simp] theorem setQm_sram (h : QmSt → QmSt) : (s.setQm h).sram = s.sram := rfl
@[simp] theorem setQm_sramBad (h : QmSt → QmSt) : (s.setQm h).sramBad = s.sramBad := rfl
@[simp] theorem setQm_arr (h : QmSt → QmSt) : (s.setQm h).arr = s.arr := rfl
@[simp] theorem setQm_mt (h : QmSt → QmSt) : (s.setQm h).mt = s.mt := rfl
@[simp] theorem setQm_resident (h : QmSt → QmSt) : (s.setQm h).resident = s.resident := rfl
@[simp] theorem setQm_cocoon (h : QmSt → QmSt) : (s.setQm h).cocoon = s.cocoon := rfl
@[simp] theorem setQm_asleep (h : QmSt → QmSt) : (s.setQm h).asleep = s.asleep := rfl
@[simp] theorem setQm_evt (h : QmSt → QmSt) : (s.setQm h).evt = s.evt := rfl
@[simp] theorem setQm_mem (h : QmSt → QmSt) : (s.setQm h).mem = s.mem := rfl
@[simp] theorem setQm_bad (h : QmSt → QmSt) : (s.setQm h).bad = s.bad := rfl
@[simp] theorem setQm_dcMap (h : QmSt → QmSt) : (s.setQm h).dcMap = s.dcMap := rfl
@[simp] theorem setQm_dc (h : QmSt → QmSt) : (s.setQm h).dc = s.dc := rfl
@[simp] theorem setQm_fill (h : QmSt → QmSt) : (s.setQm h).fill = s.fill := rfl
@[simp] theorem setQm_winWait (h : QmSt → QmSt) : (s.setQm h).winWait = s.winWait := rfl
@[simp] theorem setQm_resp (h : QmSt → QmSt) : (s.setQm h).resp = s.resp := rfl
@[simp] theorem setQm_locked (h : QmSt → QmSt) : (s.setQm h).locked = s.locked := rfl
@[simp] theorem setQm_mon (h : QmSt → QmSt) : (s.setQm h).mon = s.mon := rfl
@[simp] theorem setQm_failed (h : QmSt → QmSt) : (s.setQm h).failed = s.failed := rfl
@[simp] theorem setQm_phase (h : QmSt → QmSt) : (s.setQm h).phase = s.phase := rfl
@[simp] theorem setQm_loading (h : QmSt → QmSt) : (s.setQm h).loading = s.loading := rfl
@[simp] theorem setQm_qm (h : QmSt → QmSt) : (s.setQm h).qm = h s.qm := rfl
@[simp] theorem setQm_port (h : QmSt → QmSt) : (s.setQm h).port = s.port := rfl
@[simp] theorem setQm_sealQ (h : QmSt → QmSt) : (s.setQm h).sealQ = s.sealQ := rfl
@[simp] theorem setQm_sealKey (h : QmSt → QmSt) : (s.setQm h).sealKey = s.sealKey := rfl
@[simp] theorem setQm_pwr (h : QmSt → QmSt) : (s.setQm h).pwr = s.pwr := rfl
@[simp] theorem setQm_cfgi (h : QmSt → QmSt) : (s.setQm h).cfgi = s.cfgi := rfl
@[simp] theorem setQm_sc (h : QmSt → QmSt) : (s.setQm h).sc = s.sc := rfl
@[simp] theorem setQm_faults (h : QmSt → QmSt) : (s.setQm h).faults = s.faults := rfl
@[simp] theorem setQm_pending (h : QmSt → QmSt) : (s.setQm h).pending = s.pending := rfl

/-! ### setQ -/

@[simp] theorem setQ_regs (q : Nat) (h : QSt → QSt) : (s.setQ q h).regs = s.regs := rfl
@[simp] theorem setQ_fixed (q : Nat) (h : QSt → QSt) : (s.setQ q h).fixed = s.fixed := rfl
@[simp] theorem setQ_latch (q : Nat) (h : QSt → QSt) : (s.setQ q h).latch = s.latch := rfl
@[simp] theorem setQ_owner (q : Nat) (h : QSt → QSt) : (s.setQ q h).owner = s.owner := rfl
@[simp] theorem setQ_pmap (q : Nat) (h : QSt → QSt) : (s.setQ q h).pmap = s.pmap := rfl
@[simp] theorem setQ_free (q : Nat) (h : QSt → QSt) : (s.setQ q h).free = s.free := rfl
@[simp] theorem setQ_tb (q : Nat) (h : QSt → QSt) : (s.setQ q h).tb = s.tb := rfl
@[simp] theorem setQ_ch (q : Nat) (h : QSt → QSt) : (s.setQ q h).ch = s.ch := rfl
@[simp] theorem setQ_grp (q : Nat) (h : QSt → QSt) : (s.setQ q h).grp = s.grp := rfl
@[simp] theorem setQ_trg (q : Nat) (h : QSt → QSt) : (s.setQ q h).trg = s.trg := rfl
@[simp] theorem setQ_iu (q : Nat) (h : QSt → QSt) : (s.setQ q h).iu = s.iu := rfl
@[simp] theorem setQ_xt (q : Nat) (h : QSt → QSt) : (s.setQ q h).xt = s.xt := rfl
@[simp] theorem setQ_eng (q : Nat) (h : QSt → QSt) : (s.setQ q h).eng = s.eng := rfl
@[simp] theorem setQ_gang (q : Nat) (h : QSt → QSt) : (s.setQ q h).gang = s.gang := rfl
@[simp] theorem setQ_sg (q : Nat) (h : QSt → QSt) : (s.setQ q h).sg = s.sg := rfl
@[simp] theorem setQ_grid (q : Nat) (h : QSt → QSt) : (s.setQ q h).grid = s.grid := rfl
@[simp] theorem setQ_sram (q : Nat) (h : QSt → QSt) : (s.setQ q h).sram = s.sram := rfl
@[simp] theorem setQ_sramBad (q : Nat) (h : QSt → QSt) : (s.setQ q h).sramBad = s.sramBad := rfl
@[simp] theorem setQ_arr (q : Nat) (h : QSt → QSt) : (s.setQ q h).arr = s.arr := rfl
@[simp] theorem setQ_mt (q : Nat) (h : QSt → QSt) : (s.setQ q h).mt = s.mt := rfl
@[simp] theorem setQ_resident (q : Nat) (h : QSt → QSt) : (s.setQ q h).resident = s.resident := rfl
@[simp] theorem setQ_cocoon (q : Nat) (h : QSt → QSt) : (s.setQ q h).cocoon = s.cocoon := rfl
@[simp] theorem setQ_asleep (q : Nat) (h : QSt → QSt) : (s.setQ q h).asleep = s.asleep := rfl
@[simp] theorem setQ_evt (q : Nat) (h : QSt → QSt) : (s.setQ q h).evt = s.evt := rfl
@[simp] theorem setQ_mem (q : Nat) (h : QSt → QSt) : (s.setQ q h).mem = s.mem := rfl
@[simp] theorem setQ_bad (q : Nat) (h : QSt → QSt) : (s.setQ q h).bad = s.bad := rfl
@[simp] theorem setQ_dcMap (q : Nat) (h : QSt → QSt) : (s.setQ q h).dcMap = s.dcMap := rfl
@[simp] theorem setQ_dc (q : Nat) (h : QSt → QSt) : (s.setQ q h).dc = s.dc := rfl
@[simp] theorem setQ_fill (q : Nat) (h : QSt → QSt) : (s.setQ q h).fill = s.fill := rfl
@[simp] theorem setQ_winWait (q : Nat) (h : QSt → QSt) : (s.setQ q h).winWait = s.winWait := rfl
@[simp] theorem setQ_resp (q : Nat) (h : QSt → QSt) : (s.setQ q h).resp = s.resp := rfl
@[simp] theorem setQ_locked (q : Nat) (h : QSt → QSt) : (s.setQ q h).locked = s.locked := rfl
@[simp] theorem setQ_mon (q : Nat) (h : QSt → QSt) : (s.setQ q h).mon = s.mon := rfl
@[simp] theorem setQ_failed (q : Nat) (h : QSt → QSt) : (s.setQ q h).failed = s.failed := rfl
@[simp] theorem setQ_phase (q : Nat) (h : QSt → QSt) : (s.setQ q h).phase = s.phase := rfl
@[simp] theorem setQ_loading (q : Nat) (h : QSt → QSt) : (s.setQ q h).loading = s.loading := rfl
@[simp] theorem setQ_port (q : Nat) (h : QSt → QSt) : (s.setQ q h).port = s.port := rfl
@[simp] theorem setQ_sealQ (q : Nat) (h : QSt → QSt) : (s.setQ q h).sealQ = s.sealQ := rfl
@[simp] theorem setQ_sealKey (q : Nat) (h : QSt → QSt) : (s.setQ q h).sealKey = s.sealKey := rfl
@[simp] theorem setQ_pwr (q : Nat) (h : QSt → QSt) : (s.setQ q h).pwr = s.pwr := rfl
@[simp] theorem setQ_cfgi (q : Nat) (h : QSt → QSt) : (s.setQ q h).cfgi = s.cfgi := rfl
@[simp] theorem setQ_sc (q : Nat) (h : QSt → QSt) : (s.setQ q h).sc = s.sc := rfl
@[simp] theorem setQ_faults (q : Nat) (h : QSt → QSt) : (s.setQ q h).faults = s.faults := rfl
@[simp] theorem setQ_pending (q : Nat) (h : QSt → QSt) : (s.setQ q h).pending = s.pending := rfl

/-! ### setRing -/

@[simp] theorem setRing_regs (q : Nat) (h : RingSt → RingSt) : (s.setRing q h).regs = s.regs := rfl
@[simp] theorem setRing_fixed (q : Nat) (h : RingSt → RingSt) : (s.setRing q h).fixed = s.fixed := rfl
@[simp] theorem setRing_latch (q : Nat) (h : RingSt → RingSt) : (s.setRing q h).latch = s.latch := rfl
@[simp] theorem setRing_owner (q : Nat) (h : RingSt → RingSt) : (s.setRing q h).owner = s.owner := rfl
@[simp] theorem setRing_pmap (q : Nat) (h : RingSt → RingSt) : (s.setRing q h).pmap = s.pmap := rfl
@[simp] theorem setRing_free (q : Nat) (h : RingSt → RingSt) : (s.setRing q h).free = s.free := rfl
@[simp] theorem setRing_tb (q : Nat) (h : RingSt → RingSt) : (s.setRing q h).tb = s.tb := rfl
@[simp] theorem setRing_ch (q : Nat) (h : RingSt → RingSt) : (s.setRing q h).ch = s.ch := rfl
@[simp] theorem setRing_grp (q : Nat) (h : RingSt → RingSt) : (s.setRing q h).grp = s.grp := rfl
@[simp] theorem setRing_trg (q : Nat) (h : RingSt → RingSt) : (s.setRing q h).trg = s.trg := rfl
@[simp] theorem setRing_iu (q : Nat) (h : RingSt → RingSt) : (s.setRing q h).iu = s.iu := rfl
@[simp] theorem setRing_xt (q : Nat) (h : RingSt → RingSt) : (s.setRing q h).xt = s.xt := rfl
@[simp] theorem setRing_eng (q : Nat) (h : RingSt → RingSt) : (s.setRing q h).eng = s.eng := rfl
@[simp] theorem setRing_gang (q : Nat) (h : RingSt → RingSt) : (s.setRing q h).gang = s.gang := rfl
@[simp] theorem setRing_sg (q : Nat) (h : RingSt → RingSt) : (s.setRing q h).sg = s.sg := rfl
@[simp] theorem setRing_grid (q : Nat) (h : RingSt → RingSt) : (s.setRing q h).grid = s.grid := rfl
@[simp] theorem setRing_sram (q : Nat) (h : RingSt → RingSt) : (s.setRing q h).sram = s.sram := rfl
@[simp] theorem setRing_sramBad (q : Nat) (h : RingSt → RingSt) : (s.setRing q h).sramBad = s.sramBad := rfl
@[simp] theorem setRing_arr (q : Nat) (h : RingSt → RingSt) : (s.setRing q h).arr = s.arr := rfl
@[simp] theorem setRing_mt (q : Nat) (h : RingSt → RingSt) : (s.setRing q h).mt = s.mt := rfl
@[simp] theorem setRing_resident (q : Nat) (h : RingSt → RingSt) : (s.setRing q h).resident = s.resident := rfl
@[simp] theorem setRing_cocoon (q : Nat) (h : RingSt → RingSt) : (s.setRing q h).cocoon = s.cocoon := rfl
@[simp] theorem setRing_asleep (q : Nat) (h : RingSt → RingSt) : (s.setRing q h).asleep = s.asleep := rfl
@[simp] theorem setRing_evt (q : Nat) (h : RingSt → RingSt) : (s.setRing q h).evt = s.evt := rfl
@[simp] theorem setRing_mem (q : Nat) (h : RingSt → RingSt) : (s.setRing q h).mem = s.mem := rfl
@[simp] theorem setRing_bad (q : Nat) (h : RingSt → RingSt) : (s.setRing q h).bad = s.bad := rfl
@[simp] theorem setRing_dcMap (q : Nat) (h : RingSt → RingSt) : (s.setRing q h).dcMap = s.dcMap := rfl
@[simp] theorem setRing_dc (q : Nat) (h : RingSt → RingSt) : (s.setRing q h).dc = s.dc := rfl
@[simp] theorem setRing_fill (q : Nat) (h : RingSt → RingSt) : (s.setRing q h).fill = s.fill := rfl
@[simp] theorem setRing_winWait (q : Nat) (h : RingSt → RingSt) : (s.setRing q h).winWait = s.winWait := rfl
@[simp] theorem setRing_resp (q : Nat) (h : RingSt → RingSt) : (s.setRing q h).resp = s.resp := rfl
@[simp] theorem setRing_locked (q : Nat) (h : RingSt → RingSt) : (s.setRing q h).locked = s.locked := rfl
@[simp] theorem setRing_mon (q : Nat) (h : RingSt → RingSt) : (s.setRing q h).mon = s.mon := rfl
@[simp] theorem setRing_failed (q : Nat) (h : RingSt → RingSt) : (s.setRing q h).failed = s.failed := rfl
@[simp] theorem setRing_phase (q : Nat) (h : RingSt → RingSt) : (s.setRing q h).phase = s.phase := rfl
@[simp] theorem setRing_loading (q : Nat) (h : RingSt → RingSt) : (s.setRing q h).loading = s.loading := rfl
@[simp] theorem setRing_port (q : Nat) (h : RingSt → RingSt) : (s.setRing q h).port = s.port := rfl
@[simp] theorem setRing_sealQ (q : Nat) (h : RingSt → RingSt) : (s.setRing q h).sealQ = s.sealQ := rfl
@[simp] theorem setRing_sealKey (q : Nat) (h : RingSt → RingSt) : (s.setRing q h).sealKey = s.sealKey := rfl
@[simp] theorem setRing_pwr (q : Nat) (h : RingSt → RingSt) : (s.setRing q h).pwr = s.pwr := rfl
@[simp] theorem setRing_cfgi (q : Nat) (h : RingSt → RingSt) : (s.setRing q h).cfgi = s.cfgi := rfl
@[simp] theorem setRing_sc (q : Nat) (h : RingSt → RingSt) : (s.setRing q h).sc = s.sc := rfl
@[simp] theorem setRing_faults (q : Nat) (h : RingSt → RingSt) : (s.setRing q h).faults = s.faults := rfl
@[simp] theorem setRing_pending (q : Nat) (h : RingSt → RingSt) : (s.setRing q h).pending = s.pending := rfl

/-! ### setArr -/

@[simp] theorem setArr_regs (m i : Nat) (h : ArrSt → ArrSt) : (s.setArr m i h).regs = s.regs := rfl
@[simp] theorem setArr_fixed (m i : Nat) (h : ArrSt → ArrSt) : (s.setArr m i h).fixed = s.fixed := rfl
@[simp] theorem setArr_latch (m i : Nat) (h : ArrSt → ArrSt) : (s.setArr m i h).latch = s.latch := rfl
@[simp] theorem setArr_owner (m i : Nat) (h : ArrSt → ArrSt) : (s.setArr m i h).owner = s.owner := rfl
@[simp] theorem setArr_pmap (m i : Nat) (h : ArrSt → ArrSt) : (s.setArr m i h).pmap = s.pmap := rfl
@[simp] theorem setArr_free (m i : Nat) (h : ArrSt → ArrSt) : (s.setArr m i h).free = s.free := rfl
@[simp] theorem setArr_tb (m i : Nat) (h : ArrSt → ArrSt) : (s.setArr m i h).tb = s.tb := rfl
@[simp] theorem setArr_ch (m i : Nat) (h : ArrSt → ArrSt) : (s.setArr m i h).ch = s.ch := rfl
@[simp] theorem setArr_grp (m i : Nat) (h : ArrSt → ArrSt) : (s.setArr m i h).grp = s.grp := rfl
@[simp] theorem setArr_trg (m i : Nat) (h : ArrSt → ArrSt) : (s.setArr m i h).trg = s.trg := rfl
@[simp] theorem setArr_iu (m i : Nat) (h : ArrSt → ArrSt) : (s.setArr m i h).iu = s.iu := rfl
@[simp] theorem setArr_xt (m i : Nat) (h : ArrSt → ArrSt) : (s.setArr m i h).xt = s.xt := rfl
@[simp] theorem setArr_eng (m i : Nat) (h : ArrSt → ArrSt) : (s.setArr m i h).eng = s.eng := rfl
@[simp] theorem setArr_gang (m i : Nat) (h : ArrSt → ArrSt) : (s.setArr m i h).gang = s.gang := rfl
@[simp] theorem setArr_sg (m i : Nat) (h : ArrSt → ArrSt) : (s.setArr m i h).sg = s.sg := rfl
@[simp] theorem setArr_grid (m i : Nat) (h : ArrSt → ArrSt) : (s.setArr m i h).grid = s.grid := rfl
@[simp] theorem setArr_sram (m i : Nat) (h : ArrSt → ArrSt) : (s.setArr m i h).sram = s.sram := rfl
@[simp] theorem setArr_sramBad (m i : Nat) (h : ArrSt → ArrSt) : (s.setArr m i h).sramBad = s.sramBad := rfl
@[simp] theorem setArr_mt (m i : Nat) (h : ArrSt → ArrSt) : (s.setArr m i h).mt = s.mt := rfl
@[simp] theorem setArr_resident (m i : Nat) (h : ArrSt → ArrSt) : (s.setArr m i h).resident = s.resident := rfl
@[simp] theorem setArr_cocoon (m i : Nat) (h : ArrSt → ArrSt) : (s.setArr m i h).cocoon = s.cocoon := rfl
@[simp] theorem setArr_asleep (m i : Nat) (h : ArrSt → ArrSt) : (s.setArr m i h).asleep = s.asleep := rfl
@[simp] theorem setArr_evt (m i : Nat) (h : ArrSt → ArrSt) : (s.setArr m i h).evt = s.evt := rfl
@[simp] theorem setArr_mem (m i : Nat) (h : ArrSt → ArrSt) : (s.setArr m i h).mem = s.mem := rfl
@[simp] theorem setArr_bad (m i : Nat) (h : ArrSt → ArrSt) : (s.setArr m i h).bad = s.bad := rfl
@[simp] theorem setArr_dcMap (m i : Nat) (h : ArrSt → ArrSt) : (s.setArr m i h).dcMap = s.dcMap := rfl
@[simp] theorem setArr_dc (m i : Nat) (h : ArrSt → ArrSt) : (s.setArr m i h).dc = s.dc := rfl
@[simp] theorem setArr_fill (m i : Nat) (h : ArrSt → ArrSt) : (s.setArr m i h).fill = s.fill := rfl
@[simp] theorem setArr_winWait (m i : Nat) (h : ArrSt → ArrSt) : (s.setArr m i h).winWait = s.winWait := rfl
@[simp] theorem setArr_resp (m i : Nat) (h : ArrSt → ArrSt) : (s.setArr m i h).resp = s.resp := rfl
@[simp] theorem setArr_locked (m i : Nat) (h : ArrSt → ArrSt) : (s.setArr m i h).locked = s.locked := rfl
@[simp] theorem setArr_mon (m i : Nat) (h : ArrSt → ArrSt) : (s.setArr m i h).mon = s.mon := rfl
@[simp] theorem setArr_failed (m i : Nat) (h : ArrSt → ArrSt) : (s.setArr m i h).failed = s.failed := rfl
@[simp] theorem setArr_phase (m i : Nat) (h : ArrSt → ArrSt) : (s.setArr m i h).phase = s.phase := rfl
@[simp] theorem setArr_loading (m i : Nat) (h : ArrSt → ArrSt) : (s.setArr m i h).loading = s.loading := rfl
@[simp] theorem setArr_qm (m i : Nat) (h : ArrSt → ArrSt) : (s.setArr m i h).qm = s.qm := rfl
@[simp] theorem setArr_port (m i : Nat) (h : ArrSt → ArrSt) : (s.setArr m i h).port = s.port := rfl
@[simp] theorem setArr_sealQ (m i : Nat) (h : ArrSt → ArrSt) : (s.setArr m i h).sealQ = s.sealQ := rfl
@[simp] theorem setArr_sealKey (m i : Nat) (h : ArrSt → ArrSt) : (s.setArr m i h).sealKey = s.sealKey := rfl
@[simp] theorem setArr_pwr (m i : Nat) (h : ArrSt → ArrSt) : (s.setArr m i h).pwr = s.pwr := rfl
@[simp] theorem setArr_cfgi (m i : Nat) (h : ArrSt → ArrSt) : (s.setArr m i h).cfgi = s.cfgi := rfl
@[simp] theorem setArr_sc (m i : Nat) (h : ArrSt → ArrSt) : (s.setArr m i h).sc = s.sc := rfl
@[simp] theorem setArr_faults (m i : Nat) (h : ArrSt → ArrSt) : (s.setArr m i h).faults = s.faults := rfl
@[simp] theorem setArr_pending (m i : Nat) (h : ArrSt → ArrSt) : (s.setArr m i h).pending = s.pending := rfl

/-! ### setMt -/

@[simp] theorem setMt_regs (p : Fin 4) (h : MtSt → MtSt) : (s.setMt p h).regs = s.regs := rfl
@[simp] theorem setMt_fixed (p : Fin 4) (h : MtSt → MtSt) : (s.setMt p h).fixed = s.fixed := rfl
@[simp] theorem setMt_latch (p : Fin 4) (h : MtSt → MtSt) : (s.setMt p h).latch = s.latch := rfl
@[simp] theorem setMt_owner (p : Fin 4) (h : MtSt → MtSt) : (s.setMt p h).owner = s.owner := rfl
@[simp] theorem setMt_pmap (p : Fin 4) (h : MtSt → MtSt) : (s.setMt p h).pmap = s.pmap := rfl
@[simp] theorem setMt_free (p : Fin 4) (h : MtSt → MtSt) : (s.setMt p h).free = s.free := rfl
@[simp] theorem setMt_tb (p : Fin 4) (h : MtSt → MtSt) : (s.setMt p h).tb = s.tb := rfl
@[simp] theorem setMt_ch (p : Fin 4) (h : MtSt → MtSt) : (s.setMt p h).ch = s.ch := rfl
@[simp] theorem setMt_grp (p : Fin 4) (h : MtSt → MtSt) : (s.setMt p h).grp = s.grp := rfl
@[simp] theorem setMt_trg (p : Fin 4) (h : MtSt → MtSt) : (s.setMt p h).trg = s.trg := rfl
@[simp] theorem setMt_iu (p : Fin 4) (h : MtSt → MtSt) : (s.setMt p h).iu = s.iu := rfl
@[simp] theorem setMt_xt (p : Fin 4) (h : MtSt → MtSt) : (s.setMt p h).xt = s.xt := rfl
@[simp] theorem setMt_eng (p : Fin 4) (h : MtSt → MtSt) : (s.setMt p h).eng = s.eng := rfl
@[simp] theorem setMt_gang (p : Fin 4) (h : MtSt → MtSt) : (s.setMt p h).gang = s.gang := rfl
@[simp] theorem setMt_sg (p : Fin 4) (h : MtSt → MtSt) : (s.setMt p h).sg = s.sg := rfl
@[simp] theorem setMt_grid (p : Fin 4) (h : MtSt → MtSt) : (s.setMt p h).grid = s.grid := rfl
@[simp] theorem setMt_sram (p : Fin 4) (h : MtSt → MtSt) : (s.setMt p h).sram = s.sram := rfl
@[simp] theorem setMt_sramBad (p : Fin 4) (h : MtSt → MtSt) : (s.setMt p h).sramBad = s.sramBad := rfl
@[simp] theorem setMt_arr (p : Fin 4) (h : MtSt → MtSt) : (s.setMt p h).arr = s.arr := rfl
@[simp] theorem setMt_mt (p : Fin 4) (h : MtSt → MtSt) : (s.setMt p h).mt = s.mt.set p (h s.mt[p]) := rfl
@[simp] theorem setMt_resident (p : Fin 4) (h : MtSt → MtSt) : (s.setMt p h).resident = s.resident := rfl
@[simp] theorem setMt_cocoon (p : Fin 4) (h : MtSt → MtSt) : (s.setMt p h).cocoon = s.cocoon := rfl
@[simp] theorem setMt_asleep (p : Fin 4) (h : MtSt → MtSt) : (s.setMt p h).asleep = s.asleep := rfl
@[simp] theorem setMt_evt (p : Fin 4) (h : MtSt → MtSt) : (s.setMt p h).evt = s.evt := rfl
@[simp] theorem setMt_mem (p : Fin 4) (h : MtSt → MtSt) : (s.setMt p h).mem = s.mem := rfl
@[simp] theorem setMt_bad (p : Fin 4) (h : MtSt → MtSt) : (s.setMt p h).bad = s.bad := rfl
@[simp] theorem setMt_dcMap (p : Fin 4) (h : MtSt → MtSt) : (s.setMt p h).dcMap = s.dcMap := rfl
@[simp] theorem setMt_dc (p : Fin 4) (h : MtSt → MtSt) : (s.setMt p h).dc = s.dc := rfl
@[simp] theorem setMt_fill (p : Fin 4) (h : MtSt → MtSt) : (s.setMt p h).fill = s.fill := rfl
@[simp] theorem setMt_winWait (p : Fin 4) (h : MtSt → MtSt) : (s.setMt p h).winWait = s.winWait := rfl
@[simp] theorem setMt_resp (p : Fin 4) (h : MtSt → MtSt) : (s.setMt p h).resp = s.resp := rfl
@[simp] theorem setMt_locked (p : Fin 4) (h : MtSt → MtSt) : (s.setMt p h).locked = s.locked := rfl
@[simp] theorem setMt_mon (p : Fin 4) (h : MtSt → MtSt) : (s.setMt p h).mon = s.mon := rfl
@[simp] theorem setMt_failed (p : Fin 4) (h : MtSt → MtSt) : (s.setMt p h).failed = s.failed := rfl
@[simp] theorem setMt_phase (p : Fin 4) (h : MtSt → MtSt) : (s.setMt p h).phase = s.phase := rfl
@[simp] theorem setMt_loading (p : Fin 4) (h : MtSt → MtSt) : (s.setMt p h).loading = s.loading := rfl
@[simp] theorem setMt_qm (p : Fin 4) (h : MtSt → MtSt) : (s.setMt p h).qm = s.qm := rfl
@[simp] theorem setMt_port (p : Fin 4) (h : MtSt → MtSt) : (s.setMt p h).port = s.port := rfl
@[simp] theorem setMt_sealQ (p : Fin 4) (h : MtSt → MtSt) : (s.setMt p h).sealQ = s.sealQ := rfl
@[simp] theorem setMt_sealKey (p : Fin 4) (h : MtSt → MtSt) : (s.setMt p h).sealKey = s.sealKey := rfl
@[simp] theorem setMt_pwr (p : Fin 4) (h : MtSt → MtSt) : (s.setMt p h).pwr = s.pwr := rfl
@[simp] theorem setMt_cfgi (p : Fin 4) (h : MtSt → MtSt) : (s.setMt p h).cfgi = s.cfgi := rfl
@[simp] theorem setMt_sc (p : Fin 4) (h : MtSt → MtSt) : (s.setMt p h).sc = s.sc := rfl
@[simp] theorem setMt_faults (p : Fin 4) (h : MtSt → MtSt) : (s.setMt p h).faults = s.faults := rfl
@[simp] theorem setMt_pending (p : Fin 4) (h : MtSt → MtSt) : (s.setMt p h).pending = s.pending := rfl

/-! ### setDc -/

@[simp] theorem setDc_regs (c : Fin 16) (h : DcSt → DcSt) : (s.setDc c h).regs = s.regs := rfl
@[simp] theorem setDc_fixed (c : Fin 16) (h : DcSt → DcSt) : (s.setDc c h).fixed = s.fixed := rfl
@[simp] theorem setDc_latch (c : Fin 16) (h : DcSt → DcSt) : (s.setDc c h).latch = s.latch := rfl
@[simp] theorem setDc_owner (c : Fin 16) (h : DcSt → DcSt) : (s.setDc c h).owner = s.owner := rfl
@[simp] theorem setDc_pmap (c : Fin 16) (h : DcSt → DcSt) : (s.setDc c h).pmap = s.pmap := rfl
@[simp] theorem setDc_free (c : Fin 16) (h : DcSt → DcSt) : (s.setDc c h).free = s.free := rfl
@[simp] theorem setDc_tb (c : Fin 16) (h : DcSt → DcSt) : (s.setDc c h).tb = s.tb := rfl
@[simp] theorem setDc_ch (c : Fin 16) (h : DcSt → DcSt) : (s.setDc c h).ch = s.ch := rfl
@[simp] theorem setDc_grp (c : Fin 16) (h : DcSt → DcSt) : (s.setDc c h).grp = s.grp := rfl
@[simp] theorem setDc_trg (c : Fin 16) (h : DcSt → DcSt) : (s.setDc c h).trg = s.trg := rfl
@[simp] theorem setDc_iu (c : Fin 16) (h : DcSt → DcSt) : (s.setDc c h).iu = s.iu := rfl
@[simp] theorem setDc_xt (c : Fin 16) (h : DcSt → DcSt) : (s.setDc c h).xt = s.xt := rfl
@[simp] theorem setDc_eng (c : Fin 16) (h : DcSt → DcSt) : (s.setDc c h).eng = s.eng := rfl
@[simp] theorem setDc_gang (c : Fin 16) (h : DcSt → DcSt) : (s.setDc c h).gang = s.gang := rfl
@[simp] theorem setDc_sg (c : Fin 16) (h : DcSt → DcSt) : (s.setDc c h).sg = s.sg := rfl
@[simp] theorem setDc_grid (c : Fin 16) (h : DcSt → DcSt) : (s.setDc c h).grid = s.grid := rfl
@[simp] theorem setDc_sram (c : Fin 16) (h : DcSt → DcSt) : (s.setDc c h).sram = s.sram := rfl
@[simp] theorem setDc_sramBad (c : Fin 16) (h : DcSt → DcSt) : (s.setDc c h).sramBad = s.sramBad := rfl
@[simp] theorem setDc_arr (c : Fin 16) (h : DcSt → DcSt) : (s.setDc c h).arr = s.arr := rfl
@[simp] theorem setDc_mt (c : Fin 16) (h : DcSt → DcSt) : (s.setDc c h).mt = s.mt := rfl
@[simp] theorem setDc_resident (c : Fin 16) (h : DcSt → DcSt) : (s.setDc c h).resident = s.resident := rfl
@[simp] theorem setDc_cocoon (c : Fin 16) (h : DcSt → DcSt) : (s.setDc c h).cocoon = s.cocoon := rfl
@[simp] theorem setDc_asleep (c : Fin 16) (h : DcSt → DcSt) : (s.setDc c h).asleep = s.asleep := rfl
@[simp] theorem setDc_evt (c : Fin 16) (h : DcSt → DcSt) : (s.setDc c h).evt = s.evt := rfl
@[simp] theorem setDc_mem (c : Fin 16) (h : DcSt → DcSt) : (s.setDc c h).mem = s.mem := rfl
@[simp] theorem setDc_bad (c : Fin 16) (h : DcSt → DcSt) : (s.setDc c h).bad = s.bad := rfl
@[simp] theorem setDc_dcMap (c : Fin 16) (h : DcSt → DcSt) : (s.setDc c h).dcMap = s.dcMap := rfl
@[simp] theorem setDc_dc (c : Fin 16) (h : DcSt → DcSt) : (s.setDc c h).dc = s.dc.set c (h s.dc[c]) := rfl
@[simp] theorem setDc_fill (c : Fin 16) (h : DcSt → DcSt) : (s.setDc c h).fill = s.fill := rfl
@[simp] theorem setDc_winWait (c : Fin 16) (h : DcSt → DcSt) : (s.setDc c h).winWait = s.winWait := rfl
@[simp] theorem setDc_resp (c : Fin 16) (h : DcSt → DcSt) : (s.setDc c h).resp = s.resp := rfl
@[simp] theorem setDc_locked (c : Fin 16) (h : DcSt → DcSt) : (s.setDc c h).locked = s.locked := rfl
@[simp] theorem setDc_mon (c : Fin 16) (h : DcSt → DcSt) : (s.setDc c h).mon = s.mon := rfl
@[simp] theorem setDc_failed (c : Fin 16) (h : DcSt → DcSt) : (s.setDc c h).failed = s.failed := rfl
@[simp] theorem setDc_phase (c : Fin 16) (h : DcSt → DcSt) : (s.setDc c h).phase = s.phase := rfl
@[simp] theorem setDc_loading (c : Fin 16) (h : DcSt → DcSt) : (s.setDc c h).loading = s.loading := rfl
@[simp] theorem setDc_qm (c : Fin 16) (h : DcSt → DcSt) : (s.setDc c h).qm = s.qm := rfl
@[simp] theorem setDc_port (c : Fin 16) (h : DcSt → DcSt) : (s.setDc c h).port = s.port := rfl
@[simp] theorem setDc_sealQ (c : Fin 16) (h : DcSt → DcSt) : (s.setDc c h).sealQ = s.sealQ := rfl
@[simp] theorem setDc_sealKey (c : Fin 16) (h : DcSt → DcSt) : (s.setDc c h).sealKey = s.sealKey := rfl
@[simp] theorem setDc_pwr (c : Fin 16) (h : DcSt → DcSt) : (s.setDc c h).pwr = s.pwr := rfl
@[simp] theorem setDc_cfgi (c : Fin 16) (h : DcSt → DcSt) : (s.setDc c h).cfgi = s.cfgi := rfl
@[simp] theorem setDc_sc (c : Fin 16) (h : DcSt → DcSt) : (s.setDc c h).sc = s.sc := rfl
@[simp] theorem setDc_faults (c : Fin 16) (h : DcSt → DcSt) : (s.setDc c h).faults = s.faults := rfl
@[simp] theorem setDc_pending (c : Fin 16) (h : DcSt → DcSt) : (s.setDc c h).pending = s.pending := rfl

/-! ### setFill -/

@[simp] theorem setFill_regs (p : Fin 4) (h : FillSt → FillSt) : (s.setFill p h).regs = s.regs := rfl
@[simp] theorem setFill_fixed (p : Fin 4) (h : FillSt → FillSt) : (s.setFill p h).fixed = s.fixed := rfl
@[simp] theorem setFill_latch (p : Fin 4) (h : FillSt → FillSt) : (s.setFill p h).latch = s.latch := rfl
@[simp] theorem setFill_owner (p : Fin 4) (h : FillSt → FillSt) : (s.setFill p h).owner = s.owner := rfl
@[simp] theorem setFill_pmap (p : Fin 4) (h : FillSt → FillSt) : (s.setFill p h).pmap = s.pmap := rfl
@[simp] theorem setFill_free (p : Fin 4) (h : FillSt → FillSt) : (s.setFill p h).free = s.free := rfl
@[simp] theorem setFill_tb (p : Fin 4) (h : FillSt → FillSt) : (s.setFill p h).tb = s.tb := rfl
@[simp] theorem setFill_ch (p : Fin 4) (h : FillSt → FillSt) : (s.setFill p h).ch = s.ch := rfl
@[simp] theorem setFill_grp (p : Fin 4) (h : FillSt → FillSt) : (s.setFill p h).grp = s.grp := rfl
@[simp] theorem setFill_trg (p : Fin 4) (h : FillSt → FillSt) : (s.setFill p h).trg = s.trg := rfl
@[simp] theorem setFill_iu (p : Fin 4) (h : FillSt → FillSt) : (s.setFill p h).iu = s.iu := rfl
@[simp] theorem setFill_xt (p : Fin 4) (h : FillSt → FillSt) : (s.setFill p h).xt = s.xt := rfl
@[simp] theorem setFill_eng (p : Fin 4) (h : FillSt → FillSt) : (s.setFill p h).eng = s.eng := rfl
@[simp] theorem setFill_gang (p : Fin 4) (h : FillSt → FillSt) : (s.setFill p h).gang = s.gang := rfl
@[simp] theorem setFill_sg (p : Fin 4) (h : FillSt → FillSt) : (s.setFill p h).sg = s.sg := rfl
@[simp] theorem setFill_grid (p : Fin 4) (h : FillSt → FillSt) : (s.setFill p h).grid = s.grid := rfl
@[simp] theorem setFill_sram (p : Fin 4) (h : FillSt → FillSt) : (s.setFill p h).sram = s.sram := rfl
@[simp] theorem setFill_sramBad (p : Fin 4) (h : FillSt → FillSt) : (s.setFill p h).sramBad = s.sramBad := rfl
@[simp] theorem setFill_arr (p : Fin 4) (h : FillSt → FillSt) : (s.setFill p h).arr = s.arr := rfl
@[simp] theorem setFill_mt (p : Fin 4) (h : FillSt → FillSt) : (s.setFill p h).mt = s.mt := rfl
@[simp] theorem setFill_resident (p : Fin 4) (h : FillSt → FillSt) : (s.setFill p h).resident = s.resident := rfl
@[simp] theorem setFill_cocoon (p : Fin 4) (h : FillSt → FillSt) : (s.setFill p h).cocoon = s.cocoon := rfl
@[simp] theorem setFill_asleep (p : Fin 4) (h : FillSt → FillSt) : (s.setFill p h).asleep = s.asleep := rfl
@[simp] theorem setFill_evt (p : Fin 4) (h : FillSt → FillSt) : (s.setFill p h).evt = s.evt := rfl
@[simp] theorem setFill_mem (p : Fin 4) (h : FillSt → FillSt) : (s.setFill p h).mem = s.mem := rfl
@[simp] theorem setFill_bad (p : Fin 4) (h : FillSt → FillSt) : (s.setFill p h).bad = s.bad := rfl
@[simp] theorem setFill_dcMap (p : Fin 4) (h : FillSt → FillSt) : (s.setFill p h).dcMap = s.dcMap := rfl
@[simp] theorem setFill_dc (p : Fin 4) (h : FillSt → FillSt) : (s.setFill p h).dc = s.dc := rfl
@[simp] theorem setFill_fill (p : Fin 4) (h : FillSt → FillSt) : (s.setFill p h).fill = s.fill.set p (h s.fill[p]) := rfl
@[simp] theorem setFill_winWait (p : Fin 4) (h : FillSt → FillSt) : (s.setFill p h).winWait = s.winWait := rfl
@[simp] theorem setFill_resp (p : Fin 4) (h : FillSt → FillSt) : (s.setFill p h).resp = s.resp := rfl
@[simp] theorem setFill_locked (p : Fin 4) (h : FillSt → FillSt) : (s.setFill p h).locked = s.locked := rfl
@[simp] theorem setFill_mon (p : Fin 4) (h : FillSt → FillSt) : (s.setFill p h).mon = s.mon := rfl
@[simp] theorem setFill_failed (p : Fin 4) (h : FillSt → FillSt) : (s.setFill p h).failed = s.failed := rfl
@[simp] theorem setFill_phase (p : Fin 4) (h : FillSt → FillSt) : (s.setFill p h).phase = s.phase := rfl
@[simp] theorem setFill_loading (p : Fin 4) (h : FillSt → FillSt) : (s.setFill p h).loading = s.loading := rfl
@[simp] theorem setFill_qm (p : Fin 4) (h : FillSt → FillSt) : (s.setFill p h).qm = s.qm := rfl
@[simp] theorem setFill_port (p : Fin 4) (h : FillSt → FillSt) : (s.setFill p h).port = s.port := rfl
@[simp] theorem setFill_sealQ (p : Fin 4) (h : FillSt → FillSt) : (s.setFill p h).sealQ = s.sealQ := rfl
@[simp] theorem setFill_sealKey (p : Fin 4) (h : FillSt → FillSt) : (s.setFill p h).sealKey = s.sealKey := rfl
@[simp] theorem setFill_pwr (p : Fin 4) (h : FillSt → FillSt) : (s.setFill p h).pwr = s.pwr := rfl
@[simp] theorem setFill_cfgi (p : Fin 4) (h : FillSt → FillSt) : (s.setFill p h).cfgi = s.cfgi := rfl
@[simp] theorem setFill_sc (p : Fin 4) (h : FillSt → FillSt) : (s.setFill p h).sc = s.sc := rfl
@[simp] theorem setFill_faults (p : Fin 4) (h : FillSt → FillSt) : (s.setFill p h).faults = s.faults := rfl
@[simp] theorem setFill_pending (p : Fin 4) (h : FillSt → FillSt) : (s.setFill p h).pending = s.pending := rfl

/-! ### setMon -/

@[simp] theorem setMon_regs (m : Fin 32) (h : MonSt → MonSt) : (s.setMon m h).regs = s.regs := rfl
@[simp] theorem setMon_fixed (m : Fin 32) (h : MonSt → MonSt) : (s.setMon m h).fixed = s.fixed := rfl
@[simp] theorem setMon_latch (m : Fin 32) (h : MonSt → MonSt) : (s.setMon m h).latch = s.latch := rfl
@[simp] theorem setMon_owner (m : Fin 32) (h : MonSt → MonSt) : (s.setMon m h).owner = s.owner := rfl
@[simp] theorem setMon_pmap (m : Fin 32) (h : MonSt → MonSt) : (s.setMon m h).pmap = s.pmap := rfl
@[simp] theorem setMon_free (m : Fin 32) (h : MonSt → MonSt) : (s.setMon m h).free = s.free := rfl
@[simp] theorem setMon_tb (m : Fin 32) (h : MonSt → MonSt) : (s.setMon m h).tb = s.tb := rfl
@[simp] theorem setMon_ch (m : Fin 32) (h : MonSt → MonSt) : (s.setMon m h).ch = s.ch := rfl
@[simp] theorem setMon_grp (m : Fin 32) (h : MonSt → MonSt) : (s.setMon m h).grp = s.grp := rfl
@[simp] theorem setMon_trg (m : Fin 32) (h : MonSt → MonSt) : (s.setMon m h).trg = s.trg := rfl
@[simp] theorem setMon_iu (m : Fin 32) (h : MonSt → MonSt) : (s.setMon m h).iu = s.iu := rfl
@[simp] theorem setMon_xt (m : Fin 32) (h : MonSt → MonSt) : (s.setMon m h).xt = s.xt := rfl
@[simp] theorem setMon_eng (m : Fin 32) (h : MonSt → MonSt) : (s.setMon m h).eng = s.eng := rfl
@[simp] theorem setMon_gang (m : Fin 32) (h : MonSt → MonSt) : (s.setMon m h).gang = s.gang := rfl
@[simp] theorem setMon_sg (m : Fin 32) (h : MonSt → MonSt) : (s.setMon m h).sg = s.sg := rfl
@[simp] theorem setMon_grid (m : Fin 32) (h : MonSt → MonSt) : (s.setMon m h).grid = s.grid := rfl
@[simp] theorem setMon_sram (m : Fin 32) (h : MonSt → MonSt) : (s.setMon m h).sram = s.sram := rfl
@[simp] theorem setMon_sramBad (m : Fin 32) (h : MonSt → MonSt) : (s.setMon m h).sramBad = s.sramBad := rfl
@[simp] theorem setMon_arr (m : Fin 32) (h : MonSt → MonSt) : (s.setMon m h).arr = s.arr := rfl
@[simp] theorem setMon_mt (m : Fin 32) (h : MonSt → MonSt) : (s.setMon m h).mt = s.mt := rfl
@[simp] theorem setMon_resident (m : Fin 32) (h : MonSt → MonSt) : (s.setMon m h).resident = s.resident := rfl
@[simp] theorem setMon_cocoon (m : Fin 32) (h : MonSt → MonSt) : (s.setMon m h).cocoon = s.cocoon := rfl
@[simp] theorem setMon_asleep (m : Fin 32) (h : MonSt → MonSt) : (s.setMon m h).asleep = s.asleep := rfl
@[simp] theorem setMon_evt (m : Fin 32) (h : MonSt → MonSt) : (s.setMon m h).evt = s.evt := rfl
@[simp] theorem setMon_mem (m : Fin 32) (h : MonSt → MonSt) : (s.setMon m h).mem = s.mem := rfl
@[simp] theorem setMon_bad (m : Fin 32) (h : MonSt → MonSt) : (s.setMon m h).bad = s.bad := rfl
@[simp] theorem setMon_dcMap (m : Fin 32) (h : MonSt → MonSt) : (s.setMon m h).dcMap = s.dcMap := rfl
@[simp] theorem setMon_dc (m : Fin 32) (h : MonSt → MonSt) : (s.setMon m h).dc = s.dc := rfl
@[simp] theorem setMon_fill (m : Fin 32) (h : MonSt → MonSt) : (s.setMon m h).fill = s.fill := rfl
@[simp] theorem setMon_winWait (m : Fin 32) (h : MonSt → MonSt) : (s.setMon m h).winWait = s.winWait := rfl
@[simp] theorem setMon_resp (m : Fin 32) (h : MonSt → MonSt) : (s.setMon m h).resp = s.resp := rfl
@[simp] theorem setMon_locked (m : Fin 32) (h : MonSt → MonSt) : (s.setMon m h).locked = s.locked := rfl
@[simp] theorem setMon_mon (m : Fin 32) (h : MonSt → MonSt) : (s.setMon m h).mon = s.mon.set m (h s.mon[m]) := rfl
@[simp] theorem setMon_failed (m : Fin 32) (h : MonSt → MonSt) : (s.setMon m h).failed = s.failed := rfl
@[simp] theorem setMon_phase (m : Fin 32) (h : MonSt → MonSt) : (s.setMon m h).phase = s.phase := rfl
@[simp] theorem setMon_loading (m : Fin 32) (h : MonSt → MonSt) : (s.setMon m h).loading = s.loading := rfl
@[simp] theorem setMon_qm (m : Fin 32) (h : MonSt → MonSt) : (s.setMon m h).qm = s.qm := rfl
@[simp] theorem setMon_port (m : Fin 32) (h : MonSt → MonSt) : (s.setMon m h).port = s.port := rfl
@[simp] theorem setMon_sealQ (m : Fin 32) (h : MonSt → MonSt) : (s.setMon m h).sealQ = s.sealQ := rfl
@[simp] theorem setMon_sealKey (m : Fin 32) (h : MonSt → MonSt) : (s.setMon m h).sealKey = s.sealKey := rfl
@[simp] theorem setMon_pwr (m : Fin 32) (h : MonSt → MonSt) : (s.setMon m h).pwr = s.pwr := rfl
@[simp] theorem setMon_cfgi (m : Fin 32) (h : MonSt → MonSt) : (s.setMon m h).cfgi = s.cfgi := rfl
@[simp] theorem setMon_sc (m : Fin 32) (h : MonSt → MonSt) : (s.setMon m h).sc = s.sc := rfl
@[simp] theorem setMon_faults (m : Fin 32) (h : MonSt → MonSt) : (s.setMon m h).faults = s.faults := rfl
@[simp] theorem setMon_pending (m : Fin 32) (h : MonSt → MonSt) : (s.setMon m h).pending = s.pending := rfl

/-! ### setPwr -/

@[simp] theorem setPwr_regs (h : PwrSt → PwrSt) : (s.setPwr h).regs = s.regs := rfl
@[simp] theorem setPwr_fixed (h : PwrSt → PwrSt) : (s.setPwr h).fixed = s.fixed := rfl
@[simp] theorem setPwr_latch (h : PwrSt → PwrSt) : (s.setPwr h).latch = s.latch := rfl
@[simp] theorem setPwr_owner (h : PwrSt → PwrSt) : (s.setPwr h).owner = s.owner := rfl
@[simp] theorem setPwr_pmap (h : PwrSt → PwrSt) : (s.setPwr h).pmap = s.pmap := rfl
@[simp] theorem setPwr_free (h : PwrSt → PwrSt) : (s.setPwr h).free = s.free := rfl
@[simp] theorem setPwr_tb (h : PwrSt → PwrSt) : (s.setPwr h).tb = s.tb := rfl
@[simp] theorem setPwr_ch (h : PwrSt → PwrSt) : (s.setPwr h).ch = s.ch := rfl
@[simp] theorem setPwr_grp (h : PwrSt → PwrSt) : (s.setPwr h).grp = s.grp := rfl
@[simp] theorem setPwr_trg (h : PwrSt → PwrSt) : (s.setPwr h).trg = s.trg := rfl
@[simp] theorem setPwr_iu (h : PwrSt → PwrSt) : (s.setPwr h).iu = s.iu := rfl
@[simp] theorem setPwr_xt (h : PwrSt → PwrSt) : (s.setPwr h).xt = s.xt := rfl
@[simp] theorem setPwr_eng (h : PwrSt → PwrSt) : (s.setPwr h).eng = s.eng := rfl
@[simp] theorem setPwr_gang (h : PwrSt → PwrSt) : (s.setPwr h).gang = s.gang := rfl
@[simp] theorem setPwr_sg (h : PwrSt → PwrSt) : (s.setPwr h).sg = s.sg := rfl
@[simp] theorem setPwr_grid (h : PwrSt → PwrSt) : (s.setPwr h).grid = s.grid := rfl
@[simp] theorem setPwr_sram (h : PwrSt → PwrSt) : (s.setPwr h).sram = s.sram := rfl
@[simp] theorem setPwr_sramBad (h : PwrSt → PwrSt) : (s.setPwr h).sramBad = s.sramBad := rfl
@[simp] theorem setPwr_arr (h : PwrSt → PwrSt) : (s.setPwr h).arr = s.arr := rfl
@[simp] theorem setPwr_mt (h : PwrSt → PwrSt) : (s.setPwr h).mt = s.mt := rfl
@[simp] theorem setPwr_resident (h : PwrSt → PwrSt) : (s.setPwr h).resident = s.resident := rfl
@[simp] theorem setPwr_cocoon (h : PwrSt → PwrSt) : (s.setPwr h).cocoon = s.cocoon := rfl
@[simp] theorem setPwr_asleep (h : PwrSt → PwrSt) : (s.setPwr h).asleep = s.asleep := rfl
@[simp] theorem setPwr_evt (h : PwrSt → PwrSt) : (s.setPwr h).evt = s.evt := rfl
@[simp] theorem setPwr_mem (h : PwrSt → PwrSt) : (s.setPwr h).mem = s.mem := rfl
@[simp] theorem setPwr_bad (h : PwrSt → PwrSt) : (s.setPwr h).bad = s.bad := rfl
@[simp] theorem setPwr_dcMap (h : PwrSt → PwrSt) : (s.setPwr h).dcMap = s.dcMap := rfl
@[simp] theorem setPwr_dc (h : PwrSt → PwrSt) : (s.setPwr h).dc = s.dc := rfl
@[simp] theorem setPwr_fill (h : PwrSt → PwrSt) : (s.setPwr h).fill = s.fill := rfl
@[simp] theorem setPwr_winWait (h : PwrSt → PwrSt) : (s.setPwr h).winWait = s.winWait := rfl
@[simp] theorem setPwr_resp (h : PwrSt → PwrSt) : (s.setPwr h).resp = s.resp := rfl
@[simp] theorem setPwr_locked (h : PwrSt → PwrSt) : (s.setPwr h).locked = s.locked := rfl
@[simp] theorem setPwr_mon (h : PwrSt → PwrSt) : (s.setPwr h).mon = s.mon := rfl
@[simp] theorem setPwr_failed (h : PwrSt → PwrSt) : (s.setPwr h).failed = s.failed := rfl
@[simp] theorem setPwr_phase (h : PwrSt → PwrSt) : (s.setPwr h).phase = s.phase := rfl
@[simp] theorem setPwr_loading (h : PwrSt → PwrSt) : (s.setPwr h).loading = s.loading := rfl
@[simp] theorem setPwr_qm (h : PwrSt → PwrSt) : (s.setPwr h).qm = s.qm := rfl
@[simp] theorem setPwr_port (h : PwrSt → PwrSt) : (s.setPwr h).port = s.port := rfl
@[simp] theorem setPwr_sealQ (h : PwrSt → PwrSt) : (s.setPwr h).sealQ = s.sealQ := rfl
@[simp] theorem setPwr_sealKey (h : PwrSt → PwrSt) : (s.setPwr h).sealKey = s.sealKey := rfl
@[simp] theorem setPwr_pwr (h : PwrSt → PwrSt) : (s.setPwr h).pwr = h s.pwr := rfl
@[simp] theorem setPwr_cfgi (h : PwrSt → PwrSt) : (s.setPwr h).cfgi = s.cfgi := rfl
@[simp] theorem setPwr_sc (h : PwrSt → PwrSt) : (s.setPwr h).sc = s.sc := rfl
@[simp] theorem setPwr_faults (h : PwrSt → PwrSt) : (s.setPwr h).faults = s.faults := rfl
@[simp] theorem setPwr_pending (h : PwrSt → PwrSt) : (s.setPwr h).pending = s.pending := rfl

/-! ### setSc -/

@[simp] theorem setSc_regs (h : ScSt → ScSt) : (s.setSc h).regs = s.regs := rfl
@[simp] theorem setSc_fixed (h : ScSt → ScSt) : (s.setSc h).fixed = s.fixed := rfl
@[simp] theorem setSc_latch (h : ScSt → ScSt) : (s.setSc h).latch = s.latch := rfl
@[simp] theorem setSc_owner (h : ScSt → ScSt) : (s.setSc h).owner = s.owner := rfl
@[simp] theorem setSc_pmap (h : ScSt → ScSt) : (s.setSc h).pmap = s.pmap := rfl
@[simp] theorem setSc_free (h : ScSt → ScSt) : (s.setSc h).free = s.free := rfl
@[simp] theorem setSc_tb (h : ScSt → ScSt) : (s.setSc h).tb = s.tb := rfl
@[simp] theorem setSc_ch (h : ScSt → ScSt) : (s.setSc h).ch = s.ch := rfl
@[simp] theorem setSc_grp (h : ScSt → ScSt) : (s.setSc h).grp = s.grp := rfl
@[simp] theorem setSc_trg (h : ScSt → ScSt) : (s.setSc h).trg = s.trg := rfl
@[simp] theorem setSc_iu (h : ScSt → ScSt) : (s.setSc h).iu = s.iu := rfl
@[simp] theorem setSc_xt (h : ScSt → ScSt) : (s.setSc h).xt = s.xt := rfl
@[simp] theorem setSc_eng (h : ScSt → ScSt) : (s.setSc h).eng = s.eng := rfl
@[simp] theorem setSc_gang (h : ScSt → ScSt) : (s.setSc h).gang = s.gang := rfl
@[simp] theorem setSc_sg (h : ScSt → ScSt) : (s.setSc h).sg = s.sg := rfl
@[simp] theorem setSc_grid (h : ScSt → ScSt) : (s.setSc h).grid = s.grid := rfl
@[simp] theorem setSc_sram (h : ScSt → ScSt) : (s.setSc h).sram = s.sram := rfl
@[simp] theorem setSc_sramBad (h : ScSt → ScSt) : (s.setSc h).sramBad = s.sramBad := rfl
@[simp] theorem setSc_arr (h : ScSt → ScSt) : (s.setSc h).arr = s.arr := rfl
@[simp] theorem setSc_mt (h : ScSt → ScSt) : (s.setSc h).mt = s.mt := rfl
@[simp] theorem setSc_resident (h : ScSt → ScSt) : (s.setSc h).resident = s.resident := rfl
@[simp] theorem setSc_cocoon (h : ScSt → ScSt) : (s.setSc h).cocoon = s.cocoon := rfl
@[simp] theorem setSc_asleep (h : ScSt → ScSt) : (s.setSc h).asleep = s.asleep := rfl
@[simp] theorem setSc_evt (h : ScSt → ScSt) : (s.setSc h).evt = s.evt := rfl
@[simp] theorem setSc_mem (h : ScSt → ScSt) : (s.setSc h).mem = s.mem := rfl
@[simp] theorem setSc_bad (h : ScSt → ScSt) : (s.setSc h).bad = s.bad := rfl
@[simp] theorem setSc_dcMap (h : ScSt → ScSt) : (s.setSc h).dcMap = s.dcMap := rfl
@[simp] theorem setSc_dc (h : ScSt → ScSt) : (s.setSc h).dc = s.dc := rfl
@[simp] theorem setSc_fill (h : ScSt → ScSt) : (s.setSc h).fill = s.fill := rfl
@[simp] theorem setSc_winWait (h : ScSt → ScSt) : (s.setSc h).winWait = s.winWait := rfl
@[simp] theorem setSc_resp (h : ScSt → ScSt) : (s.setSc h).resp = s.resp := rfl
@[simp] theorem setSc_locked (h : ScSt → ScSt) : (s.setSc h).locked = s.locked := rfl
@[simp] theorem setSc_mon (h : ScSt → ScSt) : (s.setSc h).mon = s.mon := rfl
@[simp] theorem setSc_failed (h : ScSt → ScSt) : (s.setSc h).failed = s.failed := rfl
@[simp] theorem setSc_phase (h : ScSt → ScSt) : (s.setSc h).phase = s.phase := rfl
@[simp] theorem setSc_loading (h : ScSt → ScSt) : (s.setSc h).loading = s.loading := rfl
@[simp] theorem setSc_qm (h : ScSt → ScSt) : (s.setSc h).qm = s.qm := rfl
@[simp] theorem setSc_port (h : ScSt → ScSt) : (s.setSc h).port = s.port := rfl
@[simp] theorem setSc_sealQ (h : ScSt → ScSt) : (s.setSc h).sealQ = s.sealQ := rfl
@[simp] theorem setSc_sealKey (h : ScSt → ScSt) : (s.setSc h).sealKey = s.sealKey := rfl
@[simp] theorem setSc_pwr (h : ScSt → ScSt) : (s.setSc h).pwr = s.pwr := rfl
@[simp] theorem setSc_cfgi (h : ScSt → ScSt) : (s.setSc h).cfgi = s.cfgi := rfl
@[simp] theorem setSc_sc (h : ScSt → ScSt) : (s.setSc h).sc = h s.sc := rfl
@[simp] theorem setSc_faults (h : ScSt → ScSt) : (s.setSc h).faults = s.faults := rfl
@[simp] theorem setSc_pending (h : ScSt → ScSt) : (s.setSc h).pending = s.pending := rfl

/-! ### setCfgi -/

@[simp] theorem setCfgi_regs (p : Fin 4) (h : CfgiSt → CfgiSt) : (s.setCfgi p h).regs = s.regs := rfl
@[simp] theorem setCfgi_fixed (p : Fin 4) (h : CfgiSt → CfgiSt) : (s.setCfgi p h).fixed = s.fixed := rfl
@[simp] theorem setCfgi_latch (p : Fin 4) (h : CfgiSt → CfgiSt) : (s.setCfgi p h).latch = s.latch := rfl
@[simp] theorem setCfgi_owner (p : Fin 4) (h : CfgiSt → CfgiSt) : (s.setCfgi p h).owner = s.owner := rfl
@[simp] theorem setCfgi_pmap (p : Fin 4) (h : CfgiSt → CfgiSt) : (s.setCfgi p h).pmap = s.pmap := rfl
@[simp] theorem setCfgi_free (p : Fin 4) (h : CfgiSt → CfgiSt) : (s.setCfgi p h).free = s.free := rfl
@[simp] theorem setCfgi_tb (p : Fin 4) (h : CfgiSt → CfgiSt) : (s.setCfgi p h).tb = s.tb := rfl
@[simp] theorem setCfgi_ch (p : Fin 4) (h : CfgiSt → CfgiSt) : (s.setCfgi p h).ch = s.ch := rfl
@[simp] theorem setCfgi_grp (p : Fin 4) (h : CfgiSt → CfgiSt) : (s.setCfgi p h).grp = s.grp := rfl
@[simp] theorem setCfgi_trg (p : Fin 4) (h : CfgiSt → CfgiSt) : (s.setCfgi p h).trg = s.trg := rfl
@[simp] theorem setCfgi_iu (p : Fin 4) (h : CfgiSt → CfgiSt) : (s.setCfgi p h).iu = s.iu := rfl
@[simp] theorem setCfgi_xt (p : Fin 4) (h : CfgiSt → CfgiSt) : (s.setCfgi p h).xt = s.xt := rfl
@[simp] theorem setCfgi_eng (p : Fin 4) (h : CfgiSt → CfgiSt) : (s.setCfgi p h).eng = s.eng := rfl
@[simp] theorem setCfgi_gang (p : Fin 4) (h : CfgiSt → CfgiSt) : (s.setCfgi p h).gang = s.gang := rfl
@[simp] theorem setCfgi_sg (p : Fin 4) (h : CfgiSt → CfgiSt) : (s.setCfgi p h).sg = s.sg := rfl
@[simp] theorem setCfgi_grid (p : Fin 4) (h : CfgiSt → CfgiSt) : (s.setCfgi p h).grid = s.grid := rfl
@[simp] theorem setCfgi_sram (p : Fin 4) (h : CfgiSt → CfgiSt) : (s.setCfgi p h).sram = s.sram := rfl
@[simp] theorem setCfgi_sramBad (p : Fin 4) (h : CfgiSt → CfgiSt) : (s.setCfgi p h).sramBad = s.sramBad := rfl
@[simp] theorem setCfgi_arr (p : Fin 4) (h : CfgiSt → CfgiSt) : (s.setCfgi p h).arr = s.arr := rfl
@[simp] theorem setCfgi_mt (p : Fin 4) (h : CfgiSt → CfgiSt) : (s.setCfgi p h).mt = s.mt := rfl
@[simp] theorem setCfgi_resident (p : Fin 4) (h : CfgiSt → CfgiSt) : (s.setCfgi p h).resident = s.resident := rfl
@[simp] theorem setCfgi_cocoon (p : Fin 4) (h : CfgiSt → CfgiSt) : (s.setCfgi p h).cocoon = s.cocoon := rfl
@[simp] theorem setCfgi_asleep (p : Fin 4) (h : CfgiSt → CfgiSt) : (s.setCfgi p h).asleep = s.asleep := rfl
@[simp] theorem setCfgi_evt (p : Fin 4) (h : CfgiSt → CfgiSt) : (s.setCfgi p h).evt = s.evt := rfl
@[simp] theorem setCfgi_mem (p : Fin 4) (h : CfgiSt → CfgiSt) : (s.setCfgi p h).mem = s.mem := rfl
@[simp] theorem setCfgi_bad (p : Fin 4) (h : CfgiSt → CfgiSt) : (s.setCfgi p h).bad = s.bad := rfl
@[simp] theorem setCfgi_dcMap (p : Fin 4) (h : CfgiSt → CfgiSt) : (s.setCfgi p h).dcMap = s.dcMap := rfl
@[simp] theorem setCfgi_dc (p : Fin 4) (h : CfgiSt → CfgiSt) : (s.setCfgi p h).dc = s.dc := rfl
@[simp] theorem setCfgi_fill (p : Fin 4) (h : CfgiSt → CfgiSt) : (s.setCfgi p h).fill = s.fill := rfl
@[simp] theorem setCfgi_winWait (p : Fin 4) (h : CfgiSt → CfgiSt) : (s.setCfgi p h).winWait = s.winWait := rfl
@[simp] theorem setCfgi_resp (p : Fin 4) (h : CfgiSt → CfgiSt) : (s.setCfgi p h).resp = s.resp := rfl
@[simp] theorem setCfgi_locked (p : Fin 4) (h : CfgiSt → CfgiSt) : (s.setCfgi p h).locked = s.locked := rfl
@[simp] theorem setCfgi_mon (p : Fin 4) (h : CfgiSt → CfgiSt) : (s.setCfgi p h).mon = s.mon := rfl
@[simp] theorem setCfgi_failed (p : Fin 4) (h : CfgiSt → CfgiSt) : (s.setCfgi p h).failed = s.failed := rfl
@[simp] theorem setCfgi_phase (p : Fin 4) (h : CfgiSt → CfgiSt) : (s.setCfgi p h).phase = s.phase := rfl
@[simp] theorem setCfgi_loading (p : Fin 4) (h : CfgiSt → CfgiSt) : (s.setCfgi p h).loading = s.loading := rfl
@[simp] theorem setCfgi_qm (p : Fin 4) (h : CfgiSt → CfgiSt) : (s.setCfgi p h).qm = s.qm := rfl
@[simp] theorem setCfgi_port (p : Fin 4) (h : CfgiSt → CfgiSt) : (s.setCfgi p h).port = s.port := rfl
@[simp] theorem setCfgi_sealQ (p : Fin 4) (h : CfgiSt → CfgiSt) : (s.setCfgi p h).sealQ = s.sealQ := rfl
@[simp] theorem setCfgi_sealKey (p : Fin 4) (h : CfgiSt → CfgiSt) : (s.setCfgi p h).sealKey = s.sealKey := rfl
@[simp] theorem setCfgi_pwr (p : Fin 4) (h : CfgiSt → CfgiSt) : (s.setCfgi p h).pwr = s.pwr := rfl
@[simp] theorem setCfgi_cfgi (p : Fin 4) (h : CfgiSt → CfgiSt) : (s.setCfgi p h).cfgi = s.cfgi.set p (h s.cfgi[p]) := rfl
@[simp] theorem setCfgi_sc (p : Fin 4) (h : CfgiSt → CfgiSt) : (s.setCfgi p h).sc = s.sc := rfl
@[simp] theorem setCfgi_faults (p : Fin 4) (h : CfgiSt → CfgiSt) : (s.setCfgi p h).faults = s.faults := rfl
@[simp] theorem setCfgi_pending (p : Fin 4) (h : CfgiSt → CfgiSt) : (s.setCfgi p h).pending = s.pending := rfl

/-! ### memSet -/

@[simp] theorem memSet_regs (a : Nat) (b : Byte) : (s.memSet a b).regs = s.regs := rfl
@[simp] theorem memSet_fixed (a : Nat) (b : Byte) : (s.memSet a b).fixed = s.fixed := rfl
@[simp] theorem memSet_latch (a : Nat) (b : Byte) : (s.memSet a b).latch = s.latch := rfl
@[simp] theorem memSet_owner (a : Nat) (b : Byte) : (s.memSet a b).owner = s.owner := rfl
@[simp] theorem memSet_pmap (a : Nat) (b : Byte) : (s.memSet a b).pmap = s.pmap := rfl
@[simp] theorem memSet_free (a : Nat) (b : Byte) : (s.memSet a b).free = s.free := rfl
@[simp] theorem memSet_tb (a : Nat) (b : Byte) : (s.memSet a b).tb = s.tb := rfl
@[simp] theorem memSet_ch (a : Nat) (b : Byte) : (s.memSet a b).ch = s.ch := rfl
@[simp] theorem memSet_grp (a : Nat) (b : Byte) : (s.memSet a b).grp = s.grp := rfl
@[simp] theorem memSet_trg (a : Nat) (b : Byte) : (s.memSet a b).trg = s.trg := rfl
@[simp] theorem memSet_iu (a : Nat) (b : Byte) : (s.memSet a b).iu = s.iu := rfl
@[simp] theorem memSet_xt (a : Nat) (b : Byte) : (s.memSet a b).xt = s.xt := rfl
@[simp] theorem memSet_eng (a : Nat) (b : Byte) : (s.memSet a b).eng = s.eng := rfl
@[simp] theorem memSet_gang (a : Nat) (b : Byte) : (s.memSet a b).gang = s.gang := rfl
@[simp] theorem memSet_sg (a : Nat) (b : Byte) : (s.memSet a b).sg = s.sg := rfl
@[simp] theorem memSet_grid (a : Nat) (b : Byte) : (s.memSet a b).grid = s.grid := rfl
@[simp] theorem memSet_sram (a : Nat) (b : Byte) : (s.memSet a b).sram = s.sram := rfl
@[simp] theorem memSet_sramBad (a : Nat) (b : Byte) : (s.memSet a b).sramBad = s.sramBad := rfl
@[simp] theorem memSet_arr (a : Nat) (b : Byte) : (s.memSet a b).arr = s.arr := rfl
@[simp] theorem memSet_mt (a : Nat) (b : Byte) : (s.memSet a b).mt = s.mt := rfl
@[simp] theorem memSet_resident (a : Nat) (b : Byte) : (s.memSet a b).resident = s.resident := rfl
@[simp] theorem memSet_cocoon (a : Nat) (b : Byte) : (s.memSet a b).cocoon = s.cocoon := rfl
@[simp] theorem memSet_asleep (a : Nat) (b : Byte) : (s.memSet a b).asleep = s.asleep := rfl
@[simp] theorem memSet_evt (a : Nat) (b : Byte) : (s.memSet a b).evt = s.evt := rfl
@[simp] theorem memSet_mem (a : Nat) (b : Byte) : (s.memSet a b).mem = Tab.set (fun _ => 0#8) s.mem a b := rfl
@[simp] theorem memSet_bad (a : Nat) (b : Byte) : (s.memSet a b).bad = s.bad := rfl
@[simp] theorem memSet_dcMap (a : Nat) (b : Byte) : (s.memSet a b).dcMap = s.dcMap := rfl
@[simp] theorem memSet_dc (a : Nat) (b : Byte) : (s.memSet a b).dc = s.dc := rfl
@[simp] theorem memSet_fill (a : Nat) (b : Byte) : (s.memSet a b).fill = s.fill := rfl
@[simp] theorem memSet_winWait (a : Nat) (b : Byte) : (s.memSet a b).winWait = s.winWait := rfl
@[simp] theorem memSet_resp (a : Nat) (b : Byte) : (s.memSet a b).resp = s.resp := rfl
@[simp] theorem memSet_locked (a : Nat) (b : Byte) : (s.memSet a b).locked = s.locked := rfl
@[simp] theorem memSet_mon (a : Nat) (b : Byte) : (s.memSet a b).mon = s.mon := rfl
@[simp] theorem memSet_failed (a : Nat) (b : Byte) : (s.memSet a b).failed = s.failed := rfl
@[simp] theorem memSet_phase (a : Nat) (b : Byte) : (s.memSet a b).phase = s.phase := rfl
@[simp] theorem memSet_loading (a : Nat) (b : Byte) : (s.memSet a b).loading = s.loading := rfl
@[simp] theorem memSet_qm (a : Nat) (b : Byte) : (s.memSet a b).qm = s.qm := rfl
@[simp] theorem memSet_port (a : Nat) (b : Byte) : (s.memSet a b).port = s.port := rfl
@[simp] theorem memSet_sealQ (a : Nat) (b : Byte) : (s.memSet a b).sealQ = s.sealQ := rfl
@[simp] theorem memSet_sealKey (a : Nat) (b : Byte) : (s.memSet a b).sealKey = s.sealKey := rfl
@[simp] theorem memSet_pwr (a : Nat) (b : Byte) : (s.memSet a b).pwr = s.pwr := rfl
@[simp] theorem memSet_cfgi (a : Nat) (b : Byte) : (s.memSet a b).cfgi = s.cfgi := rfl
@[simp] theorem memSet_sc (a : Nat) (b : Byte) : (s.memSet a b).sc = s.sc := rfl
@[simp] theorem memSet_faults (a : Nat) (b : Byte) : (s.memSet a b).faults = s.faults := rfl
@[simp] theorem memSet_pending (a : Nat) (b : Byte) : (s.memSet a b).pending = s.pending := rfl

/-! ### sramWr -/

@[simp] theorem sramWr_regs (k : Nat) (w : Word) : (s.sramWr k w).regs = s.regs := rfl
@[simp] theorem sramWr_fixed (k : Nat) (w : Word) : (s.sramWr k w).fixed = s.fixed := rfl
@[simp] theorem sramWr_latch (k : Nat) (w : Word) : (s.sramWr k w).latch = s.latch := rfl
@[simp] theorem sramWr_owner (k : Nat) (w : Word) : (s.sramWr k w).owner = s.owner := rfl
@[simp] theorem sramWr_pmap (k : Nat) (w : Word) : (s.sramWr k w).pmap = s.pmap := rfl
@[simp] theorem sramWr_free (k : Nat) (w : Word) : (s.sramWr k w).free = s.free := rfl
@[simp] theorem sramWr_tb (k : Nat) (w : Word) : (s.sramWr k w).tb = s.tb := rfl
@[simp] theorem sramWr_ch (k : Nat) (w : Word) : (s.sramWr k w).ch = s.ch := rfl
@[simp] theorem sramWr_grp (k : Nat) (w : Word) : (s.sramWr k w).grp = s.grp := rfl
@[simp] theorem sramWr_trg (k : Nat) (w : Word) : (s.sramWr k w).trg = s.trg := rfl
@[simp] theorem sramWr_iu (k : Nat) (w : Word) : (s.sramWr k w).iu = s.iu := rfl
@[simp] theorem sramWr_xt (k : Nat) (w : Word) : (s.sramWr k w).xt = s.xt := rfl
@[simp] theorem sramWr_eng (k : Nat) (w : Word) : (s.sramWr k w).eng = s.eng := rfl
@[simp] theorem sramWr_gang (k : Nat) (w : Word) : (s.sramWr k w).gang = s.gang := rfl
@[simp] theorem sramWr_sg (k : Nat) (w : Word) : (s.sramWr k w).sg = s.sg := rfl
@[simp] theorem sramWr_grid (k : Nat) (w : Word) : (s.sramWr k w).grid = s.grid := rfl
@[simp] theorem sramWr_arr (k : Nat) (w : Word) : (s.sramWr k w).arr = s.arr := rfl
@[simp] theorem sramWr_mt (k : Nat) (w : Word) : (s.sramWr k w).mt = s.mt := rfl
@[simp] theorem sramWr_resident (k : Nat) (w : Word) : (s.sramWr k w).resident = s.resident := rfl
@[simp] theorem sramWr_cocoon (k : Nat) (w : Word) : (s.sramWr k w).cocoon = s.cocoon := rfl
@[simp] theorem sramWr_asleep (k : Nat) (w : Word) : (s.sramWr k w).asleep = s.asleep := rfl
@[simp] theorem sramWr_evt (k : Nat) (w : Word) : (s.sramWr k w).evt = s.evt := rfl
@[simp] theorem sramWr_mem (k : Nat) (w : Word) : (s.sramWr k w).mem = s.mem := rfl
@[simp] theorem sramWr_bad (k : Nat) (w : Word) : (s.sramWr k w).bad = s.bad := rfl
@[simp] theorem sramWr_dcMap (k : Nat) (w : Word) : (s.sramWr k w).dcMap = s.dcMap := rfl
@[simp] theorem sramWr_dc (k : Nat) (w : Word) : (s.sramWr k w).dc = s.dc := rfl
@[simp] theorem sramWr_fill (k : Nat) (w : Word) : (s.sramWr k w).fill = s.fill := rfl
@[simp] theorem sramWr_winWait (k : Nat) (w : Word) : (s.sramWr k w).winWait = s.winWait := rfl
@[simp] theorem sramWr_resp (k : Nat) (w : Word) : (s.sramWr k w).resp = s.resp := rfl
@[simp] theorem sramWr_locked (k : Nat) (w : Word) : (s.sramWr k w).locked = s.locked := rfl
@[simp] theorem sramWr_mon (k : Nat) (w : Word) : (s.sramWr k w).mon = s.mon := rfl
@[simp] theorem sramWr_failed (k : Nat) (w : Word) : (s.sramWr k w).failed = s.failed := rfl
@[simp] theorem sramWr_phase (k : Nat) (w : Word) : (s.sramWr k w).phase = s.phase := rfl
@[simp] theorem sramWr_loading (k : Nat) (w : Word) : (s.sramWr k w).loading = s.loading := rfl
@[simp] theorem sramWr_qm (k : Nat) (w : Word) : (s.sramWr k w).qm = s.qm := rfl
@[simp] theorem sramWr_port (k : Nat) (w : Word) : (s.sramWr k w).port = s.port := rfl
@[simp] theorem sramWr_sealQ (k : Nat) (w : Word) : (s.sramWr k w).sealQ = s.sealQ := rfl
@[simp] theorem sramWr_sealKey (k : Nat) (w : Word) : (s.sramWr k w).sealKey = s.sealKey := rfl
@[simp] theorem sramWr_pwr (k : Nat) (w : Word) : (s.sramWr k w).pwr = s.pwr := rfl
@[simp] theorem sramWr_cfgi (k : Nat) (w : Word) : (s.sramWr k w).cfgi = s.cfgi := rfl
@[simp] theorem sramWr_sc (k : Nat) (w : Word) : (s.sramWr k w).sc = s.sc := rfl
@[simp] theorem sramWr_faults (k : Nat) (w : Word) : (s.sramWr k w).faults = s.faults := rfl
@[simp] theorem sramWr_pending (k : Nat) (w : Word) : (s.sramWr k w).pending = s.pending := rfl

end Sys2Proof.Machine.State
end

