-- ==== Sys2Proof/Laws/Tab.lean ====
section
/-! SUPPORT. What the operations of sparse tables do, and that they keep the canonical form. -/

namespace Sys2Proof.Tab

variable {α : Type}

theorem get_erase_same (d : Nat → α) (t : List (Nat × α)) (k : Nat) : get d (erase t k) k = d k := by
  induction t with
  | nil => rfl
  | cons e r ih =>
    obtain ⟨k', v⟩ := e
    by_cases h : k' = k
    · simpa [erase, h] using ih
    · simpa [erase, get, h] using ih

theorem get_erase_other (d : Nat → α) (t : List (Nat × α)) {k j : Nat} (h : j ≠ k) :
    get d (erase t k) j = get d t j := by
  induction t with
  | nil => rfl
  | cons e r ih =>
    obtain ⟨k', v⟩ := e
    by_cases hk : k' = k
    · have hj : k' ≠ j := fun e => h (e ▸ hk)
      simp only [erase, hk, if_pos, get]
      rw [if_neg (fun e => h e.symm)]
      exact ih
    · simp only [erase, if_neg hk, get]
      split <;> simp_all

theorem get_insert_other (d : Nat → α) (t : List (Nat × α)) {k j : Nat} (v : α) (h : j ≠ k) :
    get d (insert t k v) j = get d t j := by
  induction t with
  | nil => simp [insert, get, Ne.symm h]
  | cons e r ih =>
    obtain ⟨k', v'⟩ := e
    by_cases hk : k < k'
    · simp [insert, hk, get, Ne.symm h]
    · simp only [insert, if_neg hk, get, ih]

theorem get_insert_erase_same (d : Nat → α) (t : List (Nat × α)) (k : Nat) (v : α) :
    get d (insert (erase t k) k v) k = v := by
  induction t with
  | nil => simp [erase, insert, get]
  | cons e r ih =>
    obtain ⟨k', v'⟩ := e
    by_cases hk : k' = k
    · simpa [erase, hk] using ih
    · by_cases hl : k < k'
      · simp [erase, hk, insert, hl, get]
      · simp only [erase, if_neg hk, insert, if_neg hl, get, ih]

/-- A read after a write to the same key gives the value written. -/
@[simp] theorem get_set_same [DecidableEq α] (d : Nat → α) (t : List (Nat × α)) (k : Nat) (v : α) :
    get d (set d t k v) k = v := by
  unfold set
  split
  · rename_i h; rw [get_erase_same, h]
  · exact get_insert_erase_same d t k v

/-- A write leaves every other key alone. -/
theorem get_set_other [DecidableEq α] (d : Nat → α) (t : List (Nat × α)) {k j : Nat} (v : α) (h : j ≠ k) :
    get d (set d t k v) j = get d t j := by
  unfold set
  split
  · exact get_erase_other d t h
  · rw [get_insert_other d _ v h, get_erase_other d t h]

theorem sortedFrom_mono {t : List (Nat × α)} {a b : Nat} (h : a ≤ b) (hs : sortedFrom b t = true) :
    sortedFrom a t = true := by
  cases t with
  | nil => rfl
  | cons e r => simp only [sortedFrom, Bool.and_eq_true, decide_eq_true_eq] at *; exact ⟨by omega, hs.2⟩

theorem sortedFrom_erase {t : List (Nat × α)} {a : Nat} (k : Nat) (h : sortedFrom a t = true) :
    sortedFrom a (erase t k) = true := by
  induction t generalizing a with
  | nil => rfl
  | cons e r ih =>
    obtain ⟨k', v⟩ := e
    simp only [sortedFrom, Bool.and_eq_true, decide_eq_true_eq] at h
    by_cases hk : k' = k
    · simp only [erase, if_pos hk]; exact ih (sortedFrom_mono (by omega) h.2)
    · simp only [erase, if_neg hk, sortedFrom, Bool.and_eq_true, decide_eq_true_eq]
      exact ⟨h.1, ih h.2⟩

theorem sortedFrom_insert {t : List (Nat × α)} {a k : Nat} (v : α) (ha : a ≤ k)
    (hn : ∀ e ∈ t, e.1 ≠ k) (h : sortedFrom a t = true) : sortedFrom a (insert t k v) = true := by
  induction t generalizing a with
  | nil => simp [insert, sortedFrom, ha]
  | cons e r ih =>
    obtain ⟨k', v'⟩ := e
    simp only [sortedFrom, Bool.and_eq_true, decide_eq_true_eq] at h
    have hne : k' ≠ k := hn _ (List.mem_cons_self ..)
    by_cases hl : k < k'
    · simp only [insert, if_pos hl, sortedFrom, Bool.and_eq_true, decide_eq_true_eq]
      exact ⟨ha, by omega, h.2⟩
    · simp only [insert, if_neg hl, sortedFrom, Bool.and_eq_true, decide_eq_true_eq]
      exact ⟨h.1, ih (by omega) (fun e he => hn e (List.mem_cons_of_mem _ he)) h.2⟩

theorem ne_of_mem_erase {t : List (Nat × α)} {k : Nat} {e : Nat × α} (h : e ∈ erase t k) : e.1 ≠ k := by
  induction t with
  | nil => cases h
  | cons x r ih =>
    obtain ⟨k', v⟩ := x
    by_cases hk : k' = k
    · simp only [erase, if_pos hk] at h; exact ih h
    · simp only [erase, if_neg hk, List.mem_cons] at h
      rcases h with rfl | h
      · exact hk
      · exact ih h

theorem mem_of_mem_erase {t : List (Nat × α)} {k : Nat} {e : Nat × α} (h : e ∈ erase t k) : e ∈ t := by
  induction t with
  | nil => cases h
  | cons x r ih =>
    obtain ⟨k', v⟩ := x
    by_cases hk : k' = k
    · simp only [erase, if_pos hk] at h; exact List.mem_cons_of_mem _ (ih h)
    · simp only [erase, if_neg hk, List.mem_cons] at h
      rcases h with rfl | h
      · exact List.mem_cons_self ..
      · exact List.mem_cons_of_mem _ (ih h)

theorem mem_insert {t : List (Nat × α)} {k : Nat} {v : α} {e : Nat × α} (h : e ∈ insert t k v) :
    e = (k, v) ∨ e ∈ t := by
  induction t with
  | nil => simpa [insert] using h
  | cons x r ih =>
    obtain ⟨k', v'⟩ := x
    by_cases hl : k < k'
    · simpa [insert, hl] using h
    · simp only [insert, if_neg hl, List.mem_cons] at h
      rcases h with rfl | h
      · exact .inr (List.mem_cons_self ..)
      · rcases ih h with h | h
        · exact .inl h
        · exact .inr (List.mem_cons_of_mem _ h)

/-- Every write keeps the canonical form. -/
theorem wf_set [DecidableEq α] (d : Nat → α) {t : List (Nat × α)} (k : Nat) (v : α) (h : wf d t = true) :
    wf d (set d t k v) = true := by
  simp only [wf, Bool.and_eq_true, List.all_eq_true, decide_eq_true_eq] at *
  unfold set
  split
  · exact ⟨sortedFrom_erase k h.1, fun e he => h.2 e (mem_of_mem_erase he)⟩
  · rename_i hv
    refine ⟨sortedFrom_insert v (Nat.zero_le _) (fun e he => ne_of_mem_erase he) (sortedFrom_erase k h.1), ?_⟩
    intro e he
    rcases mem_insert he with rfl | he
    · exact hv
    · exact h.2 e (mem_of_mem_erase he)

end Sys2Proof.Tab
end

