-- ==== Sys2Proof/Laws/Ops.lean ====
section
/-! SUPPORT. One law per shared operation: what it does, and that it does nothing else. -/

namespace Sys2Proof.Machine.State

variable (s : State)

/-! ### pushEv -/

@[simp] theorem pushEv_fixed (p : Fin 4) (r : List Byte) : (s.pushEv p r).fixed = s.fixed := by unfold pushEv; split <;> rfl
@[simp] theorem pushEv_latch (p : Fin 4) (r : List Byte) : (s.pushEv p r).latch = s.latch := by unfold pushEv; split <;> rfl
@[simp] theorem pushEv_owner (p : Fin 4) (r : List Byte) : (s.pushEv p r).owner = s.owner := by unfold pushEv; split <;> rfl
@[simp] theorem pushEv_pmap (p : Fin 4) (r : List Byte) : (s.pushEv p r).pmap = s.pmap := by unfold pushEv; split <;> rfl
@[simp] theorem pushEv_free (p : Fin 4) (r : List Byte) : (s.pushEv p r).free = s.free := by unfold pushEv; split <;> rfl
@[simp] theorem pushEv_tb (p : Fin 4) (r : List Byte) : (s.pushEv p r).tb = s.tb := by unfold pushEv; split <;> rfl
@[simp] theorem pushEv_ch (p : Fin 4) (r : List Byte) : (s.pushEv p r).ch = s.ch := by unfold pushEv; split <;> rfl
@[simp] theorem pushEv_grp (p : Fin 4) (r : List Byte) : (s.pushEv p r).grp = s.grp := by unfold pushEv; split <;> rfl
@[simp] theorem pushEv_trg (p : Fin 4) (r : List Byte) : (s.pushEv p r).trg = s.trg := by unfold pushEv; split <;> rfl
@[simp] theorem pushEv_iu (p : Fin 4) (r : List Byte) : (s.pushEv p r).iu = s.iu := by unfold pushEv; split <;> rfl
@[simp] theorem pushEv_xt (p : Fin 4) (r : List Byte) : (s.pushEv p r).xt = s.xt := by unfold pushEv; split <;> rfl
@[simp] theorem pushEv_eng (p : Fin 4) (r : List Byte) : (s.pushEv p r).eng = s.eng := by unfold pushEv; split <;> rfl
@[simp] theorem pushEv_gang (p : Fin 4) (r : List Byte) : (s.pushEv p r).gang = s.gang := by unfold pushEv; split <;> rfl
@[simp] theorem pushEv_sg (p : Fin 4) (r : List Byte) : (s.pushEv p r).sg = s.sg := by unfold pushEv; split <;> rfl
@[simp] theorem pushEv_grid (p : Fin 4) (r : List Byte) : (s.pushEv p r).grid = s.grid := by unfold pushEv; split <;> rfl
@[simp] theorem pushEv_sram (p : Fin 4) (r : List Byte) : (s.pushEv p r).sram = s.sram := by unfold pushEv; split <;> rfl
@[simp] theorem pushEv_sramBad (p : Fin 4) (r : List Byte) : (s.pushEv p r).sramBad = s.sramBad := by unfold pushEv; split <;> rfl
@[simp] theorem pushEv_arr (p : Fin 4) (r : List Byte) : (s.pushEv p r).arr = s.arr := by unfold pushEv; split <;> rfl
@[simp] theorem pushEv_mt (p : Fin 4) (r : List Byte) : (s.pushEv p r).mt = s.mt := by unfold pushEv; split <;> rfl
@[simp] theorem pushEv_resident (p : Fin 4) (r : List Byte) : (s.pushEv p r).resident = s.resident := by unfold pushEv; split <;> rfl
@[simp] theorem pushEv_cocoon (p : Fin 4) (r : List Byte) : (s.pushEv p r).cocoon = s.cocoon := by unfold pushEv; split <;> rfl
@[simp] theorem pushEv_asleep (p : Fin 4) (r : List Byte) : (s.pushEv p r).asleep = s.asleep := by unfold pushEv; split <;> rfl
@[simp] theorem pushEv_mem (p : Fin 4) (r : List Byte) : (s.pushEv p r).mem = s.mem := by unfold pushEv; split <;> rfl
@[simp] theorem pushEv_bad (p : Fin 4) (r : List Byte) : (s.pushEv p r).bad = s.bad := by unfold pushEv; split <;> rfl
@[simp] theorem pushEv_dcMap (p : Fin 4) (r : List Byte) : (s.pushEv p r).dcMap = s.dcMap := by unfold pushEv; split <;> rfl
@[simp] theorem pushEv_dc (p : Fin 4) (r : List Byte) : (s.pushEv p r).dc = s.dc := by unfold pushEv; split <;> rfl
@[simp] theorem pushEv_fill (p : Fin 4) (r : List Byte) : (s.pushEv p r).fill = s.fill := by unfold pushEv; split <;> rfl
@[simp] theorem pushEv_winWait (p : Fin 4) (r : List Byte) : (s.pushEv p r).winWait = s.winWait := by unfold pushEv; split <;> rfl
@[simp] theorem pushEv_resp (p : Fin 4) (r : List Byte) : (s.pushEv p r).resp = s.resp := by unfold pushEv; split <;> rfl
@[simp] theorem pushEv_locked (p : Fin 4) (r : List Byte) : (s.pushEv p r).locked = s.locked := by unfold pushEv; split <;> rfl
@[simp] theorem pushEv_mon (p : Fin 4) (r : List Byte) : (s.pushEv p r).mon = s.mon := by unfold pushEv; split <;> rfl
@[simp] theorem pushEv_failed (p : Fin 4) (r : List Byte) : (s.pushEv p r).failed = s.failed := by unfold pushEv; split <;> rfl
@[simp] theorem pushEv_phase (p : Fin 4) (r : List Byte) : (s.pushEv p r).phase = s.phase := by unfold pushEv; split <;> rfl
@[simp] theorem pushEv_loading (p : Fin 4) (r : List Byte) : (s.pushEv p r).loading = s.loading := by unfold pushEv; split <;> rfl
@[simp] theorem pushEv_qm (p : Fin 4) (r : List Byte) : (s.pushEv p r).qm = s.qm := by unfold pushEv; split <;> rfl
@[simp] theorem pushEv_port (p : Fin 4) (r : List Byte) : (s.pushEv p r).port = s.port := by unfold pushEv; split <;> rfl
@[simp] theorem pushEv_sealQ (p : Fin 4) (r : List Byte) : (s.pushEv p r).sealQ = s.sealQ := by unfold pushEv; split <;> rfl
@[simp] theorem pushEv_sealKey (p : Fin 4) (r : List Byte) : (s.pushEv p r).sealKey = s.sealKey := by unfold pushEv; split <;> rfl
@[simp] theorem pushEv_pwr (p : Fin 4) (r : List Byte) : (s.pushEv p r).pwr = s.pwr := by unfold pushEv; split <;> rfl
@[simp] theorem pushEv_cfgi (p : Fin 4) (r : List Byte) : (s.pushEv p r).cfgi = s.cfgi := by unfold pushEv; split <;> rfl
@[simp] theorem pushEv_sc (p : Fin 4) (r : List Byte) : (s.pushEv p r).sc = s.sc := by unfold pushEv; split <;> rfl
@[simp] theorem pushEv_faults (p : Fin 4) (r : List Byte) : (s.pushEv p r).faults = s.faults := by unfold pushEv; split <;> rfl
@[simp] theorem pushEv_pending (p : Fin 4) (r : List Byte) : (s.pushEv p r).pending = s.pending := by unfold pushEv; split <;> rfl

/-! ### pushTo -/

@[simp] theorem pushTo_fixed (p : Fin 4) (r : List Byte) : (s.pushTo p r).fixed = s.fixed := by unfold pushTo; split <;> simp
@[simp] theorem pushTo_latch (p : Fin 4) (r : List Byte) : (s.pushTo p r).latch = s.latch := by unfold pushTo; split <;> simp
@[simp] theorem pushTo_owner (p : Fin 4) (r : List Byte) : (s.pushTo p r).owner = s.owner := by unfold pushTo; split <;> simp
@[simp] theorem pushTo_pmap (p : Fin 4) (r : List Byte) : (s.pushTo p r).pmap = s.pmap := by unfold pushTo; split <;> simp
@[simp] theorem pushTo_free (p : Fin 4) (r : List Byte) : (s.pushTo p r).free = s.free := by unfold pushTo; split <;> simp
@[simp] theorem pushTo_tb (p : Fin 4) (r : List Byte) : (s.pushTo p r).tb = s.tb := by unfold pushTo; split <;> simp
@[simp] theorem pushTo_ch (p : Fin 4) (r : List Byte) : (s.pushTo p r).ch = s.ch := by unfold pushTo; split <;> simp
@[simp] theorem pushTo_grp (p : Fin 4) (r : List Byte) : (s.pushTo p r).grp = s.grp := by unfold pushTo; split <;> simp
@[simp] theorem pushTo_trg (p : Fin 4) (r : List Byte) : (s.pushTo p r).trg = s.trg := by unfold pushTo; split <;> simp
@[simp] theorem pushTo_iu (p : Fin 4) (r : List Byte) : (s.pushTo p r).iu = s.iu := by unfold pushTo; split <;> simp
@[simp] theorem pushTo_xt (p : Fin 4) (r : List Byte) : (s.pushTo p r).xt = s.xt := by unfold pushTo; split <;> simp
@[simp] theorem pushTo_eng (p : Fin 4) (r : List Byte) : (s.pushTo p r).eng = s.eng := by unfold pushTo; split <;> simp
@[simp] theorem pushTo_gang (p : Fin 4) (r : List Byte) : (s.pushTo p r).gang = s.gang := by unfold pushTo; split <;> simp
@[simp] theorem pushTo_sg (p : Fin 4) (r : List Byte) : (s.pushTo p r).sg = s.sg := by unfold pushTo; split <;> simp
@[simp] theorem pushTo_grid (p : Fin 4) (r : List Byte) : (s.pushTo p r).grid = s.grid := by unfold pushTo; split <;> simp
@[simp] theorem pushTo_sram (p : Fin 4) (r : List Byte) : (s.pushTo p r).sram = s.sram := by unfold pushTo; split <;> simp
@[simp] theorem pushTo_sramBad (p : Fin 4) (r : List Byte) : (s.pushTo p r).sramBad = s.sramBad := by unfold pushTo; split <;> simp
@[simp] theorem pushTo_arr (p : Fin 4) (r : List Byte) : (s.pushTo p r).arr = s.arr := by unfold pushTo; split <;> simp
@[simp] theorem pushTo_mt (p : Fin 4) (r : List Byte) : (s.pushTo p r).mt = s.mt := by unfold pushTo; split <;> simp
@[simp] theorem pushTo_resident (p : Fin 4) (r : List Byte) : (s.pushTo p r).resident = s.resident := by unfold pushTo; split <;> simp
@[simp] theorem pushTo_cocoon (p : Fin 4) (r : List Byte) : (s.pushTo p r).cocoon = s.cocoon := by unfold pushTo; split <;> simp
@[simp] theorem pushTo_asleep (p : Fin 4) (r : List Byte) : (s.pushTo p r).asleep = s.asleep := by unfold pushTo; split <;> simp
@[simp] theorem pushTo_mem (p : Fin 4) (r : List Byte) : (s.pushTo p r).mem = s.mem := by unfold pushTo; split <;> simp
@[simp] theorem pushTo_bad (p : Fin 4) (r : List Byte) : (s.pushTo p r).bad = s.bad := by unfold pushTo; split <;> simp
@[simp] theorem pushTo_dcMap (p : Fin 4) (r : List Byte) : (s.pushTo p r).dcMap = s.dcMap := by unfold pushTo; split <;> simp
@[simp] theorem pushTo_dc (p : Fin 4) (r : List Byte) : (s.pushTo p r).dc = s.dc := by unfold pushTo; split <;> simp
@[simp] theorem pushTo_fill (p : Fin 4) (r : List Byte) : (s.pushTo p r).fill = s.fill := by unfold pushTo; split <;> simp
@[simp] theorem pushTo_winWait (p : Fin 4) (r : List Byte) : (s.pushTo p r).winWait = s.winWait := by unfold pushTo; split <;> simp
@[simp] theorem pushTo_resp (p : Fin 4) (r : List Byte) : (s.pushTo p r).resp = s.resp := by unfold pushTo; split <;> simp
@[simp] theorem pushTo_locked (p : Fin 4) (r : List Byte) : (s.pushTo p r).locked = s.locked := by unfold pushTo; split <;> simp
@[simp] theorem pushTo_mon (p : Fin 4) (r : List Byte) : (s.pushTo p r).mon = s.mon := by unfold pushTo; split <;> simp
@[simp] theorem pushTo_failed (p : Fin 4) (r : List Byte) : (s.pushTo p r).failed = s.failed := by unfold pushTo; split <;> simp
@[simp] theorem pushTo_phase (p : Fin 4) (r : List Byte) : (s.pushTo p r).phase = s.phase := by unfold pushTo; split <;> simp
@[simp] theorem pushTo_loading (p : Fin 4) (r : List Byte) : (s.pushTo p r).loading = s.loading := by unfold pushTo; split <;> simp
@[simp] theorem pushTo_qm (p : Fin 4) (r : List Byte) : (s.pushTo p r).qm = s.qm := by unfold pushTo; split <;> simp
@[simp] theorem pushTo_port (p : Fin 4) (r : List Byte) : (s.pushTo p r).port = s.port := by unfold pushTo; split <;> simp
@[simp] theorem pushTo_sealQ (p : Fin 4) (r : List Byte) : (s.pushTo p r).sealQ = s.sealQ := by unfold pushTo; split <;> simp
@[simp] theorem pushTo_sealKey (p : Fin 4) (r : List Byte) : (s.pushTo p r).sealKey = s.sealKey := by unfold pushTo; split <;> simp
@[simp] theorem pushTo_pwr (p : Fin 4) (r : List Byte) : (s.pushTo p r).pwr = s.pwr := by unfold pushTo; split <;> simp
@[simp] theorem pushTo_cfgi (p : Fin 4) (r : List Byte) : (s.pushTo p r).cfgi = s.cfgi := by unfold pushTo; split <;> simp
@[simp] theorem pushTo_sc (p : Fin 4) (r : List Byte) : (s.pushTo p r).sc = s.sc := by unfold pushTo; split <;> simp
@[simp] theorem pushTo_faults (p : Fin 4) (r : List Byte) : (s.pushTo p r).faults = s.faults := by unfold pushTo; split <;> simp
@[simp] theorem pushTo_pending (p : Fin 4) (r : List Byte) : (s.pushTo p r).pending = s.pending := by unfold pushTo; split <;> simp

/-! ### event -/

@[simp] theorem event_fixed (p : Fin 4) (c b k i : Nat) (st : Option Stamp) (l : List (Nat × Nat)) : (s.event p c b k i st l).fixed = s.fixed := by unfold event; simp
@[simp] theorem event_latch (p : Fin 4) (c b k i : Nat) (st : Option Stamp) (l : List (Nat × Nat)) : (s.event p c b k i st l).latch = s.latch := by unfold event; simp
@[simp] theorem event_owner (p : Fin 4) (c b k i : Nat) (st : Option Stamp) (l : List (Nat × Nat)) : (s.event p c b k i st l).owner = s.owner := by unfold event; simp
@[simp] theorem event_pmap (p : Fin 4) (c b k i : Nat) (st : Option Stamp) (l : List (Nat × Nat)) : (s.event p c b k i st l).pmap = s.pmap := by unfold event; simp
@[simp] theorem event_free (p : Fin 4) (c b k i : Nat) (st : Option Stamp) (l : List (Nat × Nat)) : (s.event p c b k i st l).free = s.free := by unfold event; simp
@[simp] theorem event_tb (p : Fin 4) (c b k i : Nat) (st : Option Stamp) (l : List (Nat × Nat)) : (s.event p c b k i st l).tb = s.tb := by unfold event; simp
@[simp] theorem event_ch (p : Fin 4) (c b k i : Nat) (st : Option Stamp) (l : List (Nat × Nat)) : (s.event p c b k i st l).ch = s.ch := by unfold event; simp
@[simp] theorem event_grp (p : Fin 4) (c b k i : Nat) (st : Option Stamp) (l : List (Nat × Nat)) : (s.event p c b k i st l).grp = s.grp := by unfold event; simp
@[simp] theorem event_trg (p : Fin 4) (c b k i : Nat) (st : Option Stamp) (l : List (Nat × Nat)) : (s.event p c b k i st l).trg = s.trg := by unfold event; simp
@[simp] theorem event_iu (p : Fin 4) (c b k i : Nat) (st : Option Stamp) (l : List (Nat × Nat)) : (s.event p c b k i st l).iu = s.iu := by unfold event; simp
@[simp] theorem event_xt (p : Fin 4) (c b k i : Nat) (st : Option Stamp) (l : List (Nat × Nat)) : (s.event p c b k i st l).xt = s.xt := by unfold event; simp
@[simp] theorem event_eng (p : Fin 4) (c b k i : Nat) (st : Option Stamp) (l : List (Nat × Nat)) : (s.event p c b k i st l).eng = s.eng := by unfold event; simp
@[simp] theorem event_gang (p : Fin 4) (c b k i : Nat) (st : Option Stamp) (l : List (Nat × Nat)) : (s.event p c b k i st l).gang = s.gang := by unfold event; simp
@[simp] theorem event_sg (p : Fin 4) (c b k i : Nat) (st : Option Stamp) (l : List (Nat × Nat)) : (s.event p c b k i st l).sg = s.sg := by unfold event; simp
@[simp] theorem event_grid (p : Fin 4) (c b k i : Nat) (st : Option Stamp) (l : List (Nat × Nat)) : (s.event p c b k i st l).grid = s.grid := by unfold event; simp
@[simp] theorem event_sram (p : Fin 4) (c b k i : Nat) (st : Option Stamp) (l : List (Nat × Nat)) : (s.event p c b k i st l).sram = s.sram := by unfold event; simp
@[simp] theorem event_sramBad (p : Fin 4) (c b k i : Nat) (st : Option Stamp) (l : List (Nat × Nat)) : (s.event p c b k i st l).sramBad = s.sramBad := by unfold event; simp
@[simp] theorem event_arr (p : Fin 4) (c b k i : Nat) (st : Option Stamp) (l : List (Nat × Nat)) : (s.event p c b k i st l).arr = s.arr := by unfold event; simp
@[simp] theorem event_mt (p : Fin 4) (c b k i : Nat) (st : Option Stamp) (l : List (Nat × Nat)) : (s.event p c b k i st l).mt = s.mt := by unfold event; simp
@[simp] theorem event_resident (p : Fin 4) (c b k i : Nat) (st : Option Stamp) (l : List (Nat × Nat)) : (s.event p c b k i st l).resident = s.resident := by unfold event; simp
@[simp] theorem event_cocoon (p : Fin 4) (c b k i : Nat) (st : Option Stamp) (l : List (Nat × Nat)) : (s.event p c b k i st l).cocoon = s.cocoon := by unfold event; simp
@[simp] theorem event_asleep (p : Fin 4) (c b k i : Nat) (st : Option Stamp) (l : List (Nat × Nat)) : (s.event p c b k i st l).asleep = s.asleep := by unfold event; simp
@[simp] theorem event_mem (p : Fin 4) (c b k i : Nat) (st : Option Stamp) (l : List (Nat × Nat)) : (s.event p c b k i st l).mem = s.mem := by unfold event; simp
@[simp] theorem event_bad (p : Fin 4) (c b k i : Nat) (st : Option Stamp) (l : List (Nat × Nat)) : (s.event p c b k i st l).bad = s.bad := by unfold event; simp
@[simp] theorem event_dcMap (p : Fin 4) (c b k i : Nat) (st : Option Stamp) (l : List (Nat × Nat)) : (s.event p c b k i st l).dcMap = s.dcMap := by unfold event; simp
@[simp] theorem event_dc (p : Fin 4) (c b k i : Nat) (st : Option Stamp) (l : List (Nat × Nat)) : (s.event p c b k i st l).dc = s.dc := by unfold event; simp
@[simp] theorem event_fill (p : Fin 4) (c b k i : Nat) (st : Option Stamp) (l : List (Nat × Nat)) : (s.event p c b k i st l).fill = s.fill := by unfold event; simp
@[simp] theorem event_winWait (p : Fin 4) (c b k i : Nat) (st : Option Stamp) (l : List (Nat × Nat)) : (s.event p c b k i st l).winWait = s.winWait := by unfold event; simp
@[simp] theorem event_resp (p : Fin 4) (c b k i : Nat) (st : Option Stamp) (l : List (Nat × Nat)) : (s.event p c b k i st l).resp = s.resp := by unfold event; simp
@[simp] theorem event_locked (p : Fin 4) (c b k i : Nat) (st : Option Stamp) (l : List (Nat × Nat)) : (s.event p c b k i st l).locked = s.locked := by unfold event; simp
@[simp] theorem event_mon (p : Fin 4) (c b k i : Nat) (st : Option Stamp) (l : List (Nat × Nat)) : (s.event p c b k i st l).mon = s.mon := by unfold event; simp
@[simp] theorem event_failed (p : Fin 4) (c b k i : Nat) (st : Option Stamp) (l : List (Nat × Nat)) : (s.event p c b k i st l).failed = s.failed := by unfold event; simp
@[simp] theorem event_phase (p : Fin 4) (c b k i : Nat) (st : Option Stamp) (l : List (Nat × Nat)) : (s.event p c b k i st l).phase = s.phase := by unfold event; simp
@[simp] theorem event_loading (p : Fin 4) (c b k i : Nat) (st : Option Stamp) (l : List (Nat × Nat)) : (s.event p c b k i st l).loading = s.loading := by unfold event; simp
@[simp] theorem event_qm (p : Fin 4) (c b k i : Nat) (st : Option Stamp) (l : List (Nat × Nat)) : (s.event p c b k i st l).qm = s.qm := by unfold event; simp
@[simp] theorem event_port (p : Fin 4) (c b k i : Nat) (st : Option Stamp) (l : List (Nat × Nat)) : (s.event p c b k i st l).port = s.port := by unfold event; simp
@[simp] theorem event_sealQ (p : Fin 4) (c b k i : Nat) (st : Option Stamp) (l : List (Nat × Nat)) : (s.event p c b k i st l).sealQ = s.sealQ := by unfold event; simp
@[simp] theorem event_sealKey (p : Fin 4) (c b k i : Nat) (st : Option Stamp) (l : List (Nat × Nat)) : (s.event p c b k i st l).sealKey = s.sealKey := by unfold event; simp
@[simp] theorem event_pwr (p : Fin 4) (c b k i : Nat) (st : Option Stamp) (l : List (Nat × Nat)) : (s.event p c b k i st l).pwr = s.pwr := by unfold event; simp
@[simp] theorem event_cfgi (p : Fin 4) (c b k i : Nat) (st : Option Stamp) (l : List (Nat × Nat)) : (s.event p c b k i st l).cfgi = s.cfgi := by unfold event; simp
@[simp] theorem event_sc (p : Fin 4) (c b k i : Nat) (st : Option Stamp) (l : List (Nat × Nat)) : (s.event p c b k i st l).sc = s.sc := by unfold event; simp
@[simp] theorem event_faults (p : Fin 4) (c b k i : Nat) (st : Option Stamp) (l : List (Nat × Nat)) : (s.event p c b k i st l).faults = s.faults := by unfold event; simp
@[simp] theorem event_pending (p : Fin 4) (c b k i : Nat) (st : Option Stamp) (l : List (Nat × Nat)) : (s.event p c b k i st l).pending = s.pending := by unfold event; simp

/-! ### eventAll -/

@[simp] theorem eventAll_fixed (c b k i : Nat) (st : Option Stamp) (l : List (Nat × Nat)) : (s.eventAll c b k i st l).fixed = s.fixed := by unfold eventAll; simp
@[simp] theorem eventAll_latch (c b k i : Nat) (st : Option Stamp) (l : List (Nat × Nat)) : (s.eventAll c b k i st l).latch = s.latch := by unfold eventAll; simp
@[simp] theorem eventAll_owner (c b k i : Nat) (st : Option Stamp) (l : List (Nat × Nat)) : (s.eventAll c b k i st l).owner = s.owner := by unfold eventAll; simp
@[simp] theorem eventAll_pmap (c b k i : Nat) (st : Option Stamp) (l : List (Nat × Nat)) : (s.eventAll c b k i st l).pmap = s.pmap := by unfold eventAll; simp
@[simp] theorem eventAll_free (c b k i : Nat) (st : Option Stamp) (l : List (Nat × Nat)) : (s.eventAll c b k i st l).free = s.free := by unfold eventAll; simp
@[simp] theorem eventAll_tb (c b k i : Nat) (st : Option Stamp) (l : List (Nat × Nat)) : (s.eventAll c b k i st l).tb = s.tb := by unfold eventAll; simp
@[simp] theorem eventAll_ch (c b k i : Nat) (st : Option Stamp) (l : List (Nat × Nat)) : (s.eventAll c b k i st l).ch = s.ch := by unfold eventAll; simp
@[simp] theorem eventAll_grp (c b k i : Nat) (st : Option Stamp) (l : List (Nat × Nat)) : (s.eventAll c b k i st l).grp = s.grp := by unfold eventAll; simp
@[simp] theorem eventAll_trg (c b k i : Nat) (st : Option Stamp) (l : List (Nat × Nat)) : (s.eventAll c b k i st l).trg = s.trg := by unfold eventAll; simp
@[simp] theorem eventAll_iu (c b k i : Nat) (st : Option Stamp) (l : List (Nat × Nat)) : (s.eventAll c b k i st l).iu = s.iu := by unfold eventAll; simp
@[simp] theorem eventAll_xt (c b k i : Nat) (st : Option Stamp) (l : List (Nat × Nat)) : (s.eventAll c b k i st l).xt = s.xt := by unfold eventAll; simp
@[simp] theorem eventAll_eng (c b k i : Nat) (st : Option Stamp) (l : List (Nat × Nat)) : (s.eventAll c b k i st l).eng = s.eng := by unfold eventAll; simp
@[simp] theorem eventAll_gang (c b k i : Nat) (st : Option Stamp) (l : List (Nat × Nat)) : (s.eventAll c b k i st l).gang = s.gang := by unfold eventAll; simp
@[simp] theorem eventAll_sg (c b k i : Nat) (st : Option Stamp) (l : List (Nat × Nat)) : (s.eventAll c b k i st l).sg = s.sg := by unfold eventAll; simp
@[simp] theorem eventAll_grid (c b k i : Nat) (st : Option Stamp) (l : List (Nat × Nat)) : (s.eventAll c b k i st l).grid = s.grid := by unfold eventAll; simp
@[simp] theorem eventAll_sram (c b k i : Nat) (st : Option Stamp) (l : List (Nat × Nat)) : (s.eventAll c b k i st l).sram = s.sram := by unfold eventAll; simp
@[simp] theorem eventAll_sramBad (c b k i : Nat) (st : Option Stamp) (l : List (Nat × Nat)) : (s.eventAll c b k i st l).sramBad = s.sramBad := by unfold eventAll; simp
@[simp] theorem eventAll_arr (c b k i : Nat) (st : Option Stamp) (l : List (Nat × Nat)) : (s.eventAll c b k i st l).arr = s.arr := by unfold eventAll; simp
@[simp] theorem eventAll_mt (c b k i : Nat) (st : Option Stamp) (l : List (Nat × Nat)) : (s.eventAll c b k i st l).mt = s.mt := by unfold eventAll; simp
@[simp] theorem eventAll_resident (c b k i : Nat) (st : Option Stamp) (l : List (Nat × Nat)) : (s.eventAll c b k i st l).resident = s.resident := by unfold eventAll; simp
@[simp] theorem eventAll_cocoon (c b k i : Nat) (st : Option Stamp) (l : List (Nat × Nat)) : (s.eventAll c b k i st l).cocoon = s.cocoon := by unfold eventAll; simp
@[simp] theorem eventAll_asleep (c b k i : Nat) (st : Option Stamp) (l : List (Nat × Nat)) : (s.eventAll c b k i st l).asleep = s.asleep := by unfold eventAll; simp
@[simp] theorem eventAll_mem (c b k i : Nat) (st : Option Stamp) (l : List (Nat × Nat)) : (s.eventAll c b k i st l).mem = s.mem := by unfold eventAll; simp
@[simp] theorem eventAll_bad (c b k i : Nat) (st : Option Stamp) (l : List (Nat × Nat)) : (s.eventAll c b k i st l).bad = s.bad := by unfold eventAll; simp
@[simp] theorem eventAll_dcMap (c b k i : Nat) (st : Option Stamp) (l : List (Nat × Nat)) : (s.eventAll c b k i st l).dcMap = s.dcMap := by unfold eventAll; simp
@[simp] theorem eventAll_dc (c b k i : Nat) (st : Option Stamp) (l : List (Nat × Nat)) : (s.eventAll c b k i st l).dc = s.dc := by unfold eventAll; simp
@[simp] theorem eventAll_fill (c b k i : Nat) (st : Option Stamp) (l : List (Nat × Nat)) : (s.eventAll c b k i st l).fill = s.fill := by unfold eventAll; simp
@[simp] theorem eventAll_winWait (c b k i : Nat) (st : Option Stamp) (l : List (Nat × Nat)) : (s.eventAll c b k i st l).winWait = s.winWait := by unfold eventAll; simp
@[simp] theorem eventAll_resp (c b k i : Nat) (st : Option Stamp) (l : List (Nat × Nat)) : (s.eventAll c b k i st l).resp = s.resp := by unfold eventAll; simp
@[simp] theorem eventAll_locked (c b k i : Nat) (st : Option Stamp) (l : List (Nat × Nat)) : (s.eventAll c b k i st l).locked = s.locked := by unfold eventAll; simp
@[simp] theorem eventAll_mon (c b k i : Nat) (st : Option Stamp) (l : List (Nat × Nat)) : (s.eventAll c b k i st l).mon = s.mon := by unfold eventAll; simp
@[simp] theorem eventAll_failed (c b k i : Nat) (st : Option Stamp) (l : List (Nat × Nat)) : (s.eventAll c b k i st l).failed = s.failed := by unfold eventAll; simp
@[simp] theorem eventAll_phase (c b k i : Nat) (st : Option Stamp) (l : List (Nat × Nat)) : (s.eventAll c b k i st l).phase = s.phase := by unfold eventAll; simp
@[simp] theorem eventAll_loading (c b k i : Nat) (st : Option Stamp) (l : List (Nat × Nat)) : (s.eventAll c b k i st l).loading = s.loading := by unfold eventAll; simp
@[simp] theorem eventAll_qm (c b k i : Nat) (st : Option Stamp) (l : List (Nat × Nat)) : (s.eventAll c b k i st l).qm = s.qm := by unfold eventAll; simp
@[simp] theorem eventAll_port (c b k i : Nat) (st : Option Stamp) (l : List (Nat × Nat)) : (s.eventAll c b k i st l).port = s.port := by unfold eventAll; simp
@[simp] theorem eventAll_sealQ (c b k i : Nat) (st : Option Stamp) (l : List (Nat × Nat)) : (s.eventAll c b k i st l).sealQ = s.sealQ := by unfold eventAll; simp
@[simp] theorem eventAll_sealKey (c b k i : Nat) (st : Option Stamp) (l : List (Nat × Nat)) : (s.eventAll c b k i st l).sealKey = s.sealKey := by unfold eventAll; simp
@[simp] theorem eventAll_pwr (c b k i : Nat) (st : Option Stamp) (l : List (Nat × Nat)) : (s.eventAll c b k i st l).pwr = s.pwr := by unfold eventAll; simp
@[simp] theorem eventAll_cfgi (c b k i : Nat) (st : Option Stamp) (l : List (Nat × Nat)) : (s.eventAll c b k i st l).cfgi = s.cfgi := by unfold eventAll; simp
@[simp] theorem eventAll_sc (c b k i : Nat) (st : Option Stamp) (l : List (Nat × Nat)) : (s.eventAll c b k i st l).sc = s.sc := by unfold eventAll; simp
@[simp] theorem eventAll_faults (c b k i : Nat) (st : Option Stamp) (l : List (Nat × Nat)) : (s.eventAll c b k i st l).faults = s.faults := by unfold eventAll; simp
@[simp] theorem eventAll_pending (c b k i : Nat) (st : Option Stamp) (l : List (Nat × Nat)) : (s.eventAll c b k i st l).pending = s.pending := by unfold eventAll; simp

/-! ### faultNote -/

@[simp] theorem faultNote_regs (c i : Nat) : (s.faultNote c i).regs = s.regs := rfl
@[simp] theorem faultNote_fixed (c i : Nat) : (s.faultNote c i).fixed = s.fixed := rfl
@[simp] theorem faultNote_latch (c i : Nat) : (s.faultNote c i).latch = s.latch := rfl
@[simp] theorem faultNote_owner (c i : Nat) : (s.faultNote c i).owner = s.owner := rfl
@[simp] theorem faultNote_pmap (c i : Nat) : (s.faultNote c i).pmap = s.pmap := rfl
@[simp] theorem faultNote_free (c i : Nat) : (s.faultNote c i).free = s.free := rfl
@[simp] theorem faultNote_tb (c i : Nat) : (s.faultNote c i).tb = s.tb := rfl
@[simp] theorem faultNote_ch (c i : Nat) : (s.faultNote c i).ch = s.ch := rfl
@[simp] theorem faultNote_grp (c i : Nat) : (s.faultNote c i).grp = s.grp := rfl
@[simp] theorem faultNote_trg (c i : Nat) : (s.faultNote c i).trg = s.trg := rfl
@[simp] theorem faultNote_iu (c i : Nat) : (s.faultNote c i).iu = s.iu := rfl
@[simp] theorem faultNote_xt (c i : Nat) : (s.faultNote c i).xt = s.xt := rfl
@[simp] theorem faultNote_eng (c i : Nat) : (s.faultNote c i).eng = s.eng := rfl
@[simp] theorem faultNote_gang (c i : Nat) : (s.faultNote c i).gang = s.gang := rfl
@[simp] theorem faultNote_sg (c i : Nat) : (s.faultNote c i).sg = s.sg := rfl
@[simp] theorem faultNote_grid (c i : Nat) : (s.faultNote c i).grid = s.grid := rfl
@[simp] theorem faultNote_sram (c i : Nat) : (s.faultNote c i).sram = s.sram := rfl
@[simp] theorem faultNote_sramBad (c i : Nat) : (s.faultNote c i).sramBad = s.sramBad := rfl
@[simp] theorem faultNote_arr (c i : Nat) : (s.faultNote c i).arr = s.arr := rfl
@[simp] theorem faultNote_mt (c i : Nat) : (s.faultNote c i).mt = s.mt := rfl
@[simp] theorem faultNote_resident (c i : Nat) : (s.faultNote c i).resident = s.resident := rfl
@[simp] theorem faultNote_cocoon (c i : Nat) : (s.faultNote c i).cocoon = s.cocoon := rfl
@[simp] theorem faultNote_asleep (c i : Nat) : (s.faultNote c i).asleep = s.asleep := rfl
@[simp] theorem faultNote_evt (c i : Nat) : (s.faultNote c i).evt = s.evt := rfl
@[simp] theorem faultNote_mem (c i : Nat) : (s.faultNote c i).mem = s.mem := rfl
@[simp] theorem faultNote_bad (c i : Nat) : (s.faultNote c i).bad = s.bad := rfl
@[simp] theorem faultNote_dcMap (c i : Nat) : (s.faultNote c i).dcMap = s.dcMap := rfl
@[simp] theorem faultNote_dc (c i : Nat) : (s.faultNote c i).dc = s.dc := rfl
@[simp] theorem faultNote_fill (c i : Nat) : (s.faultNote c i).fill = s.fill := rfl
@[simp] theorem faultNote_winWait (c i : Nat) : (s.faultNote c i).winWait = s.winWait := rfl
@[simp] theorem faultNote_resp (c i : Nat) : (s.faultNote c i).resp = s.resp := rfl
@[simp] theorem faultNote_locked (c i : Nat) : (s.faultNote c i).locked = s.locked := rfl
@[simp] theorem faultNote_mon (c i : Nat) : (s.faultNote c i).mon = s.mon := rfl
@[simp] theorem faultNote_failed (c i : Nat) : (s.faultNote c i).failed = s.failed := rfl
@[simp] theorem faultNote_phase (c i : Nat) : (s.faultNote c i).phase = s.phase := rfl
@[simp] theorem faultNote_loading (c i : Nat) : (s.faultNote c i).loading = s.loading := rfl
@[simp] theorem faultNote_qm (c i : Nat) : (s.faultNote c i).qm = s.qm := rfl
@[simp] theorem faultNote_port (c i : Nat) : (s.faultNote c i).port = s.port := rfl
@[simp] theorem faultNote_sealQ (c i : Nat) : (s.faultNote c i).sealQ = s.sealQ := rfl
@[simp] theorem faultNote_sealKey (c i : Nat) : (s.faultNote c i).sealKey = s.sealKey := rfl
@[simp] theorem faultNote_pwr (c i : Nat) : (s.faultNote c i).pwr = s.pwr := rfl
@[simp] theorem faultNote_cfgi (c i : Nat) : (s.faultNote c i).cfgi = s.cfgi := rfl
@[simp] theorem faultNote_sc (c i : Nat) : (s.faultNote c i).sc = s.sc := rfl
@[simp] theorem faultNote_pending (c i : Nat) : (s.faultNote c i).pending = s.pending := rfl

/-! ### setRank -/

@[simp] theorem setRank_regs (c : Fin 16) (r : Nat) (h : Rank → Rank) : (s.setRank c r h).regs = s.regs := rfl
@[simp] theorem setRank_fixed (c : Fin 16) (r : Nat) (h : Rank → Rank) : (s.setRank c r h).fixed = s.fixed := rfl
@[simp] theorem setRank_latch (c : Fin 16) (r : Nat) (h : Rank → Rank) : (s.setRank c r h).latch = s.latch := rfl
@[simp] theorem setRank_owner (c : Fin 16) (r : Nat) (h : Rank → Rank) : (s.setRank c r h).owner = s.owner := rfl
@[simp] theorem setRank_pmap (c : Fin 16) (r : Nat) (h : Rank → Rank) : (s.setRank c r h).pmap = s.pmap := rfl
@[simp] theorem setRank_free (c : Fin 16) (r : Nat) (h : Rank → Rank) : (s.setRank c r h).free = s.free := rfl
@[simp] theorem setRank_tb (c : Fin 16) (r : Nat) (h : Rank → Rank) : (s.setRank c r h).tb = s.tb := rfl
@[simp] theorem setRank_ch (c : Fin 16) (r : Nat) (h : Rank → Rank) : (s.setRank c r h).ch = s.ch := rfl
@[simp] theorem setRank_grp (c : Fin 16) (r : Nat) (h : Rank → Rank) : (s.setRank c r h).grp = s.grp := rfl
@[simp] theorem setRank_trg (c : Fin 16) (r : Nat) (h : Rank → Rank) : (s.setRank c r h).trg = s.trg := rfl
@[simp] theorem setRank_iu (c : Fin 16) (r : Nat) (h : Rank → Rank) : (s.setRank c r h).iu = s.iu := rfl
@[simp] theorem setRank_xt (c : Fin 16) (r : Nat) (h : Rank → Rank) : (s.setRank c r h).xt = s.xt := rfl
@[simp] theorem setRank_eng (c : Fin 16) (r : Nat) (h : Rank → Rank) : (s.setRank c r h).eng = s.eng := rfl
@[simp] theorem setRank_gang (c : Fin 16) (r : Nat) (h : Rank → Rank) : (s.setRank c r h).gang = s.gang := rfl
@[simp] theorem setRank_sg (c : Fin 16) (r : Nat) (h : Rank → Rank) : (s.setRank c r h).sg = s.sg := rfl
@[simp] theorem setRank_grid (c : Fin 16) (r : Nat) (h : Rank → Rank) : (s.setRank c r h).grid = s.grid := rfl
@[simp] theorem setRank_sram (c : Fin 16) (r : Nat) (h : Rank → Rank) : (s.setRank c r h).sram = s.sram := rfl
@[simp] theorem setRank_sramBad (c : Fin 16) (r : Nat) (h : Rank → Rank) : (s.setRank c r h).sramBad = s.sramBad := rfl
@[simp] theorem setRank_arr (c : Fin 16) (r : Nat) (h : Rank → Rank) : (s.setRank c r h).arr = s.arr := rfl
@[simp] theorem setRank_mt (c : Fin 16) (r : Nat) (h : Rank → Rank) : (s.setRank c r h).mt = s.mt := rfl
@[simp] theorem setRank_resident (c : Fin 16) (r : Nat) (h : Rank → Rank) : (s.setRank c r h).resident = s.resident := rfl
@[simp] theorem setRank_cocoon (c : Fin 16) (r : Nat) (h : Rank → Rank) : (s.setRank c r h).cocoon = s.cocoon := rfl
@[simp] theorem setRank_asleep (c : Fin 16) (r : Nat) (h : Rank → Rank) : (s.setRank c r h).asleep = s.asleep := rfl
@[simp] theorem setRank_evt (c : Fin 16) (r : Nat) (h : Rank → Rank) : (s.setRank c r h).evt = s.evt := rfl
@[simp] theorem setRank_mem (c : Fin 16) (r : Nat) (h : Rank → Rank) : (s.setRank c r h).mem = s.mem := rfl
@[simp] theorem setRank_bad (c : Fin 16) (r : Nat) (h : Rank → Rank) : (s.setRank c r h).bad = s.bad := rfl
@[simp] theorem setRank_dcMap (c : Fin 16) (r : Nat) (h : Rank → Rank) : (s.setRank c r h).dcMap = s.dcMap := rfl
@[simp] theorem setRank_fill (c : Fin 16) (r : Nat) (h : Rank → Rank) : (s.setRank c r h).fill = s.fill := rfl
@[simp] theorem setRank_winWait (c : Fin 16) (r : Nat) (h : Rank → Rank) : (s.setRank c r h).winWait = s.winWait := rfl
@[simp] theorem setRank_resp (c : Fin 16) (r : Nat) (h : Rank → Rank) : (s.setRank c r h).resp = s.resp := rfl
@[simp] theorem setRank_locked (c : Fin 16) (r : Nat) (h : Rank → Rank) : (s.setRank c r h).locked = s.locked := rfl
@[simp] theorem setRank_mon (c : Fin 16) (r : Nat) (h : Rank → Rank) : (s.setRank c r h).mon = s.mon := rfl
@[simp] theorem setRank_failed (c : Fin 16) (r : Nat) (h : Rank → Rank) : (s.setRank c r h).failed = s.failed := rfl
@[simp] theorem setRank_phase (c : Fin 16) (r : Nat) (h : Rank → Rank) : (s.setRank c r h).phase = s.phase := rfl
@[simp] theorem setRank_loading (c : Fin 16) (r : Nat) (h : Rank → Rank) : (s.setRank c r h).loading = s.loading := rfl
@[simp] theorem setRank_qm (c : Fin 16) (r : Nat) (h : Rank → Rank) : (s.setRank c r h).qm = s.qm := rfl
@[simp] theorem setRank_port (c : Fin 16) (r : Nat) (h : Rank → Rank) : (s.setRank c r h).port = s.port := rfl
@[simp] theorem setRank_sealQ (c : Fin 16) (r : Nat) (h : Rank → Rank) : (s.setRank c r h).sealQ = s.sealQ := rfl
@[simp] theorem setRank_sealKey (c : Fin 16) (r : Nat) (h : Rank → Rank) : (s.setRank c r h).sealKey = s.sealKey := rfl
@[simp] theorem setRank_pwr (c : Fin 16) (r : Nat) (h : Rank → Rank) : (s.setRank c r h).pwr = s.pwr := rfl
@[simp] theorem setRank_cfgi (c : Fin 16) (r : Nat) (h : Rank → Rank) : (s.setRank c r h).cfgi = s.cfgi := rfl
@[simp] theorem setRank_sc (c : Fin 16) (r : Nat) (h : Rank → Rank) : (s.setRank c r h).sc = s.sc := rfl
@[simp] theorem setRank_faults (c : Fin 16) (r : Nat) (h : Rank → Rank) : (s.setRank c r h).faults = s.faults := rfl
@[simp] theorem setRank_pending (c : Fin 16) (r : Nat) (h : Rank → Rank) : (s.setRank c r h).pending = s.pending := rfl

/-! ### The register file -/

/-- A read after a write to the same register gives the word written. -/
@[simp] theorem rd_wr_same (a : Nat) (w : Word) : (s.wr a w).rd a = w := Tab.get_set_same ..

/-- A write leaves every other register alone. -/
theorem rd_wr_other {a b : Nat} (w : Word) (h : b ≠ a) : (s.wr a w).rd b = s.rd b := Tab.get_set_other _ _ _ h

@[simp] theorem rd_bump_same (a n : Nat) : (s.bump a n).rd a = Bits.sat32 (s.rd a) n := rd_wr_same ..

theorem rd_bump_other {a b : Nat} (n : Nat) (h : b ≠ a) : (s.bump a n).rd b = s.rd b := rd_wr_other _ _ h

theorem rd_wrF_other {a b : Nat} (hi lo v : Nat) (h : b ≠ a) : (s.wrF a hi lo v).rd b = s.rd b := rd_wr_other _ _ h

@[simp] theorem rd_wr64_hi (lo hi : Nat) (v : BitVec 64) : (s.wr64 lo hi v).rd hi = Bits.hi32 v := rd_wr_same ..

theorem rd_wr64_lo {lo hi : Nat} (v : BitVec 64) (h : lo ≠ hi) : (s.wr64 lo hi v).rd lo = Bits.lo32 v := by
  unfold wr64
  rw [rd_wr_other _ _ h, rd_wr_same]

theorem rd_wr64_other {lo hi b : Nat} (v : BitVec 64) (h1 : b ≠ lo) (h2 : b ≠ hi) : (s.wr64 lo hi v).rd b = s.rd b := by
  unfold wr64
  rw [rd_wr_other _ _ h2, rd_wr_other _ _ h1]

/-- Equal register files read alike. -/
theorem rd_congr {s t : State} (h : t.regs = s.regs) (a : Nat) : t.rd a = s.rd a := by unfold rd; rw [h]

theorem f_congr {s t : State} (h : t.regs = s.regs) (a hi lo : Nat) : t.f a hi lo = s.f a hi lo := by
  unfold State.f; rw [rd_congr h]

theorem fb_congr {s t : State} (h : t.regs = s.regs) (a i : Nat) : t.fb a i = s.fb a i := by
  unfold fb; rw [rd_congr h]

/-! ### Events -/

/-- An event store changes one partition's store, and the register file only at that partition's lost counter. -/
theorem pushEv_rd (p : Fin 4) (r : List Byte) {a : Nat} (h : a ≠ R.QM_EVT_LOST_CNT p) : (s.pushEv p r).rd a = s.rd a := by
  unfold pushEv
  split
  · rfl
  · rw [rd_bump_other _ _ h]; rfl

/-- An event's source counter counts one. -/
theorem event_counts (p : Fin 4) (c b k i : Nat) (st : Option Stamp) (l : List (Nat × Nat)) (h : c ≠ R.QM_EVT_LOST_CNT p) :
    (s.event p c b k i st l).rd c = Bits.sat32 (s.rd c) 1 := by
  unfold event
  rw [pushEv_rd _ _ _ h, rd_bump_same]

/-- An event changes no other register. -/
theorem event_rd (p : Fin 4) (c b k i : Nat) (st : Option Stamp) (l : List (Nat × Nat)) {a : Nat} (h : a ≠ R.QM_EVT_LOST_CNT p)
    (hc : a ≠ c) : (s.event p c b k i st l).rd a = s.rd a := by
  unfold event
  rw [pushEv_rd _ _ _ h, rd_bump_other _ _ hc]

theorem pushTo_rd (p : Fin 4) (r : List Byte) {a : Nat} (h : a ≠ R.QM_EVT_LOST_CNT p) : (s.pushTo p r).rd a = s.rd a := by
  unfold pushTo
  split
  · exact pushEv_rd s p r h
  · rfl

theorem eventAll_counts (c b k i : Nat) (st : Option Stamp) (l : List (Nat × Nat)) (h : ∀ p : Fin 4, c ≠ R.QM_EVT_LOST_CNT p) :
    (s.eventAll c b k i st l).rd c = Bits.sat32 (s.rd c) 1 := by
  unfold eventAll
  rw [pushTo_rd _ _ _ (h 3), pushTo_rd _ _ _ (h 2), pushTo_rd _ _ _ (h 1), pushTo_rd _ _ _ (h 0), rd_bump_same]

theorem eventAll_rd (c b k i : Nat) (st : Option Stamp) (l : List (Nat × Nat)) {a : Nat} (h : ∀ p : Fin 4, a ≠ R.QM_EVT_LOST_CNT p)
    (hc : a ≠ c) : (s.eventAll c b k i st l).rd a = s.rd a := by
  unfold eventAll
  rw [pushTo_rd _ _ _ (h 3), pushTo_rd _ _ _ (h 2), pushTo_rd _ _ _ (h 1), pushTo_rd _ _ _ (h 0), rd_bump_other _ _ hc]

/-- A record finds room: it stands last in its partition's store, and no other store changes. -/
theorem pushEv_stored (p : Fin 4) (r : List Byte) (h0 : s.evt[p].lost = 0) (h1 : s.evt[p].recs.length < 4096) :
    s.pushEv p r = s.setEvt p (fun e => { e with recs := e.recs ++ [r] }) := by
  unfold pushEv evtUsed
  rw [if_pos ⟨h0, by omega⟩]

/-! ### Folds -/

/-- What every step of a fold keeps, the fold keeps. -/
theorem forAll_keeps {α β : Type} (P : β → Prop) (l : List α) (f : α → β → β) (h : ∀ x ∈ l, ∀ b, P b → P (f x b)) :
    ∀ b, P b → P (Bits.forAll l b f) := by
  induction l with
  | nil => exact fun b hb => hb
  | cons x r ih =>
    intro b hb
    rw [Bits.forAll]
    exact ih (fun y hy => h y (List.mem_cons_of_mem _ hy)) _ (h x List.mem_cons_self b hb)

/-- A fold of steps that each change nothing changes nothing. -/
theorem forAll_nothing {α β : Type} (l : List α) (b : β) (f : α → β → β) (h : ∀ x ∈ l, f x b = b) : Bits.forAll l b f = b := by
  induction l with
  | nil => rfl
  | cons x r ih => rw [Bits.forAll, h x List.mem_cons_self]; exact ih (fun y hy => h y (List.mem_cons_of_mem _ hy))

/-! ### Acquisition memory -/

@[simp] theorem memGet_memSet_same (a : Nat) (b : Byte) : (s.memSet a b).memGet a = b := Tab.get_set_same ..

theorem memGet_memSet_other {a c : Nat} (b : Byte) (h : c ≠ a) : (s.memSet a b).memGet c = s.memGet c := Tab.get_set_other _ _ _ h

/-- Bytes stored at consecutive addresses read back, and every other byte is as before. -/
theorem memGet_memPut (l : List Byte) : ∀ (s : State) (a c : Nat),
    (s.memPut a l).memGet c = if h : a ≤ c ∧ c - a < l.length then l[c - a]'h.2 else s.memGet c := by
  induction l with
  | nil => intro s a c; simp [memPut]
  | cons b r ih =>
    intro s a c
    rw [memPut, ih]
    by_cases h : c = a
    · subst h
      rw [dif_neg (by omega), memGet_memSet_same]
      simp
    · by_cases h2 : a + 1 ≤ c ∧ c - (a + 1) < r.length
      · have e : c - a = c - (a + 1) + 1 := by omega
        rw [dif_pos h2, dif_pos ⟨by omega, by simp; omega⟩]
        simp only [e, List.getElem_cons_succ]
      · rw [dif_neg h2, memGet_memSet_other _ _ h, dif_neg (fun q => h2 ⟨by omega, by have := q.2; simp at this; omega⟩)]

/-- Every store keeps the canonical form. -/
theorem memSet_wf (a : Nat) (b : Byte) (h : Memory.wf s.mem = true) : Memory.wf (s.memSet a b).mem = true := Tab.wf_set _ _ _ h

theorem memPut_wf (l : List Byte) : ∀ (s : State) (a : Nat), Memory.wf s.mem = true → Memory.wf (s.memPut a l).mem = true := by
  induction l with
  | nil => exact fun s a h => h
  | cons b r ih => exact fun s a h => ih _ _ (memSet_wf s a b h)

/-- A store changes nothing but the acquisition memory. -/
theorem memPut_eq (l : List Byte) : ∀ (s : State) (a : Nat), s.memPut a l = { s with mem := (s.memPut a l).mem } := by
  induction l with
  | nil => exact fun s a => rfl
  | cons b r ih => intro s a; rw [memPut, ih]; rfl

@[simp] theorem healUnits_mem (a n : Nat) : (s.healUnits a n).mem = s.mem := rfl

@[simp] theorem spoil_mem (u : Nat) : (s.spoil u).mem = s.mem := rfl

/-- The memory after reset is in canonical form. -/
theorem reset_mem_wf : Memory.wf State.reset.mem = true := rfl

/-! ### Working memories -/

@[simp] theorem sramRd_sramWr_same (a : Nat) (w : Word) : (s.sramWr a w).sramRd a = w := Tab.get_set_same ..

theorem sramRd_sramWr_other {a b : Nat} (w : Word) (h : b / 4 ≠ a / 4) : (s.sramWr a w).sramRd b = s.sramRd b :=
  Tab.get_set_other _ _ _ h

end Sys2Proof.Machine.State
end

