-- ==== Sys2Proof/Laws/Access.lean ====
section
/-! SUPPORT. A one-word write that nothing turns away reaches the register it names. -/

namespace Sys2Proof.Machine.State

/-- The one part of a one-word register write. -/
theorem partsOf_one (m : Master) (a : Nat) (d : Word) (read : Bool) :
    partsOf m .bar0 a [d] read = [⟨m, .bar0, a, d, read, false⟩] := rfl

/-- An aligned one-word access with all byte enables to the register space has no cause of a bus error (R430, R433). -/
theorem accessCause_word {a : Nat} (ha : a % 4 = 0) (hb : a < 0x2000000) : accessCause .bar0 a 1 15 = none := by
  unfold accessCause isWindow
  have : ¬ 0x2000000 ≤ a := by omega
  simp [ha, this]

/-- A listed register is not reserved for its master (R433, R477). -/
theorem reserved_listed (t : State) (m : Master) {a : Nat} (d : Word) (hb : a < 0x2000000)
    (hf : (RegTable.find (plainOff a)).isSome = true) (hr : t.phase = 14 → m = .sc ∨ a < 0x10000 ∨ 0x1800000 ≤ a) :
    t.reserved ⟨m, .bar0, a, d, false, false⟩ = false := by
  have hf' : (RegTable.find (plainOff a)).isNone = false := by
    rw [Option.isNone_eq_false_iff]; exact hf
  cases m with
  | hp p =>
    simp only [reserved, if_pos hb, hf', Bool.false_or]
    by_cases h14 : t.phase = 14
    · rcases hr h14 with h | h
      · cases h
      · rcases h with h | h <;> simp [h]
    · simp [h14]
  | sc =>
    simp only [reserved, if_pos hb, hf', Bool.false_or]
    simp

/-- A part that reaches a register, with no array behind it and no failed island, is performed at once (R432, R437). -/
theorem perform_register (t : State) (m : Master) {a : Nat} (d : Word) (hb : a < 0x2000000)
    (hi : ∀ i, islandOf .bar0 a = some i → t.failed.contains i = false) (hn : t.portArr ⟨m, .bar0, a, d, false, false⟩ = none) :
    t.perform ⟨m, .bar0, a, d, false, false⟩ 0 = (true, t.regWrite ⟨m, .bar0, a, d, false, false⟩ 0) := by
  have hbeh : t.behind ⟨m, .bar0, a, d, false, false⟩ = none := by
    cases m with
    | hp p =>
      unfold behind
      simp only
      rw [if_neg (by omega), if_neg (by omega)]
      exact hn
    | sc => exact hn
  unfold perform
  rw [hbeh]
  simp only
  rw [if_neg]
  · cases m with
    | hp p =>
      simp only [partHost]
      rw [if_neg (by omega : ¬ 0x3000000 ≤ a), if_neg (by omega : ¬ 0x2000000 ≤ a)]
      rfl
    | sc => rfl
  · split
    · rename_i i h; rw [hi i h]; decide
    · decide

/-- The access of one word that nothing turns away is the write of its register (R430 to R438). -/
theorem access_register (t : State) (m : Master) {a : Nat} (d : Word) (ha : a % 4 = 0) (hb : a < 0x2000000)
    (hf : (RegTable.find (plainOff a)).isSome = true) (hr : t.phase = 14 → m = .sc ∨ a < 0x10000 ∨ 0x1800000 ≤ a)
    (hi : ∀ i, islandOf .bar0 a = some i → t.failed.contains i = false) (hw : t.waitsFor m = false)
    (hn : t.portArr ⟨m, .bar0, a, d, false, false⟩ = none) :
    t.access m .bar0 a [d] false 15 0 = t.regWrite ⟨m, .bar0, a, d, false, false⟩ 0 := by
  unfold access
  simp [accessCause_word ha hb, partsOf_one, reserved_listed t m d hb hf hr, Bits.forAll, partDo, hw, perform_register t m d hb hi hn]

/-- A write that its port takes, to a register that no failed island, no waiting part, no sleeping array and no march test keeps
from it, is that register's write (R432, R433, R437, R438). -/
theorem busWrite_reaches (s : State) (m : Master) (a : Nat) (d : Word) (ha : a % 4 = 0) (hb : a < 0x2000000)
    (hf : (RegTable.find (plainOff a)).isSome = true) (hr : s.phase = 14 → m = .sc ∨ a < 0x10000 ∨ 0x1800000 ≤ a)
    (hi : ∀ i, islandOf .bar0 a = some i → s.failed.contains i = false) (hw : s.waitsFor m = false)
    (ho : ∀ p : Fin 4, m = .hp p → s.portOpen p .bar0 = true)
    (hn : s.portArr ⟨m, .bar0, a, d, false, false⟩ = none) :
    s.busWrite m a d = ({ s with resp := [] } : State).regWrite ⟨m, .bar0, a, d, false, false⟩ 0 := by
  have hacc := access_register { s with resp := [] } m d ha hb hf hr hi hw hn
  unfold busWrite bus
  cases m with
  | sc => exact hacc
  | hp p =>
    have hop : ({ s with resp := [] } : State).portOpen p .bar0 = true := ho p rfl
    have hsz : ¬ (0x4000000 < a + 4 * 1) := by omega
    dsimp only
    rw [if_neg (by decide), if_neg (by simp [hop, barSize]; omega), if_neg (by decide)]
    exact hacc

end Sys2Proof.Machine.State
end

