-- ==== Sys2Proof/Laws/Engine.lean ====
section
/-! SUPPORT. What runs before an engine instruction's own effect, and what the write of a register and the end of an instruction
do (R229, R232, R243 to R245). -/

namespace Sys2Proof.Machine.State

open Bits

/-- Nothing but counters, the notes of arrays and the event stores differ, and of the registers only the listed ones. -/
structure Counted (s t : State) (l : List Nat) : Prop where
  eq : t = { s with regs := t.regs, arr := t.arr, evt := t.evt }
  rd : ∀ x, x ∉ l → t.rd x = s.rd x
  dia : ∀ m i, t.sleeping m i = s.sleeping m i

theorem Counted.refl (s l) : Counted s s l := ⟨rfl, fun _ _ => rfl, fun _ _ => rfl⟩

theorem Counted.bump {s t l} (h : Counted s t l) {a : Nat} (n : Nat) (ha : a ∈ l) : Counted s (t.bump a n) l := by
  refine ⟨?_, ?_, fun m i => h.dia m i⟩
  · have := h.eq; unfold State.bump State.wr; rw [this]
  · intro x hx
    unfold State.bump
    rw [rd_wr_other _ _ (fun e => hx (by rw [e]; exact ha))]
    exact h.rd x hx

theorem Counted.pushEv {s t l} (h : Counted s t l) (p : Fin 4) (r) (ha : R.QM_EVT_LOST_CNT p ∈ l) : Counted s (t.pushEv p r) l := by
  unfold State.pushEv
  split
  · refine ⟨?_, h.rd, h.dia⟩
    have := h.eq; unfold State.setEvt; rw [this]
  · apply Counted.bump _ _ ha
    refine ⟨?_, h.rd, h.dia⟩
    have := h.eq; unfold State.setEvt; rw [this]

theorem Counted.event {s t l} (h : Counted s t l) (p : Fin 4) (c b k i st it) (ha : R.QM_EVT_LOST_CNT p ∈ l) (hc : c ∈ l) :
    Counted s (t.event p c b k i st it) l := Counted.pushEv (h.bump _ hc) _ _ ha

theorem Counted.setArrCe {s t l} (h : Counted s t l) (m i c off) :
    Counted s (t.setArr m i (fun A => { A with ceAt := c }) off) l := by
  refine ⟨?_, h.rd, ?_⟩
  · have := h.eq; unfold State.setArr; rw [this]
  · intro m' i'
    rw [← h.dia]
    unfold State.sleeping State.arrSt State.setArr
    simp only
    by_cases e : arrNo m' i' 0 = arrNo m i off
    · rw [e, Tab.get_set_same]; rfl
    · rw [Tab.get_set_other _ _ _ e]

/-- The counters that a fetch may advance. -/
def engCounts (s : State) (e : Fin 256) : List Nat :=
  [engReg R.ME_ECC_CNT e, engReg R.ME_RES_CNT e, R.SB_EVT_CNT (s.arrPart 1 e) 0, R.QM_EVT_LOST_CNT (s.arrPart 1 e)]

theorem Counted.arrPart {s t l} (h : Counted s t l) (m i) : t.arrPart m i = s.arrPart m i := by
  rw [h.eq]; rfl

theorem ofNat_self (e : Fin 256) : Fin.ofNat 256 e.val = e := by simp

theorem Counted.sbCe {s t} (e : Fin 256) (h : Counted s t (engCounts s e)) (off) :
    Counted s (t.sbCe 1 e off) (engCounts s e) := by
  unfold State.sbCe
  have h1 := h.bump (a := engReg R.ME_ECC_CNT (Fin.ofNat 256 e.val)) 1 (by rw [ofNat_self]; simp [engCounts])
  simp only
  split
  · apply Counted.event (h1.setArrCe _ _ _ _)
    · rw [h1.arrPart]; simp [engCounts]
    · rw [h1.arrPart]; simp [engCounts]
  · exact h1

theorem check_clean {s t} (e : Fin 256) (h : Counted s t (engCounts s e)) (off ecc m : Nat) (he : ecc ≠ 2)
    (hb : s.sramBadAt (sramAt 1 e off) = false) :
    (t.sramCheck 1 e off ecc m).1 = false ∧ Counted s (t.sramCheck 1 e off ecc m).2 (engCounts s e) := by
  have hb' : t.sramBadAt (sramAt 1 e off) = false := by rw [h.eq]; exact hb
  unfold State.sramCheck
  simp only [hb', he]
  split
  · simp_all
  · split
    · exact ⟨rfl, h.sbCe e off⟩
    · exact ⟨rfl, h⟩

/-- No march test has the slice of the engine's scratchpad that holds `a` in front. -/
def NoMarch (s : State) (e : Fin 256) (a : Nat) : Prop :=
  ∀ (p : Fin 4) (k n : Nat) (r : List (Nat × Nat)), s.mt[p].busy = true → s.mt[p].mem = 1 → s.mt[p].index = e.val →
    s.mt[p].slices = (k, n) :: r → k ≠ a / 4096

theorem noMarch_stalls {s : State} {e : Fin 256} {a : Nat} (h : NoMarch s e a) : s.mtStalls 1 e a true = false := by
  unfold State.mtStalls
  rw [List.any_eq_false]
  intro p _
  simp only [Bool.and_eq_true, beq_iff_eq, not_and]
  intro h1
  split
  · rename_i k n r hs
    have := h p k n r h1.1.1.1 h1.1.1.2 h1.1.2 hs
    simp [this]
  · simp

theorem noMarch_touch {s : State} {e : Fin 256} {a : Nat} (h : NoMarch s e a) : s.mtTouch 1 e a = s := by
  unfold State.mtTouch
  apply forAll_nothing
  intro p _
  dsimp only
  split
  · rename_i k n r hs
    rw [if_neg]
    intro hc
    simp only [Bool.and_eq_true, beq_iff_eq, Bool.not_eq_true'] at hc
    exact h p k n r hc.1.1.1.1 hc.1.1.2 hc.1.2 hs hc.2
  · rfl

/-- An instruction that is fetched without an error that stops it goes on to its own effect, with only counters changed before. -/
theorem engRun_runs {s : State} {e : Fin 256} {op : Nat} {h : Haz} (h1 : s.eng[e].st = 2) (h2 : s.pcOk e = true)
    (h3 : (s.engWord e).op = op) (h4 : (s.engWord e).legal (s.gangSize e) = true) (h5 : s.sleeping 1 e = false)
    (h6 : NoMarch s e s.eng[e].pc) (h7 : s.sramBadAt (sramAt 1 e s.eng[e].pc) = false) (hf : h.fetch.val ≠ 2)
    (hx : h.res.val ≠ 2) (ck : Bool) (run : EngWord → State → State) :
    ∃ t, s.engRun e op ck h run = run (s.engWord e) t ∧ Counted s t (engCounts s e) := by
  have hm := noMarch_stalls h6
  have ht := noMarch_touch h6
  unfold State.engRun
  simp only [h1, h2, h3, h4, h5, hm, ht]
  obtain ⟨c1, c2⟩ := check_clean e (Counted.refl s (engCounts s e)) s.eng[e].pc h.fetch 0 hf h7
  simp only [c1]
  have hx' : ¬ (h.res = 2) := fun q => hx (by rw [q]; rfl)
  simp only [ne_eq, not_true_eq_false, Bool.not_true, Bool.false_eq_true, or_self, if_false, hx', and_false]
  refine ⟨_, rfl, ?_⟩
  split
  · exact c2.bump 1 (by simp [engCounts])
  · exact c2

theorem setGpr_eng_same (s : State) (e : Fin 256) (n : Nat) (w : Word) :
    (s.setGpr e n w).eng[e] = { s.eng[e] with regs := ((s.setGpr e n w).eng[e]).regs } := by
  unfold State.setGpr State.setEng
  split <;> simp

theorem setGpr_eng_other (s : State) (e k : Fin 256) (n : Nat) (w : Word) (h : k ≠ e) :
    (s.setGpr e n w).eng[k] = s.eng[k] := by
  unfold State.setGpr State.setEng
  split
  · rfl
  · have : e.val ≠ k.val := fun q => h (Fin.ext q.symm)
    simp [this]

theorem setGpr_eq (s : State) (e : Fin 256) (n : Nat) (w : Word) : s.setGpr e n w = { s with eng := (s.setGpr e n w).eng } := by
  unfold State.setGpr State.setEng
  split <;> rfl

theorem gpr_setGpr (s : State) (e : Fin 256) (d n : Nat) (w : Word) (hd : d < 16) (hn : n < 16) :
    (s.setGpr e d w).gpr e n = if n = d ∧ n ≠ 0 then w else s.gpr e n := by
  unfold State.setGpr State.gpr State.setEng
  rw [Nat.mod_eq_of_lt hd, Nat.mod_eq_of_lt hn]
  by_cases h0 : n = 0
  · simp [h0]
  · by_cases hd0 : d = 0
    · simp [h0, hd0]
    · by_cases h : n = d
      · subst h; simp [h0]
      · have : (Fin.ofNat 16 d).val ≠ (Fin.ofNat 16 n).val := by
          simp only [Fin.val_ofNat, Nat.mod_eq_of_lt hd, Nat.mod_eq_of_lt hn]; exact fun q => h q.symm
        simp only [Fin.val_ofNat, ne_eq] at this
        simp [h0, hd0, h]
        rw [Vector.getElem_set_ne]
        exact this

theorem d_lt (w : Word) : (EngWord.of w).d < 16 := by
  unfold EngWord.of fld; simp only; exact Nat.mod_lt _ (by decide)


/-- The end of an instruction: the engine goes on at `next`, and nothing but its pc, its step count and ME_PC changes. -/
theorem retire_eng (s : State) (e : Fin 256) (k next : Nat) : (s.retire e k next).eng = s.eng.set e { s.eng[e] with pc := next } := rfl

theorem retire_eq (s : State) (e : Fin 256) (k next : Nat) :
    s.retire e k next = { s with eng := (s.retire e k next).eng, regs := (s.retire e k next).regs } := rfl

end Sys2Proof.Machine.State
end

