-- ==== Sys2Proof/Machine/Pins.lean ====
section
/-! DEFINITION. What the balls of the part show in a state: terminations, REF_OUT, SYNC_OUT, STCLK, lanes, TRIG_IO, CLKREQ# and
the latency tolerance of a port (R13, R51, R68, R74, R81, R149, R391, R400, R504, R521). No step reads them. -/

namespace Sys2Proof.Machine

open Bits

/-- What an output ball shows: a level, high impedance, or a clock of the given frequency in Hz as numerator and denominator, with
the stamp of the rising edge from which its divider runs, where a SYNC has restarted it. -/
inductive Pin where
  | level (b : Bool)
  | highZ
  | clock (num den : Nat) (rise : Option Stamp)
  deriving DecidableEq, Repr

namespace State

/-- The 100 Ω termination of a channel is connected: TERM, and only in differential mode (R13). -/
def terminated (s : State) (c : Fin 128) : Bool := s.fb (R.CH_CTL c) 2 && !s.fb (R.CH_CTL c) 1

/-- The nominal frequency of REF_IN in Hz, as it is in force (R44). -/
def refHz (s : State) : Nat := match s.tb.freq with | 0 => 10000000 | 1 => 25000000 | 2 => 100000000 | _ => 156250000

/-- REF_OUT (R51, R521): off, REF_IN buffered while it is present, or TBCLK / (2 × (DIV + 1)) while TBPLL is locked and does not
coast. -/
def refOut (s : State) : Pin :=
  match s.f R.TB_REF_OUT_CTL 9 8 with
  | 1 => if s.tb.refOk then .clock s.refHz 1 none else .level false
  | 2 => if s.tb.lock && !s.tb.coast then .clock 2000000000 (2 * (s.f R.TB_REF_OUT_CTL 7 0 + 1)) none else .level false
  | _ => .level false

/-- SYNC_OUT (R74): high for one reference period from its last rise, in modes 1 and 2. -/
def syncOut (s : State) : Pin :=
  match s.tb.syncOutAt with
  | some r => .level (s.syncMode != 0 && upto r s.now && before s.now (r + BitVec.ofNat 64 (State.refFifths s.tb.freq * 1024 / 5)))
  | none => .level false

/-- FCW with the ramp's offset, as a numerator over `s.tb.ramp.den` (R69). -/
def fcwSum (s : State) : Nat := ((s.tb.sgFcw.toNat : Int) * s.tb.ramp.den + s.tb.ramp.num).toNat

/-- STCLK output `k` (R67 to R69, R73): f_s / 2^DIVL while SGPLL is locked and its EN is 1; high impedance after THERMAL (R504). -/
def stclk (s : State) (k : Fin 4) : Pin :=
  if s.pwr.dark then .highZ
  else if s.tb.sgLock && bit s.tb.sgCtl (4 * k.val + 3) then
    .clock (125000000 * s.fcwSum) (s.tb.ramp.den * 2 ^ (24 + fld s.tb.sgCtl 17 16 + 1 + fld s.tb.sgCtl (4 * k.val + 2) (4 * k.val)))
      s.tb.divFrom
  else .level false

/-- WCK and CK of a quadrant are gated (R51, R76): while its DPLL is unlocked, from the quadrant's acknowledgement or 2 µs after the
declaration on. -/
def wckGated (s : State) (q : Fin 4) : Bool :=
  let D := s.tb.dpll[q]
  !D.lock && (D.gated || (match D.lossAt with | some a => s.since a 4000 | none => true))

/-- WCK of a quadrant's DRAM (R75): 3,200, 3,750 or 4,266.67 MHz. CK is a quarter of it, the data rate twice it. -/
def wckHz (s : State) (q : Fin 4) : Nat × Nat :=
  match s.dpllRate q with
  | 1 => (3750000000, 1)
  | 2 => (12800000000, 3)
  | _ => (3200000000, 1)

/-- The data rate of a quadrant in transfers a second (R75). -/
def dataRate (s : State) (q : Fin 4) : Nat × Nat := (2 * (s.wckHz q).1, (s.wckHz q).2)

/-- The WCK and CK balls of a quadrant (R51, R75, R76). -/
def wck (s : State) (q : Fin 4) : Pin := if s.wckGated q then .level false else .clock (s.wckHz q).1 (s.wckHz q).2 none
def ck (s : State) (q : Fin 4) : Pin := if s.wckGated q then .level false else .clock (s.wckHz q).1 (4 * (s.wckHz q).2) none

/-- A lane as its balls show it (R51, R286, R504): whether OUT_P is driven above OUT_N. INV swaps them. -/
def lanePin (s : State) (n : Fin 32) : Pin :=
  if s.pwr.dark then .highZ else .level (s.lane n != s.fb (R.SG_OUT (n.val / 4) (n.val % 4)) 1)

/-- A TRIG_IO pin (R147, R149, R504): the level of its last launch as an output, with INV, else high impedance. -/
def trigIo (s : State) (k : Fin 16) : Pin :=
  if s.pwr.dark || !s.ioIsOut k then .highZ else .level (s.trg.out.getLsbD k.val != bit s.trg.route[k] 2)

/-- The device holds CLKREQ# of a port low (R391): the port exists and its PERST# is released. -/
def clkreqLow (s : State) (p : Fin 4) : Bool := s.present p && !s.port[p].perst

end State
end Sys2Proof.Machine
end

