-- ==== Sys2Proof/Tests/Slice0.lean ====
section
/-! SUPPORT. Tests: ill-formed operands are refused, and for each statement a state and operands that meet the hypotheses of each of
its clauses, with what the step then leaves. -/

namespace Sys2Proof.Tests

open Machine Claims Bits State

set_option Elab.async false

/-! ## Helpers -/

/-- A port that is open: out of PERST#, its link up, Memory Space Enable and Bus Master Enable set. -/
def openPort : PortSt := { perst := false, link := true, cfg := [(4, 6#32)], attached := true }

/-- A device in phase RUN: TBPLL locked at count 1,000,000, every PLL locked, all four ports open. -/
def live : State :=
  forAll (List.finRange 4) { State.reset with
      phase := 5
      tb := { count := 1000000#54, ever := true, lock := true, refOk := true, sgLock := true, sgEver := true
              dpll := Vector.replicate 4 { lock := true, gated := false } }
      port := Vector.replicate 4 openPort } (fun p s => s.wr (R.HP_STATUS p) 0x10000#32)

/-- The state after a command; the state itself where the command stops. -/
def after (c : Instr) (s : State) : State := match exec c s with | .next t => t | _ => s

/-- The command goes on. -/
def goes (c : Instr) (s : State) : Bool := match exec c s with | .next _ => true | _ => false

/-- The command stops as ill-formed. -/
def stops (c : Instr) (s : State) : Bool := match exec c s with | .fault .illFormed => true | _ => false

/-- `Open` as a test on host port `p`. -/
def openB (s : State) (p : Fin 4) (a : Nat) : Bool :=
  s.phase != 15 && s.phase != 14 && (match islandOf .bar0 a with | some i => !s.failed.contains i | none => true) &&
    !s.waitsFor (.hp p) && s.portOpen p .bar0

theorem open_of {s : State} {p : Fin 4} {a : Nat} (h : openB s p a = true) : Open s (.hp p) a := by
  simp only [openB, Bool.and_eq_true, bne_iff_ne, Bool.not_eq_true'] at h
  obtain ⟨⟨⟨⟨h1, h2⟩, h3⟩, h4⟩, h5⟩ := h
  refine ⟨h1, fun h => absurd h h2, ?_, h4, ?_⟩
  · intro i hi; rw [hi] at h3; simpa using h3
  · intro q hq; cases hq; exact h5

/-- A counter has counted one, as a test. -/
def counted (s t : State) (a : Nat) : Bool := t.rd a == sat32 (s.rd a) 1

/-! ## The Moth engines -/

/-- Engine 0 executes the word `w` at address 0, with code below 0x100 and registers g1 = 0x104, g2 = 3. -/
def engS (w : Word) : State :=
  let s := (live.wr (engReg R.ME_CODE 0) 0x100#32).sramWr (sramAt 1 0 0) w
  s.setEng 0 (fun E => { E with st := 2, regs := (E.regs.set 1 0x104#32).set 2 3#32 })

/-- An instruction word from its fields (R242): operation code, D, A and the low 18 bits. -/
def insn (op d a imm : Nat) : Word := word (op * 67108864 + d * 4194304 + a * 262144 + imm)

/-- `Runs` as a test in a device without march tests. -/
def runsB (s : State) (e : Fin 256) (op : Nat) (h : Haz) : Bool :=
  s.eng[e].st == 2 && s.pcOk e && (s.engWord e).op == op && (s.engWord e).legal (s.gangSize e) && !s.sleeping 1 e &&
    !s.sramBadAt (sramAt 1 e s.eng[e].pc) && (List.finRange 4).all (fun p => !s.mt[p].busy) && h.fetch.val != 2 && h.res.val != 2

theorem noMarch_of {s : State} (h : (List.finRange 4).all (fun p => !s.mt[p].busy) = true) (e : Fin 256) (a : Nat) : NoMarchAt s e a := by
  intro p k n r hb
  have := List.all_eq_true.mp h p (List.mem_finRange p)
  simp only [hb, Bool.not_true, Bool.false_eq_true] at this

theorem runs_of {s : State} {e : Fin 256} {op : Nat} {h : Haz} (r : runsB s e op h = true) : Runs s e op h := by
  simp only [runsB, Bool.and_eq_true, beq_iff_eq, bne_iff_ne, Bool.not_eq_true'] at r
  obtain ⟨⟨⟨⟨⟨⟨⟨⟨h1, h2⟩, h3⟩, h4⟩, h5⟩, h6⟩, h7⟩, h8⟩, h9⟩ := r
  exact ⟨⟨h1, h2, h3, h4, h5, noMarch_of h7 _ _, h6⟩, h8, h9⟩

/-- A device in which every register instruction, immediate instruction, branch and jump of R243 meets the hypotheses of its row. -/
theorem test_engine_rows : [0x01, 0x02, 0x03, 0x04, 0x05, 0x06, 0x07, 0x08, 0x09, 0x0A, 0x0B, 0x32].all (fun op =>
      runsB (engS (insn op 3 1 0x8000)) 0 op {}) = true ∧
    [0x10, 0x11, 0x12, 0x13, 0x14, 0x15, 0x16, 0x18, 0x19, 0x1A, 0x1B, 0x28, 0x29, 0x2A, 0x2B, 0x2C, 0x2D, 0x2E, 0x2F].all (fun op =>
      runsB (engS (insn op 3 1 5)) 0 op {}) = true ∧ runsB (engS (insn 0x17 3 0 5)) 0 0x17 {} = true := by decide +kernel

/-- The spec's worked example of a decoder program: LUI g1, 1 is 0x5C400001. -/
theorem test_word_lui : insn 0x17 1 0 1 = 0x5C400001#32 ∧ (after (.meLui 0 {}) (engS 0x5C400001#32)).gpr 0 1 = 0x10000#32 := by decide +kernel

/-- Register results: ADD wraps, SRA keeps the sign, SLT is signed, writes to g0 are discarded. -/
theorem test_engine_results :
    (after (.meAdd 0 {}) (engS (insn 0x01 3 1 (2 * 16384)))).gpr 0 3 = 0x107#32 ∧
    (after (.meSub 0 {}) (engS (insn 0x02 3 2 (1 * 16384)))).gpr 0 3 = 0xFFFFFEFF#32 ∧
    (after (.meMul 0 {}) (engS (insn 0x09 3 1 (2 * 16384)))).gpr 0 3 = 0x30C#32 ∧
    (after (.meSlt 0 {}) (engS (insn 0x0A 3 2 (1 * 16384)))).gpr 0 3 = 1#32 ∧
    (after (.meAddi 0 {}) (engS (insn 0x10 3 2 0x3FFFF))).gpr 0 3 = 2#32 ∧
    (after (.meAndi 0 {}) (engS (insn 0x11 3 2 0x3FFFE))).gpr 0 3 = 2#32 ∧
    (after (.meExt 0 {}) (engS (insn 0x18 3 1 (2 * 32 + 2)))).gpr 0 3 = 1#32 ∧
    (after (.meRev 0 {}) (engS (insn 0x1A 3 2 3))).gpr 0 3 = 12#32 ∧
    (after (.meAdd 0 {}) (engS (insn 0x01 0 1 (2 * 16384)))).gpr 0 0 = 0#32 := by decide +kernel

/-- Branches: BEQ not taken goes on behind itself, BNE is taken to its own address plus 4 × OFF. -/
theorem test_branches : (after (.meBeq 0 {}) (engS (insn 0x28 1 2 5))).eng[(0 : Fin 256)].pc = 4 ∧
    (after (.meBne 0 {}) (engS (insn 0x29 1 2 5))).eng[(0 : Fin 256)].pc = 20 ∧
    (after (.meJal 0 {}) (engS (insn 0x2E 3 0 5))).gpr 0 3 = 4#32 ∧ (after (.meJal 0 {}) (engS (insn 0x2E 3 0 5))).eng[(0 : Fin 256)].pc = 20 := by
  decide +kernel

/-- `Reachable` as a test. -/
def reachB (s : State) (e : Fin 256) (n : Nat) (h : Haz) : Bool :=
  effAddr s e % n == 0 && s.inData e (effAddr s e) n && !s.sramBadAt (sramAt 1 e (effAddr s e)) && h.data.val != 2

theorem reach_of {s : State} {e : Fin 256} {n : Nat} {h : Haz} (hm : (List.finRange 4).all (fun p => !s.mt[p].busy) = true)
    (r : reachB s e n h = true) : Reachable s e n h := by
  simp only [reachB, Bool.and_eq_true, beq_iff_eq, bne_iff_ne, Bool.not_eq_true'] at r
  obtain ⟨⟨⟨h1, h2⟩, h3⟩, h4⟩ := r
  exact ⟨h1, h2, noMarch_of hm _ _, h3, h4⟩

/-- The loads and stores, each at an aligned address of the data region, and once misaligned and once outside it. -/
theorem test_memory_rows :
    [(0x20, 4), (0x21, 4), (0x22, 2), (0x23, 2), (0x24, 1), (0x25, 1)].all (fun x =>
      runsB (engS (insn x.1 2 1 4)) 0 x.1 {} && reachB (engS (insn x.1 2 1 4)) 0 x.2 {} &&
      runsB (engS (insn x.1 2 0 4)) 0 x.1 {} && effAddr (engS (insn x.1 2 0 4)) 0 % x.2 == 0 && !(engS (insn x.1 2 0 4)).inData 0 4 x.2) = true ∧
    [(0x20, 4), (0x21, 4), (0x22, 2), (0x23, 2)].all (fun x =>
      runsB (engS (insn x.1 2 1 5)) 0 x.1 {} && effAddr (engS (insn x.1 2 1 5)) 0 % x.2 != 0) = true := by decide +kernel

/-- SB writes one byte and LBU reads it back; LW out of the data region faults with cause 3. -/
theorem test_store_load :
    (after (.meSb 0 {}) (engS (insn 0x25 2 1 5))).sramRd (sramAt 1 0 0x108) = 0x300#32 ∧
    ((after (.meLw 0 {}) (engS (insn 0x20 2 0 4))).eng[(0 : Fin 256)].st, (after (.meLw 0 {}) (engS (insn 0x20 2 0 4))).rd (engReg R.ME_CAUSE 0)) =
      (5, 3#32) := by decide +kernel

/-- A symbol, a loss and a link word for the waiting instructions. -/
def sym0 : Sym := ⟨0x5000#64, 0xABCD#32, 0x40000003#32, false⟩
def engF (w : Word) : State := (engS w).setEng 0 (fun E => { E with fifo := [sym0], link := [7#32], emask := 31 })
theorem test_symbol_rows :
    runsB (engF (insn 0x30 3 0 1)) 0 0x30 {} = true ∧ runsB (engS (insn 0x30 3 0 1)) 0 0x30 {} = true ∧
    runsB (engF (insn 0x31 3 0 7)) 0 0x31 {} = true ∧ runsB (engS (insn 0x31 3 0 7)) 0 0x31 {} = true ∧
    runsB (((engF (insn 0x31 3 0 1))).setEng 0 (fun E => { E with latch := some sym0 })) 0 0x31 {} = true ∧
    runsB (engS (insn 0x31 3 0 1)) 0 0x31 {} = true ∧
    (after (.meSpop 0 {}) (engF (insn 0x30 3 0 1))).gpr 0 3 = 0xABCD#32 ∧
    (after (.meSpop 0 {}) (engF (insn 0x30 3 0 1))).eng[(0 : Fin 256)].slot[(1 : Fin 4)] = ⟨0x5000#64, true, false⟩ ∧
    (after (.meSpop 0 {}) (engF (insn 0x30 3 0 1))).eng[(0 : Fin 256)].sflags = 1 ∧
    (after (.meSpop 0 {}) (engS (insn 0x30 3 0 1))).eng[(0 : Fin 256)].st = 3 := by decide +kernel

theorem test_timer_link_csr_rows :
    runsB (engS (insn 0x33 5 1 0)) 0 0x33 {} = true ∧ runsB (engS (insn 0x33 8 0 0)) 0 0x33 {} = true ∧
    runsB (engS (insn 0x36 0 1 0)) 0 0x36 {} = true ∧
    runsB ((engS (insn 0x36 0 1 0)).setEng 0 (fun E => { E with link := List.replicate 8 0#32 })) 0 0x36 {} = true ∧
    runsB (engF (insn 0x37 3 0 0)) 0 0x37 {} = true ∧ runsB (engS (insn 0x37 3 0 0)) 0 0x37 {} = true ∧
    runsB (engS (insn 0x38 3 1 (4096 + 4))) 0 0x38 {} = true ∧
    (after (.meTset 0 {}) (engS (insn 0x33 5 1 0))).eng[(0 : Fin 256)].timer[(1 : Fin 2)].at_ = some 0x104#64 ∧
    (after (.meLget 0 {}) (engF (insn 0x37 3 0 0))).gpr 0 3 = 7#32 ∧
    (after (.meCsr 0 {}) (engS (insn 0x38 3 1 (4096 + 4)))).eng[(0 : Fin 256)].sflags = 4 := by decide +kernel

theorem test_message_rows :
    runsB (engS (insn 0x34 0 1 5)) 0 0x34 {} = true ∧
    runsB (engS (insn 0x35 2 1 (8 * 256 + 3))) 0 0x35 {} = true ∧ (engS (insn 0x35 2 1 (8 * 256 + 3))).gangSize 0 = 1 ∧
    ((engS (insn 0x35 2 1 (8 * 256 + 3))).setEng 0 (fun E => { E with port := List.replicate 4 ⟨0, 0, 0, 0, [], 0⟩ })).msgRoom 0 = false ∧
    runsB (engF (insn 0x39 0 0 0)) 0 0x39 {} = true ∧ (engF (insn 0x39 0 0 0)).takeEvent 0 = some 0 ∧
    runsB (engS (insn 0x39 0 0 0)) 0 0x39 {} = true ∧ (engS (insn 0x39 0 0 0)).takeEvent 0 = none ∧
    runsB (engS (insn 0x3A 0 0 0)) 0 0x3A {} = true ∧
    (after (.meHalt 0 {}) (engS (insn 0x3A 0 0 0))).eng[(0 : Fin 256)].st = 4 ∧
    counted (engS (insn 0x3A 0 0 0)) (after (.meHalt 0 {}) (engS (insn 0x3A 0 0 0))) (R.ME_EVT_CNT 0 0 3) = true ∧
    (after (.meMsnd 0 {}) (engS (insn 0x35 2 1 (8 * 256 + 3)))).eng[(0 : Fin 256)].port.map (fun m => (m.queue, m.type, m.bytes.length)) =
      [(0x104, 3, 8)] := by decide +kernel

/-- WAIT takes the symbol at equal stamps, the timer when it is earlier. -/
theorem test_wait_order :
    ((engF 0#32).setEng 0 (fun E => { E with timer := E.timer.set 0 ⟨some 0x5000#64, true⟩ })).takeEvent 0 = some 0 ∧
    ((engF 0#32).setEng 0 (fun E => { E with timer := E.timer.set 0 ⟨some 0x4FFF#64, true⟩ })).takeEvent 0 = some 1 := by decide +kernel

theorem test_unblock_and_illegal :
    canResume 0 ((engF (insn 0x30 3 0 1)).setEng 0 (fun E => { E with st := 3 })) = true ∧
    ((engS 0#32).setEng 0 (fun E => { E with pc := 0xFE })).codeSize 0 < 0xFE + 4 ∧
    ((after (.illegalInstruction 0) ((engS 0#32).setEng 0 (fun E => { E with pc := 0xFE }))).rd (engReg R.ME_CAUSE 0)) = 3#32 ∧
    ((after (.illegalInstruction 0) ((engS 0#32).setEng 0 (fun E => { E with pc := 2 }))).rd (engReg R.ME_CAUSE 0)) = 2#32 ∧
    ((after (.illegalInstruction 0) (engS 0#32)).rd (engReg R.ME_CAUSE 0)) = 1#32 ∧ (engS 0#32).pcOk 0 = true ∧
    ((engS 0#32).engWord 0).legal ((engS 0#32).gangSize 0) = false := by decide +kernel

/-- Residue mismatches and an uncorrectable fetch of a checked instruction (R244, R245). -/
theorem test_engine_faults :
    (after (.meAdd 0 { res := 1 }) (engS (insn 0x01 3 1 0x8000))).rd (engReg R.ME_RES_CNT 0) = 1#32 ∧
    (after (.meAdd 0 { res := 1 }) (engS (insn 0x01 3 1 0x8000))).gpr 0 3 = 0x107#32 ∧
    (after (.meAdd 0 { res := 2 }) (engS (insn 0x01 3 1 0x8000))).rd (engReg R.ME_CAUSE 0) = 4#32 ∧
    (after (.meAdd 0 { res := 2 }) (engS (insn 0x01 3 1 0x8000))).gpr 0 3 = 0#32 ∧
    (after (.meHalt 0 { fetch := 2 }) (engS (insn 0x3A 0 0 0))).rd (engReg R.ME_CAUSE 0) = 5#32 := by decide +kernel

/-! ## The timebase -/

/-- The device with other timebase state. -/
def tbS (h : TimeSt → TimeSt) : State := live.setTb h

theorem test_reference :
    goes .lossOfReference live = true ∧ (after .lossOfReference live).tb.coast = true ∧
    counted live (after .lossOfReference live) (R.TB_EVT_CNT 0) = true ∧
    (1024 * refFifths live.tb.monFreq < ((5 * 0 : Int) - 1024 * refFifths live.tb.monFreq).natAbs * 1000) ∧
    (((5 * (1024 * refFifths live.tb.monFreq / 5 : Nat) : Int) - 1024 * refFifths live.tb.monFreq).natAbs * 1000 ≤
      1024 * refFifths live.tb.monFreq) ∧
    (after .refQualified (tbS (fun T => { T with refOk := false, coast := true }))).tb.relocking = true ∧
    20000000 ≤ ((tbS (fun T => { T with count := 20000001#54 })).tb.count - 1#54).toNat ∧
    (after .applyQualifyTimeout (tbS (fun T => { T with count := 20000001#54, applyAt := some 1#54 }))).tb.coast = true := by decide +kernel

/-- Every PLL but TBPLL has been locking since count 0 with LOCK_N = 16, and the spare of TBPLL too (R48). -/
def lockingS : State := tbS (fun T => { T with relocking := true, spareAcq := some ⟨0#54, 16⟩, acq := Vector.replicate 5 (some ⟨0#54, 16⟩)
                                               sgLock := false, dpll := Vector.replicate 4 {} })
theorem test_plls :
    (after (.pllLock 0) { State.reset with tb := { refOk := true } }).tb.count = 0#54 ∧
    (after (.pllLock 0) { State.reset with tb := { refOk := true } }).tb.lfsr = 0x13579BDF#32 ∧
    (after (.pllLock 0) lockingS).tb.spare = true ∧
    (after (.pllLock 3) lockingS).tb.dpll[(2 : Fin 4)].lock = true ∧
    ((lockingS.acquired 4, (tbS (fun T => { T with sgLock := false })).acquired 4)) = (true, false) ∧
    counted lockingS (after (.pllLock 5) lockingS) (R.TB_EVT_CNT 8) = true ∧
    (after (.pllLossOfLock 2) live).tb.dpll[(2 : Fin 4)].lolAt = some 1000000#54 ∧
    (after (.pllLossOfLock 4) live).tb.sgLock = false ∧
    (after .tbpllLossOfLock live).tb.relocking = true ∧
    4000 ≤ ((tbS (fun T => { T with lolSusp := some 996000#54 })).tb.count - 996000#54).toNat ∧
    (after .lolSuspendEnd (tbS (fun T => { T with lolSusp := some 996000#54 }))).tb.lolSusp = none := by decide +kernel

/-- A relock boundary at the ends of the span that R62 allows: J is −512 and +512. -/
def relockS : State := tbS (fun T => { T with relocking := true, spare := true, coast := true, lock := false })
theorem test_relock :
    (after (.relockBoundary 512) relockS).rd R.TB_LAST_JUMP = 0xFFFFFE00#32 ∧
    (after (.relockBoundary 1536) relockS).rd R.TB_LAST_JUMP = 0x200#32 ∧
    (after (.relockBoundary 1536) relockS).tb.count = 1000001#54 ∧
    counted relockS (after (.relockBoundary 512) relockS) (R.TB_EVT_CNT 3) = true := by decide +kernel

theorem test_wrap_and_sync :
    (after .counterWrap (tbS (fun T => { T with count := BitVec.allOnes 54 }))).tb.count = 0#54 ∧
    counted live (after .counterWrap (tbS (fun T => { T with count := BitVec.allOnes 54 }))) (R.TB_EVT_CNT 4) = true ∧
    upto 0x3000#64 live.now = true ∧ (after .syncRestart (tbS (fun T => { T with syncAt := [0x3000#64] }))).tb.syncAt = [] ∧
    (live.wr R.TB_SYNC_CTL 1#32).fb R.TB_SYNC_CTL 0 = true ∧
    (after (.sampledSync false 2) (live.wr R.TB_SYNC_CTL 1#32)).tb.syncAt.length = 1 ∧
    (after (.sampledSync true 2) (tbS (fun T => { T with ownPulse := true }))).tb.ownOut = true ∧
    (after (.sampledSync true 2) (tbS (fun T => { T with ownOut := true }))).tb.syncAt.length = 1 := by decide +kernel

/-- The Galois step of the dither LFSR: a 1 that leaves at the top comes back at powers 22, 2, 1 and 0 (R53). -/
theorem test_lfsr : lfsrStep 0x80000000#32 = 0x00400007#32 ∧ lfsrStep 1#32 = 2#32 := by decide +kernel

/-- A ramp of two points, one segment of two updates. -/
def rampS : State := ((live.wr R.TB_RAMP_CTL 2#32).wr (R.TB_RAMP_DUR 0) 2#32).setTb (fun T => { T with ramp := { run := true } })
theorem test_ramp :
    rampS.tb.ramp.upd + 1 < rampS.rampDur rampS.tb.ramp.seg ∧ (after .rampUpdate rampS).tb.ramp.upd = 1 ∧
    (rampS.since rampS.tb.ramp.at_ 16, (rampS.setTb (fun T => { T with ramp := { run := true, at_ := 999990#54 } })).since 999990#54 16) =
      (true, false) := by decide +kernel

theorem test_timebase_commands :
    openB live 0 R.TB_APPLY = true ∧ openB live 0 R.TB_SYNC_FIRE = true ∧ openB live 0 R.TB_SG_APPLY = true ∧ openB live 0 R.TB_RAMP_GO = true ∧
    (after (.tbApply (.hp 0) 0) live).f R.TB_PLL_GEN 15 0 = 1 ∧ (after (.tbApply (.hp 0) 0) live).tb.lock = false ∧
    counted live (after (.tbApply (.hp 0) 1) live) (R.TB_EVT_CNT 12) = true ∧
    (live.wr R.TB_SYNC_CTL 4#32).f R.TB_SYNC_CTL 2 1 = 2 ∧ (after (.tbSyncFire (.hp 0) 0) (live.wr R.TB_SYNC_CTL 4#32)).tb.ownPulse = true ∧
    live.sgQuiet = true ∧ (after (.tbSgApply (.hp 0) 0) live).tb.sgLock = false ∧ (live.rd R.TB_SG_FCW).toNat = 0x40000000 ∧
    ((live.wr R.TB_SG_FCW 0x20000000#32).rd R.TB_SG_FCW).toNat = 0x20000000 ∧
    (after (.tbSgApply (.hp 0) 0) (live.wr R.TB_SG_FCW 0x20000000#32)).tb.sgFcw = 0x20000000#32 ∧
    (after (.rampGo (.hp 0) 0) live).tb.ramp.run = true ∧
    (after (.rampStop (.hp 0) 0) rampS).tb.ramp.run = false ∧
    (live.wr (R.TB_PTM_CTL 0) 1#32).fb (R.TB_PTM_CTL 0) 0 = true ∧
    ((live.wr (R.TB_PTM_CTL 0) 1#32).ptmDue 0, (tbS (fun T => { T with ptmAt := T.ptmAt.set 0 (some 999999#54) })).ptmDue 0) =
      (true, false) ∧
    (after (.ptmDialogue 0 5) (live.wr (R.TB_PTM_CTL 0) 1#32)).tb.ptmT1[(0 : Fin 4)] = some (live.now + 5#64) ∧
    (after (.ptmResponse 0 100#64 30#64) (tbS (fun T => { T with ptmT1 := T.ptmT1.set 0 (some 7#64) }))).rd (R.TB_PTM_HOST_LO 0) = 70#32 := by
  decide +kernel

/-! ## Channel groups and packers -/

/-- The device at another count. -/
def State_at (s : State) (n : Nat) : State := s.setTb (fun T => { T with count := BitVec.ofNat 54 n })

/-- A one-word register write of port 0. -/
def put (a : Nat) (d : Word) (s : State) : State := after (.registerWrite (.hp 0) .bar0 a [d] 15 0 false) s

/-- Every channel's pins lie 200 mV below its trip point. -/
def lowPins (s : State) : State := { s with ch := s.ch.map (fun C => { C with vp := -200000 }) }

/-- The channels of group 0 are enabled and group 0 stands ready in TRANSITION with a ring of 16 blocks; the share of partition 0 is 16 MiB and the
channels are active. -/
def readyG : State :=
  { put (R.CH_GRP_RGN_CTL 0) 16#32 (put (R.CH_GRP_CTL 0) 1#32
      (forAll (List.range 8) (lowPins (live.wr (R.DC_PART_LIMIT 0) 16#32)) (fun c s => put (R.CH_CTL c) 1#32 s))) with
    dc := Vector.replicate 16 { st := .active } }

/-- The group has been started at count 1,000,000. -/
def waitG : State := after (.chGrpGo (.hp 0) (oneBit 0)) readyG
def runG : State := after (.groupRun 0) (State_at waitG 1020000)

theorem test_unit_commands :
    [R.CH_GRP_GO, R.CH_GRP_HALT, R.TDC_CNT_CLR, R.TRG_ARM, R.TRG_HALT, R.IU_SNAP, R.IU_SNAP_CLR, R.SG_GO, R.SG_HALT, R.SB_DIA_ENTER,
      R.SB_DIA_WAKE].all (fun a => openB live 0 a) = true ∧
    [Own.grp, .seq, .iu, .sg, .bank].all (fun o => live.reaches (.hp 0) (live.partOf o 3)) = true := by decide +kernel

theorem test_group_start :
    openB readyG 0 R.CH_GRP_GO = true ∧ readyG.reaches (.hp 0) (readyG.grpPart 0) = true ∧ readyG.grpCause 0 = none ∧ readyG.calBusy 0 = false ∧
    waitG.grp[(0 : Fin 16)].start = some (1020000 * 1024#64) ∧
    (after (.chGrpGo (.hp 0) (oneBit 0)) (put (R.CH_GRP_CTL 0) 0x41#32 readyG)).grp[(0 : Fin 16)].start = none ∧
    (readyG.setGrp 0 (fun G => { G with calAt := some 1#54 })).calBusy 0 = true ∧
    (readyG.setGrp 0 (fun G => { G with calAt := some 1#54 })).grpCause 0 = none ∧
    (after (.chGrpGo (.hp 0) (oneBit 0)) (readyG.setGrp 0 (fun G => { G with calAt := some 1#54 }))).grp[(0 : Fin 16)].st = .held ∧
    live.grpCause 0 = some 2 ∧ (after (.chGrpGo (.hp 0) (oneBit 0)) live).rd (R.CH_GRP_EVT_CNT 0 3) = 1#32 ∧
    (after (.heldRelease 0) (readyG.setGrp 0 (fun G => { G with st := .held }))).grp[(0 : Fin 16)].st = .wait ∧
    upto (1020000 * 1024#64) (State_at waitG 1020000).now = true ∧ runG.grp[(0 : Fin 16)].st = .run ∧
    runG.rd64 (R.CH_GRP_START_LO 0) (R.CH_GRP_START_HI 0) = 1020000 * 1024#64 := by decide +kernel

theorem test_group_stop :
    openB runG 0 R.CH_GRP_HALT = true ∧ runG.grp[(0 : Fin 16)].pendStops = [] ∧
    (after (.chGrpHalt (.hp 0) (oneBit 0)) runG).grp[(0 : Fin 16)].stop = some (1020032 * 1024#64) ∧
    (after (.chGrpHalt (.hp 0) (oneBit 0)) runG).rd (R.CH_GRP_EVT_CNT 0 1) = 1#32 ∧
    (after (.chGrpHalt (.hp 0) (oneBit 0)) waitG).grp[(0 : Fin 16)].st = .idle := by decide +kernel

/-- The group drains once its packer has put the END marker and everything is written. -/
def drainedG : State := (State_at (after (.chGrpHalt (.hp 0) (oneBit 0)) runG) 1100000).setGrp 0 (fun G => { G with ended := true })
theorem test_group_drained :
    drainedG.settle.grp[(0 : Fin 16)].st = .drain ∧ drainedG.settle.drainDone 0 = true ∧
    (after (.grpDrained 0) drainedG).grp[(0 : Fin 16)].st = .idle ∧ counted drainedG.settle (after (.grpDrained 0) drainedG) (R.CH_GRP_EVT_CNT 0 2) = true := by
  decide +kernel

/-- `Quiet` as a test. -/
def quietB (s : State) : Bool :=
  s.trg.flow.isEmpty && s.trg.enPend.isEmpty && (List.finRange 8).all (fun g => s.sg[g].st != .run || s.entSrc g s.sg[g].entry != 3)

theorem quiet_of {s : State} (h : quietB s = true) : Quiet s := by
  simp only [quietB, Bool.and_eq_true, List.isEmpty_iff, List.all_eq_true, List.mem_finRange, forall_const, Bool.or_eq_true,
    bne_iff_ne] at h
  exact ⟨h.1.1, h.1.2, h.2⟩

/-- EN of channel 0 has been cleared while the group runs, and the count has passed the stamp of the change. -/
def disG : State := (State_at (put (R.CH_CTL 0) 0#32 (State_at runG 1050000).settle) 1060000).settle
theorem test_enable_stamp :
    quietB disG = true ∧ disG.ch[(0 : Fin 128)].enPend = [(1050032 * 1024#64, false)] ∧ upto (1050032 * 1024#64) disG.now = true ∧
    (disG.packs 0, disG.grp[(0 : Fin 16)].ended, disG.inRun 0 (1050032 * 1024#64)) = (true, false, true) ∧
    disG.grp[(0 : Fin 16)].start = some (1020000 * 1024#64) ∧
    (logBelow disG.ch[(0 : Fin 128)].enLog (1050032 * 1024#64)).map Prod.snd = some true ∧ (disG.dataBits 0).contains 0 = true ∧
    (after (.channelEnableStamp 0) disG).grp[(0 : Fin 16)].marks.map (fun m => m.stamp) = [1050032 * 1024#64] := by decide +kernel

/-- An expected item whose window has passed, and a margin window whose last hold is known. -/
def cmpG : State := (State_at runG 1100000).settle.setGrp 0 (fun G => { G with expect := [⟨1020000 * 1024#64, 1, 255, 0⟩], winDone := [{}] })
theorem test_missing_and_margin :
    quietB cmpG = true ∧ upto (cmpG.cmpTo 0 (1020000 * 1024#64)) (cmpG.now - 98304#64) = true ∧
    upto (runG.cmpTo 0 (1020000 * 1024#64)) (runG.now - 98304#64) = false ∧
    (cmpG.winHolds 0 {} (cmpG.now - State.lagTu)).wait.any id = false ∧
    upto (cmpG.settle.cmpTo 0 (1020000 * 1024#64)) (cmpG.settle.now - 98304#64) = true ∧
    (after (.cmpMissing 0) cmpG).grp[(0 : Fin 16)].expect = [] ∧ counted cmpG.settle (after (.cmpMissing 0) cmpG) (R.CH_GRP_EVT_CNT 0 7) = true ∧
    (cmpG.settle.winHolds 0 {} (cmpG.settle.now - State.lagTu)).wait.any id = false ∧ (after (.marginEmit 0) cmpG).grp[(0 : Fin 16)].winDone = [] := by
  decide +kernel

/-- One edge of channel 0 has been staged, and 80 µs have passed. -/
def edgedG : State := State_at (after (.edgeEvent 0 200000 0 128 0 0) (State_at runG 1030000)) 1200000
theorem test_edge_is_packed :
    edgedG.ch[(0 : Fin 128)].stg.map (fun e => (e.stamp, e.rise)) = [((1030000 * 1024 - 514), true)] ∧
    (packing edgedG 0).mayPack 0 (1030000 * 1024 - 514) = true ∧ (packing edgedG 0).stores 0 (1030000 * 1024 - 514) = true ∧
    (firstCand ((packing edgedG 0).cands 0)).map (fun k => (k.stamp, k.cls)) = some ((1030000 * 1024 - 514), 5) ∧
    (after (.packItem 0 0 false) edgedG).grp[(0 : Fin 16)].running = 1030000 * 1024 - 514 ∧
    ((after (.packItem 0 0 false) edgedG).grp[(0 : Fin 16)].blk.map (fun b => (b.count, b.bytes.length))) = some (1, 5) ∧
    (after (.packItem 0 0 false) edgedG).ch[(0 : Fin 128)].stg = [] := by decide +kernel

/-- The state with one entry packed and its FLUSH time past. -/
def flushG : State := State_at (after (.packItem 0 0 false) edgedG) 4000000
theorem test_blocks :
    flushG.settle.grp[(0 : Fin 16)].blk.isSome = true ∧ flushG.settle.grp[(0 : Fin 16)].trun = none ∧
    flushG.settle.f (R.CH_GRP_PACK 0) 15 0 ≠ 0 ∧ flushG.settle.lastBlock 0 = false ∧
    ((after (.blockFlush 0) flushG).grp[(0 : Fin 16)].out.map (·.count)) = some 1 ∧
    (after (.blockFlush 0) flushG).dcActive ((after (.blockFlush 0) flushG).blockAddr 0 0) = true ∧
    (after (.blockWritten 0) (after (.blockFlush 0) flushG)).rd (R.CH_GRP_WPTR_LO 0) = 1#32 := by decide +kernel

theorem test_sealer : (after .sealerChainStep { live with sealQ := [.block 0 [1#8] 0 false] }).sealQ = [] := by decide +kernel

/-! ## Trigger, registers, edges, calibration -/

def seqS (st : SeqState) : State := live.setTrg (fun T => { T with seq := T.seq.set 0 { st := st, arm := some 1024#64 } })

theorem test_sequencer_states :
    openB live 0 R.TRG_ARM = true ∧ live.armCause 0 = none ∧ (after (.trgArm (.hp 0) 1#32) live).trg.seq[(0 : Fin 8)].arm = some (1000032 * 1024#64) ∧
    (after (.trgArm (.hp 0) 1#32) (live.wr (R.TRG_SEQ_CTL 0) 1#32)).trg.seq[(0 : Fin 8)].arm = none ∧
    (seqS .run).armCause 0 ≠ none ∧ counted (seqS .run) (after (.trgArm (.hp 0) 1#32) (seqS .run)) (R.TRG_SEQ_EVT_CNT 0 3) = true ∧
    upto 1024#64 live.now = true ∧ (after (.trgArmed 0) (seqS .armed)).trg.seq[(0 : Fin 8)].st = .holdoff ∧
    upto (1024#64 + live.preQ 0) live.now = true ∧ (after (.seqRunEntry 0) (seqS .holdoff)).trg.seq[(0 : Fin 8)].st = .run ∧
    (seqS .post).passed ((seqS .post).trg.seq[(0 : Fin 8)].trig + (seqS .post).postQ 0) = true ∧
    (after (.trgDone 0) (seqS .post)).trg.seq[(0 : Fin 8)].ended = true ∧ openB live 0 R.TRG_HALT = true ∧
    (after (.trgHalt (.hp 0) 1#32) (seqS .holdoff)).trg.seq[(0 : Fin 8)].st = .idle := by decide +kernel

/-- Comparator 0 entered at 2048, with DUR 0; qualifier 0 in TIMEOUT has an open deadline. -/
def resS : State := live.setTrg (fun T => { T with
  pc := T.pc.set 0 { en := true, level := true, enter := some (2048#64, false, false) }
  iq := T.iq.set 0 { en := true, tmo := [(2048#64, false, false)] } })
theorem test_trigger_resources :
    resS.settle.trg.pc[(0 : Fin 64)].enter = some (2048#64, false, false) ∧
    before (2048#64 + stamp (resS.settle.pcDur 0)) (resS.settle.now - State.lagTu) = true ∧
    (after (.pcDurHit 0) resS).trg.hits.map (fun h => (h.src, h.stamp)) = [(0, 2048#64)] ∧
    resS.settle.trg.iq[(0 : Fin 32)].tmo = [(2048#64, false, false)] ∧
    before (resS.settle.iqDeadline 0 2048#64) (resS.settle.now - State.lagTu) = true ∧
    (after (.iqTimeout 0) resS).trg.iq[(0 : Fin 32)].tmo = [] ∧ quietB resS = true ∧
    before (resS.iqDeadline 0 2048#64) (resS.now - State.lagTu) = true ∧
    (before (999990 * 1024#64) (resS.now - State.lagTu), before (resS.iqDeadline 0 (999990 * 1024#64)) (resS.now - State.lagTu)) = (false, false) := by
  decide +kernel

/-- A change of EN of resource 0 of each kind waits for its stamp, 900,000 × 1,024. -/
def enS (k : ResKind) : State := live.setTrg (fun T => { T with enPend := [(900000 * 1024#64, k, 0, true)] })
theorem test_resource_enables :
    quietB live = true ∧ upto (900000 * 1024#64) (live.now - State.lagTu) = true ∧ upto (900000 * 1024#64) live.now = true ∧
    (after (.resourceEnableStamp 2 0) (enS .ct)).trg.ct[(0 : Fin 32)].enLog = [(900000 * 1024#64, true)] ∧
    (after (.resourceEnableStamp 0 0) (enS .pc)).trg.pc[(0 : Fin 64)].en = true ∧
    (after (.resourceEnableStamp 1 0) (enS .iq)).trg.iq[(0 : Fin 32)].en = true := by decide +kernel

/-- Sequencer 1 runs its stage 0 since stamp 0, with a condition on comparator 0, which hit at 4096. -/
def decideS : State :=
  (live.wr (R.TRG_COND 1 0 0) 0#32).setTrg (fun T => { T with
    seq := T.seq.set 1 { st := .run, arm := some 0#64 }, hits := [⟨0, 4096#64, false, false, []⟩] })

/-- The condition on comparator 0 asks for the level 1 of comparator 0 as well, or triggers and goes to stage 3. -/
def otherS : State := decideS.wr (R.TRG_COND 1 0 0) 0x00800000#32
def trigS : State := decideS.wr (R.TRG_COND 1 0 0) 0x301#32

/-- `Fed` as a test. -/
def fedB (s : State) : Bool :=
  quietB s && (List.finRange 64).all (fun p => s.trg.pc[p].enter.isNone) && (List.finRange 32).all (fun q => s.trg.iq[q].tmo.isEmpty)

theorem fed_of {s : State} (h : fedB s = true) : Fed s := by
  simp only [fedB, Bool.and_eq_true, List.all_eq_true, List.mem_finRange, forall_const, Option.isNone_iff_eq_none,
    List.isEmpty_iff] at h
  exact ⟨quiet_of h.1.1, h.1.2, h.2⟩

theorem test_fed_decisions :
    [decideS, otherS, trigS].all (fun s => fedB s && s.nextRelevant 1 == some 4096#64 && s.fedTo 1 4096#64 && (s.owned 1).isEmpty) = true ∧
    (List.range 4).all (fun c => (otherS.condHit 1 0 c 4096#64).isNone) = true ∧ (trigS.condHit 1 0 0 4096#64).isSome = true ∧
    (after (.seqDecision 1 none) trigS).trg.seq[(1 : Fin 8)].stage = 3 ∧ (after (.seqDecision 1 none) trigS).trg.seq[(1 : Fin 8)].st = .post ∧
    (after (.seqDecision 1 none) otherS).trg.seq[(1 : Fin 8)].st = .run := by decide +kernel

/-- Counter 0 in TIME mode reaches its limit of 100 tu at 1124. -/
def ctS : State :=
  ((live.wr (R.TRG_CT_CTL 0) 0x103#32).wr (R.TRG_CT_LIMIT_LO 0) 100#32).setTrg (fun T => { T with
    seq := T.seq.set 1 { st := .run, arm := some 0#64 }, ct := T.ct.set 0 { from_ := some 1024#64, enLog := [(0#64, true)] } })
theorem test_sequencer_decisions :
    decideS.feed.nextRelevant 1 = some 4096#64 ∧ (after (.seqDecision 1 none) decideS).trg.seq[(1 : Fin 8)].pos = 4096#64 ∧
    ctS.feed.ctSeq 0 = some 1 ∧ ctS.feed.ctTime 0 = true ∧ ctS.feed.ctTerminal 0 = ctS.feed.nextRelevant 1 ∧ (ctS.feed.ctTerminal 0).isSome = true ∧
    goes (.counterTerminal 0) ctS = true ∧ fedB ctS = true ∧ ctS.owned 1 = [0] ∧ ctS.nextRelevant 1 = some 1124#64 ∧ ctS.fedTo 1 1124#64 = true ∧
    (after (.counterTerminal 0) ctS).trg.hits.map (fun h => (h.src, h.stamp)) = [(0x60, 1124#64)] ∧ live.ctTerminal 0 = none ∧
    ((live.setTrg (fun T => { T with mmLog := T.mmLog.set 0 [(0#64, true)] })).mmEnAt 0 5#64, live.pmap.mm[(0 : Fin 64)]) = (true, 0) ∧
    (live.setTrg (fun T => { T with mmLog := T.mmLog.set 0 [(0#64, true)] })).mmMatch 0 0 0 0 = true ∧
    (after .matcherMessage (live.setQm (fun Q => { Q with mm := [⟨0, 0, 0, 0, false, false, 0⟩] }))).qm.mm = [] := by decide +kernel

/-- TRIG_IO 3 is an input, 4 an output. -/
def ioS : State := live.setTrg (fun T => { T with route := (T.route.set 3 1#32).set 4 2#32 })
theorem test_trig_io :
    openB live 0 R.TRG_IO_APPLY = true ∧ (after (.trgIoApply (.hp 0) 0) (live.wr (R.TRG_IO_CTL 5) 2#32)).trg.route[(5 : Fin 16)] = 0x40002#32 ∨
      (after (.trgIoApply (.hp 0) 0) (live.wr (R.TRG_IO_CTL 5) 2#32)).trg.route[(5 : Fin 16)] = 2#32 := by decide +kernel
theorem test_trig_io_levels :
    counted live (after (.trgIoApply (.hp 0) 7) live) R.TRG_IO_STALE_CNT = true ∧ (after (.trgIoApply (.hp 0) 7) live).trg = live.trg ∧
    fld ioS.trg.route[(3 : Fin 16)] 1 0 = 1 ∧ ioS.tb.window = none ∧
    (after (.trigIoInput 3 true) ioS).trg.hits.map (fun h => h.src) = [0xC3] ∧ fld ioS.trg.route[(4 : Fin 16)] 1 0 = 2 ∧ ioS.ioDrive 4 = false ∧
    goes (.trigIoLaunch 4) ioS = true ∧ goes (.trigIoPulseEnd 4) ioS = true := by decide +kernel

/-- Register writes: a quiet register in each view, a gated field, a W1 field, another partition's register. -/
theorem test_register_writes :
    (RegTable.find (R.CH_THR 5)).isSome = true ∧ openB live 0 (R.CH_THR 5 + 4096 * 3) = true ∧
    ((RegTable.find (R.CH_THR 5)).map (fun x => (quietRow x.1, bitsOf x.1 .WO, bitsOf x.1 .W1, live.reachMask (.hp 0) x.1 x.2, live.gateOn x.1 x.2))) =
      some (true, 0#32, 0#32, 0xFFFFFFFF#32, false) ∧
    (put (R.CH_THR 5 + 4096) 0x100#32 live).rd (R.CH_THR 5) = 0x3AA#32 ∧ (put (R.CH_THR 5 + 8192) 0xAA#32 live).rd (R.CH_THR 5) = 0x200#32 ∧
    (put (R.CH_THR 5 + 12288) 0xFFF#32 live).rd (R.CH_THR 5) = 0xD55#32 ∧
    counted live (put (R.CH_THR 5) 1#32 (live.wr (R.CH_CTL 5) 1#32)) (R.GLB_EVT_CNT 0 2) = true ∧
    (put (R.GLB_ONCE 0) 5#32 live).rd (R.GLB_ONCE 0) = 5#32 ∧ (put (R.GLB_ONCE 0) 6#32 (put (R.GLB_ONCE 0) 5#32 live)).rd (R.GLB_ONCE 0) = 5#32 ∧
    counted live (put (R.GLB_ONCE 0) 6#32 (put (R.GLB_ONCE 0) 5#32 live)) (R.GLB_EVT_CNT 0 3) = true ∧
    openB live 1 (R.CH_THR 5) = true ∧ live.pmap.grp[grpOf 5] ≠ 1 ∧
    (after (.registerWrite (.hp 1) .bar0 (R.CH_THR 5) [7#32] 15 0 false) live).rd (R.CH_THR 5) = 0x2AA#32 ∧
    counted live (after (.registerWrite (.hp 1) .bar0 (R.CH_THR 5) [7#32] 15 0 false) live) (R.GLB_EVT_CNT 1 1) = true := by decide +kernel

theorem test_latching_reads :
    openB live 0 R.TB_COUNT_LO = true ∧ openB live 0 R.TB_COUNT_HI = true ∧
    (after (.latchingRead (.hp 0) .bar0 R.TB_COUNT_LO 1 15 0) live).resp = [(.hp 0, .data (lo32 live.now))] ∧
    (after (.latchingRead (.hp 0) .bar0 R.TB_COUNT_LO 2 15 0) (State_at live 0x3FFFFFFFFFF)).resp =
      [(.hp 0, .data 0xFFFFFC00#32), (.hp 0, .data 0xFFFFF#32)] ∧
    (after (.latchingRead (.hp 0) .bar0 R.TB_COUNT_HI 1 15 0)
      (State_at (after (.latchingRead (.hp 0) .bar0 R.TB_COUNT_LO 1 15 0) (State_at live 0x3FFFFF)) 0x400000)).resp = [(.hp 0, .data 0#32)] ∧
    RegTable.find (plainOff 0x7F000) = none ∧ openB live 0 0x7F000 = true ∧
    (after (.latchingRead (.hp 0) .bar0 0x7F000 1 15 0) live).resp = [(.hp 0, .abort)] ∧ live.portOpen 0 .bar0 = true ∧
    counted live (after (.registerWrite (.hp 0) .bar0 2 [1#32] 15 0 false) live) (R.GLB_EVT_CNT 0 0) = true ∧
    counted live (after (.registerWrite (.hp 0) .bar0 4 [1#32] 3 0 false) live) (R.GLB_EVT_CNT 0 0) = true := by decide +kernel

/-- The hypotheses on an edge of channel 0 in the run of `runG`, and on one in its dead time. -/
def liveEdge : State := State_at runG 1030000
def deadEdge : State := liveEdge.setCh 0 (fun C => { C with lastTrip := some (1030000 * 65536 - 32640 - 32767) })
theorem test_edges :
    liveEdge.powered 0 = true ∧ liveEdge.splitG 0 = false ∧ liveEdge.modeG 0 = 1 ∧ liveEdge.ch[(0 : Fin 128)].at_ = none ∧
    liveEdge.grp[(0 : Fin 16)].calAt = none ∧ liveEdge.tb.gaps = [] ∧ liveEdge.ch[(0 : Fin 128)].badWords = [] ∧
    liveEdge.ch[(0 : Fin 128)].ovf = none ∧ liveEdge.ch[(0 : Fin 128)].lastTrip = none ∧
    liveEdge.inRun 0 (edgeStamp liveEdge 0 liveEdge.tb.count 128) = true ∧ liveEdge.enAt 0 (edgeStamp liveEdge 0 liveEdge.tb.count 128) = true ∧
    liveEdge.recvNext 0 200000 0 ≠ liveEdge.ch[(0 : Fin 128)].out ∧ liveEdge.recvNext 0 (-200000) 0 = liveEdge.ch[(0 : Fin 128)].out ∧
    (deadEdge.ch[(0 : Fin 128)].lastTrip.map (fun u => decide (163840 ≤
      (BitVec.ofInt 70 ((1030000 * 65536 : Nat) - (travelLeast deadEdge 0 128 : Int)) - u + 131072#70).toNat))) = some false ∧ (after (.edgeEvent 0 200000 0 128 0 0) deadEdge).ch[(0 : Fin 128)].stg = [] ∧
    (after (.collapseEntry 0 1 128 (-200000) 0 0 0) liveEdge).ch[(0 : Fin 128)].stg.map (fun e => (e.stamp, e.coll)) =
      [(1029999 * 1024 - 514, some false)] := by decide +kernel

/-- Channel 0 single-ended and off, sweeping with STEP 2048 (two points). -/
def atS : State := (live.wr (R.CH_CTL 0) 2#32).wr (R.CH_AT_CFG 0) 0x8013F#32
def atRun : State := State_at (after (.chAtGo (.hp 0) 0 1#32) atS) 9000000
theorem test_auto_threshold :
    openB atS 0 (R.CH_AT_GO 0) = true ∧ (after (.chAtGo (.hp 0) 0 1#32) atS).ch[(0 : Fin 128)].at_.isSome = true ∧
    (after (.chAtGo (.hp 0) 0 1#32) live).f (R.CH_AT_RESULT 0) 26 24 = 4 ∧
    counted live (after (.chAtGo (.hp 0) 0 1#32) (live.wr (R.CH_CTL 0) 1#32)) (R.GLB_EVT_CNT 0 4) = true ∧
    (atRun.ch[(0 : Fin 128)].at_.map (fun r => (State.atPoints r.cfg, atRun.since r.start (State.atPoints r.cfg * (400 + State.atDwell r.cfg * 2000))))) =
      some (66, true) ∧
    (after (.chAtDone 0 (List.replicate 66 0)) atRun).f (R.CH_AT_RESULT 0) 26 24 = 2 ∧
    (after (.chAtDone 0 (List.replicate 10 0 ++ List.replicate 21 100 ++ List.replicate 35 0)) atRun).f (R.CH_THR 0) 11 0 = 20 * 63 ∧
    (after (.chAtDone 0 (List.replicate 10 0 ++ List.replicate 21 100 ++ List.replicate 35 0)) atRun).f (R.CH_AT_RESULT 0) 26 24 = 1 := by decide +kernel

/-- A calibration of group 0 with every hit in bin 200, and one with uniform bins. -/
def calS : State := after (.tdcCalGo (.hp 0) 1#32) live
def flatHist : List Nat := List.replicate 256 16384
def flatCal : Instr := .tdcCalDone 0 (List.replicate 8 flatHist) (List.replicate 8 1000)
theorem test_calibration :
    openB live 0 R.TDC_CAL_GO = true ∧ live.groupIdle 0 = true ∧ calS.grp[(0 : Fin 16)].calAt = some 1000000#54 ∧ runG.groupIdle 0 = false ∧
    counted runG (after (.tdcCalGo (.hp 0) 1#32) runG) (R.GLB_EVT_CNT 0 4) = true ∧
    live.fb (R.TDC_CAL_CTL 0) 0 = true ∧ live.grp[(0 : Fin 16)].calDue = true ∧ flatCal.wf = true ∧
    (after flatCal calS).tableAt 0 1 = 384 ∧ (after flatCal calS).f (R.TDC_B254 0) 15 0 = 65280 ∧
    (after flatCal calS).grp[(0 : Fin 16)].calValid = true := by decide +kernel
def lcalS : State := { live with ch := live.ch.map (fun C => { C with lcal := 1000 }) }
theorem test_line_length_and_sensors :
    linesWf (List.replicate 128 1010) = true ∧
    (after (.lineLengthMeasure (List.replicate 128 1010)) lcalS).rd (R.TDC_LLM_RATIO 0) = 64887#32 ∧
    (after (.sensorSample (List.replicate 8 400)) live).fs (R.PG_TEMP 3) 15 0 = 400 ∧
    (List.range 8).all (fun i => decide (-640 ≤ live.tempNow i ∧ live.tempNow i ≤ 2000)) = true ∧ live.pwr.thermal = false ∧
    openB live 0 (R.CH_CNT_CLR 0) = true ∧ (after (.chCntClr (.hp 0) 0 1#32) (live.wr (R.CH_EDGE_CNT 0) 9#32)).rd (R.CH_EDGE_CNT 0) = 0#32 := by
  decide +kernel

/-- Ill-formed operands are refused: a histogram with a hit too many, a twin line of length 0, a relock span below 512 tu. -/
theorem test_ill_formed :
    Instr.wf (.tdcCalDone 0 (List.replicate 8 (flatHist.set 0 16385)) (List.replicate 8 1000)) = false ∧
    stops (.tdcCalDone 0 [] []) live = true ∧ Instr.wf (.lineLengthMeasure (List.replicate 128 0)) = false ∧
    stops (.lineLengthMeasure []) live = true ∧ Instr.wf (.relockBoundary 511) = false ∧ Instr.wf (.relockBoundary 1537) = false ∧
    stops (.relockBoundary 511) live = true ∧ Instr.wf .scFwOk = true := by decide +kernel

/-! ## Interval units, extractors, engines, queues -/

/-- An interval unit whose A is channel 0, whose B is channel 1, with a window of 0 to 10,000 tu. -/
def iuSet : State := (live.wr (R.IU_CTL 0) (1#32 <<< 23)).wr (R.IU_WHI 0) 10000#32
def iuOn : State := after (.iuEnable (.hp 0) 0 (1#32 <<< 23)) iuSet
theorem test_interval_units :
    openB iuSet 0 (R.IU_CTL 0) = true ∧ iuSet.iuCause 0 = none ∧ iuOn.iu[(0 : Fin 16)].pend = [(1000032 * 1024#64, some (iuSet.iuRegs 0))] ∧
    iuOn.fb (R.IU_CTL 0) 0 = true ∧ (live.wr (R.IU_WLO 0) 1#32).iuCause 0 = some 0 ∧
    (after (.iuDisable (.hp 0) 0 0#32) iuOn).iu[(0 : Fin 16)].pend.length = 2 ∧
    (State_at iuOn 1000032).reached (1000032 * 1024#64) = true ∧
    (after (.iuEnableStamp 0) (State_at iuOn 1000032)).iu[(0 : Fin 16)].active = true ∧
    (after (.iuDisableStamp 0) ((State_at live 1000032).setIu 0 (fun I => { I with active := true, pend := [(1000032 * 1024#64, none)] }))).iu[(0 : Fin 16)].disS =
      some (1000032 * 1024#64) ∧ (State_at live 1000032).passed (1000032 * 1024#64 + 204800#64) = false ∧
    (live.iuSnap 0 true).iu[(0 : Fin 16)].snap = some (live.stamp32, true) ∧
    counted (live.iuSnap 0 true) ((live.iuSnap 0 true).iuSnap 0 false) (R.IU_EVT_CNT 0 4) = true ∧
    (live.setIu 0 (fun I => { I with snap := some (1024#64, true), live := { count := 3 } })).iuSnapReady 0 1024#64 = true ∧
    (after (.iuSnapshotDone 0) (live.setIu 0 (fun I => { I with snap := some (1024#64, true), live := { count := 3 } }))).rd (R.IU_ACC_COUNT_LO 0) = 3#32 := by
  decide +kernel

theorem test_interval_premises :
    [State_at iuOn 1000032, State_at live 1000032, live, live.setIu 0 (fun I => { I with snap := some (1024#64, true), live := { count := 3 } })].all
      quietB = true := by decide +kernel

/-- A start on channel 0 and one stop 5,000 tu later on channel 1; a start alone. -/
def edgeAt (t : Nat) (c : Nat) : EdgeRec := ⟨stamp t, c, true, none, false, false⟩
def t0 : Nat := 1030000 * 1024
def iuPair : State := (State_at runG 1100000).settle.setIu 0
  (fun I => { I with active := true, cfgs := [(0, { ctl := 1#32 <<< 23, whi := 10000#32 })], starts := [edgeAt t0 0], stops := [⟨edgeAt (t0 + 5000) 1, false, false⟩] })
theorem test_interval_results :
    quietB iuPair = true ∧ (iuPair.iuCfg 0 (stamp t0)).recip = false ∧ (iuPair.iuCfg 0 (stamp t0)).all_ = false ∧
    (iuPair.iuCfg 0 (stamp t0)).rec_ = false ∧ iuPair.iuDue 0 (stamp t0) = true ∧ iuPair.inWindow 0 (edgeAt t0 0) (edgeAt (t0 + 5000) 1) = true ∧
    iuPair.blind (Fin.ofNat 128 (iuPair.iuCfg 0 (stamp t0)).chB) (shift (stamp t0) (iuPair.iuCfg 0 (stamp t0)).lo) (stamp (t0 + 5000)) = false ∧
    (after (.iuDecide 0 true) iuPair).iu[(0 : Fin 16)].fault = true ∧ (after (.iuDecide 0 true) iuPair).iu[(0 : Fin 16)].live.count = 0 ∧
    (after (.iuDecide 0 false) iuPair).iu[(0 : Fin 16)].live.sum = 5000 ∧ (after (.iuDecide 0 false) iuPair).iu[(0 : Fin 16)].live.count = 1 ∧
    counted iuPair (after (.iuDecide 0 false) (iuPair.setIu 0 (fun I => { I with stops := [] }))) (R.IU_MISS_CNT 0) = true ∧
    (({} : IuBank).take 0 10 5000).bins = [(4, 1)] ∧ (({} : IuBank).take 0 10 5000).sq = 25000000 := by decide +kernel

/-- An extractor of UART kind bound to engine 0 and idle since stamp 1,024. -/
def idleX : State := (live.wr (R.ME_X_CTL 0) 0x0B000001#32).setXt 0 (fun X => { X with active := true, run := true, lastEdge := some 1024#64 })
theorem test_idle_symbol :
    idleX.settle.xtKind 0 = 1 ∧ idleX.settle.xtIdleN 0 = 11 ∧ idleX.settle.xt[(0 : Fin 128)].sym = none ∧
    upto (shift 1024#64 ((idleX.settle.xtIdleN 0 * idleX.settle.xtPer 0 + 32).fdiv 64)) (idleX.settle.now - State.lagTu) = true ∧
    (after (.idleSymbol 0) idleX).xt[(0 : Fin 128)].out.map (fun y => (y.stamp.toNat, fld y.info 21 16)) = [(1024 + 11 * 1024, 4)] := by decide +kernel

/-- A symbol waits in extractor 0; engine 0 runs, or is off; a symbol waits in the merge of engine 0. -/
def symX : State := live.setXt 0 (fun X => { X with out := [sym0] })
def symE : State := symX.setEng 0 (fun E => { E with st := 2 })
def mergeE (n : Nat) : State := live.setEng 0 (fun E => { E with st := 2, merge := [sym0], fifo := List.replicate n sym0 })
theorem test_symbols :
    (extracted symE 0).xt[(0 : Fin 128)].out = [sym0] ∧ (extracted symE 0).xtTarget 0 = 0 ∧ (extracted symE 0).gangSize 0 = 1 ∧
    (extracted symE 0).engOn 0 = true ∧ (extracted symX 0).engOn 0 = false ∧ (after (.symbolDelivery 0) symE).eng[(0 : Fin 256)].merge = [sym0] ∧
    counted symX (after (.symbolDelivery 0) symX) (engReg R.ME_DISC_CNT 0) = true ∧ (portFed (mergeE 0) 0).eng[(0 : Fin 256)].merge = [sym0] ∧
    before sym0.stamp ((portFed (mergeE 0) 0).portHorizon 0) = true ∧ (after (.symbolRelease 0) (mergeE 0)).eng[(0 : Fin 256)].fifo = [sym0] ∧
    (portFed (mergeE 64) 0).eng[(0 : Fin 256)].fifo.length = 64 ∧ counted (mergeE 64) (after (.symbolRelease 0) (mergeE 64)) (engReg R.ME_LOSS_CNT 0) = true := by
  decide +kernel

/-- No extractor is bound to the engine of a WAIT that is retried. -/
theorem test_wait_retry : quietB (engF (insn 0x39 0 0 0)) = true ∧ (engF (insn 0x39 0 0 0)).boundXts 0 = [] := by decide +kernel

/-- Engine 33 is stopped, with code below 0x100 and ME_SPA at 0x104; engine 0 waits on a timer. -/
def stoppedE : State := ((live.wr (engReg R.ME_CODE 33) 0x100#32).wr (engReg R.ME_SPA 33) 0x104#32).setEng 33 (fun E => { E with st := 1 })
def runningE : State := stoppedE.setEng 33 (fun E => { E with st := 2, timer := E.timer.set 1 ⟨some 4096#64, false⟩ })
theorem test_engine_control :
    openB stoppedE 0 (R.ME_GO 1) = true ∧ stoppedE.gangLog 33 = 0 ∧ stoppedE.sleeping 1 33 = false ∧
    (after (.meGo (.hp 0) 1 2#32) stoppedE).eng[(33 : Fin 256)].st = 2 ∧ counted runningE (after (.meGo (.hp 0) 1 2#32) runningE) (R.GLB_EVT_CNT 0 4) = true ∧
    openB stoppedE 0 (R.ME_STOP 1) = true ∧ (after (.meStop (.hp 0) 1 2#32) runningE).eng[(33 : Fin 256)].st = 4 ∧
    openB stoppedE 0 (engReg R.ME_KICK 33) = true ∧ (after (.meKick (.hp 0) 33 9#32) runningE).eng[(33 : Fin 256)].kick = 9#32 ∧
    openB stoppedE 0 (engReg R.ME_SPD 33) = true ∧ stoppedE.inData 33 (stoppedE.f (engReg R.ME_SPA 33) 16 2 * 4) 4 = true ∧
    stoppedE.mtStalls 1 33 0x104 false = false ∧ stoppedE.sramBadAt (sramAt 1 33 0x104) = false ∧
    (after (.meSpdAccess (.hp 0) 33 true 0#32 0) (after (.meSpdAccess (.hp 0) 33 false 77#32 0) stoppedE)).resp = [(.hp 0, .data 0#32)] ∧
    (after (.meSpdAccess (.hp 0) 33 false 77#32 0) stoppedE).padRd 33 0x104 = 77#32 ∧
    (portFed runningE 33).eng[(33 : Fin 256)].timer[(1 : Fin 2)].at_ = some 4096#64 ∧ before 4096#64 ((portFed runningE 33).portHorizon 33) = true ∧
    (after (.timerPending 33 1) runningE).eng[(33 : Fin 256)].timer[(1 : Fin 2)].pend = true := by decide +kernel

/-- OBS queue 5 is ON, with policy `p` and four pages; engine 0 has a message for it. -/
def msg0 : OutMsg := ⟨0, 5, 0x9000#64, 7, [1#8, 2#8], 0⟩
def obsQ (p : Nat) : State :=
  (((live.wr (qd 5 0) (word (0x09 + 256 * p))).wr (qd 5 4) 4#32).setQ 5 (fun Q => { Q with st := .pend 1024#64, res := 4 })).setEng 0
    (fun E => { E with st := 2, port := [msg0] })
/-- The same queue with more than its capacity held. -/
def fullQ : State := (obsQ 2).setQ 5 (fun Q => { Q with msgs := List.replicate 128 { recs := [[]], ord := 0 } })
theorem test_messages :
    (obsQ 0).qType 5 = 1 ∧ (obsQ 0).qState 5 = 1 ∧ (obsQ 0).qPart 5 = 0 ∧ (obsQ 0).fb (qd 5 0) 11 = false ∧ (obsQ 0).qPolicy 5 = 0 ∧
    ((obsQ 0).qSt 5).sealed = none ∧ slotsOf ((obsQ 0).qSt 5).msgs + (1 + ncont msg0.bytes.length) ≤ 32 * (((obsQ 0).qSt 5).res - 1) ∧
    ((after (.qmAccept 0) (obsQ 0)).qSt 5).msgs.length = 1 ∧ (after (.qmAccept 0) (obsQ 0)).rd (qd 5 2) = 1#32 ∧
    counted live (after (.qmAccept 0) (live.setEng 0 (fun E => { E with port := [msg0] }))) (engReg R.ME_MDROP_CNT 0) = true ∧
    live.qType 5 ≠ 1 ∧ fullQ.qPolicy 5 = 2 ∧ fullQ.qFits 5 { recs := List.replicate (1 + ncont msg0.bytes.length) [], ord := 0 } = false ∧
    (after (.qmAccept 0) fullQ).eng[(0 : Fin 256)].port = [msg0] ∧ goes (.pageFill 5 0) fullQ = true ∧
    (obsQ 0).portTurn 0 msg0 = true ∧ (obsQ 0).srcTurn 0 msg0 = true ∧ ((obsQ 0).qSt 5).sealAsk = false ∧ ((obsQ 0).qSt 5).owed = none ∧
    (live.setEng 0 (fun E => { E with port := [msg0] })).srcTurn 0 msg0 = true ∧
    (after (.qmAccept 1) ((obsQ 0).setEng 1 (fun E => { E with st := 2, port := [{ msg0 with src := 1 }] }))).eng[(1 : Fin 256)].port.length = 1 ∧
    OutMsg.srcWord msg0 < OutMsg.srcWord { msg0 with src := 1 } ∧
    ((live.setEng 0 (fun E => { E with hold := [msg0] })).mayRelease 0 msg0) = true ∧
    (after (.gangMsgRelease 0) (live.setEng 0 (fun E => { E with hold := [msg0] }))).eng[(0 : Fin 256)].port = [msg0] := by decide +kernel

/-- Queue 5 is an OBS queue that is OFF, with pages in the pool; one that drains, empty. -/
def offQ : State := ((live.wr (qd 5 0) 1#32).wr (qd 5 4) 4#32).wr (R.QM_POOL 0) 0x100100#32
def drainQ : State := offQ.setQ 5 (fun Q => { Q with st := .drain, res := 4 })
theorem test_queue_states :
    openB offQ 0 (qd 5 0) = true ∧ offQ.fb (qd 5 0) 3 = false ∧ offQ.qState 5 = 0 ∧ (descStored offQ 5 9#32).qState 5 = 0 ∧
    offQ.qCause 5 = none ∧ ((after (.queueEnable (.hp 0) 5 9#32) offQ).qSt 5).st = .pend (1000032 * 1024#64) ∧
    (after (.queueEnable (.hp 0) 5 9#32) offQ).f (R.QM_POOL 0) 31 16 = 12 ∧ live.qCause 5 = some 0 ∧
    counted live (live.qEnable 5) (R.QM_EVT_CNT 0 2) = true ∧ openB (obsQ 0) 0 (qd 5 0) = true ∧ (obsQ 0).fb (qd 5 0) 3 = true ∧
    (obsQ 0).reached 1024#64 = true ∧ ((after (.queueDisable (.hp 0) 5 1#32) (obsQ 0)).qSt 5).st = .drain ∧
    (drainQ.qSt 5).msgs = [] ∧ (after (.queueDrained 5) drainQ).f (R.QM_POOL 0) 31 16 = 20 := by decide +kernel

/-- A sealed queue whose enable stamp has come: the start record is hashed with the key; without a key it stays unsealed (R277). -/
def sealQ (key : Option Nat) : State :=
  { offQ.setQ 5 (fun Q => { Q with st := .pend 1024#64, sealAsk := true }) with sealKey := key }
theorem test_queue_seals :
    (((sealQ (some 9)).qSealSet 5).qSt 5).sealed = some 9 ∧ (((sealQ (some 9)).qSealSet 5).qSt 5).sealAsk = false ∧
    (((sealQ none).qSealSet 5).qSt 5).sealed = none ∧ counted (sealQ none) ((sealQ none).qSealSet 5) (R.QM_EVT_CNT 0 4) = true ∧
    (sealQ none).reached 1024#64 = true := by decide +kernel

/-- Word 0 of a descriptor has INT_EN in a ring's layout and no bit 13 in that of an OBS queue (R285); word 7 is a shadow
address of a ring and read-only in an OBS queue. -/
theorem test_descriptor_layouts :
    (after (.registerWrite (.hp 0) .bar0 (qd 7 0) [0x2405#32] 15 0 false) live).rd (qd 7 0) = 0x2405#32 ∧
    (after (.registerWrite (.hp 0) .bar0 (qd 7 0) [0x2401#32] 15 0 false) live).rd (qd 7 0) = 0x0401#32 ∧
    (after (.registerWrite (.hp 0) .bar0 (qd 7 7) [9#32] 15 0 false) (live.wr (qd 7 0) 5#32)).rd (qd 7 7) = 9#32 ∧
    (after (.registerWrite (.hp 0) .bar0 (qd 7 7) [9#32] 15 0 false) (live.wr (qd 7 0) 1#32)).rd (qd 7 7) = 0#32 := by decide +kernel

/-- Queue 6 is an event ring of 256 slots that is ON with interrupts of vector 3 after 10 µs, and one record waits. -/
def evtS : State :=
  let s := (((live.wr (qd 6 0) (word (4 + 8 + 0x2000 + 8 * 256 + 3 * 65536))).wr (qd 6 3) 0xA0010#32).wr (R.QM_EVTQ 0) 0x80000006#32).setRing 6
    (fun G => { G with st := .pend 1024#64 })
  { s with evt := s.evt.set 0 { recs := [List.replicate 16 1#8] } }
def msixS (mask : Word) : State :=
  live.setPort 0 (fun P => { P with cfg := Tab.set cfgReset P.cfg 0x50 0x80000000#32, msix := Tab.set msixReset P.msix 15 mask })
theorem test_rings :
    evtS.qPart 6 = 0 ∧ evtS.evtRing 0 = some 6 ∧ evtS.ringOn 0 6 = true ∧ evtS.mayIssue 0 = true ∧ 1 ≤ evtS.ringFree 6 ∧
    (after (.ringWrite 6 1 [] []) evtS).rd (qd 6 2) = 1#32 ∧ ((after (.ringWrite 6 1 [] []) evtS).port[(0 : Fin 4)].tx.map (fun x => x.bytes.length)).take 2 = [16, 8] ∧
    evtS.portOpen 0 .bar2 = true ∧ islandOf .bar2 (0x40 * 6) = none ∧ evtS.doorbellOk 6 0#32 = true ∧ evtS.doorbellOk 6 1#32 = false ∧
    counted evtS (after (.doorbell 0 6 1#32) evtS) (R.QM_EVT_CNT 0 3) = true ∧
    (after (.doorbell 0 6 1#32) (evtS.wr (qd 6 2) 3#32)).rd (qd 6 1) = 1#32 ∧ live.ringOn 0 6 = false ∧
    counted live (after (.doorbell 0 6 1#32) live) (R.GLB_EVT_CNT 0 4) = true ∧ evtS.ringInt 6 = true ∧ evtS.f (qd 6 3) 31 16 = 10 ∧
    (evtS.setRing 6 (fun G => { G with modAt := some 980000#54 })).since 980000#54 20000 = true ∧
    ((after (.interruptModTimeout 6) ((evtS.wr (qd 6 2) 1#32).setRing 6 (fun G => { G with modAt := some 980000#54 }))).ringSt 6).modAt = none ∧
    (msixS 1#32).msixEn 0 = true ∧ (msixS 1#32).vecMasked 0 3 = true ∧ ((msixS 1#32).raiseVec 0 3).port[(0 : Fin 4)].pba = [3] ∧
    (msixS 0#32).vecMasked 0 3 = false ∧ ((msixS 0#32).raiseVec 0 3).port[(0 : Fin 4)].tx.length = 1 := by decide +kernel

/-! ## Stimulus generators -/

/-- The grid has one instant every 512 tu from stamp 0; the present edge is instant 2,000,000. -/
def gridS : State := { live with grid := { on := true, o := 0, bases := [⟨0, 0, 2199023255552⟩] } }

/-- An entry of generator 0: source, flow, count 1, length. -/
def entry (src flow len : Nat) (s : State) : State :=
  ((s.wr (R.SG_ENTRY 0 0 0 1) (word (src * 256 + flow * 4096 + 0x8000 + 7 * 65536))).wr (R.SG_ENTRY 0 0 0 2) (word len)).wr
    (R.SG_ENTRY 0 0 0 3) (word (9 * 65536 + 1))

/-- Generator 0 plays entry 0, a LOCAL segment of 640 samples, from 1,000 samples ago. -/
def playS (flow : Nat) : State := (entry 0 flow 640 gridS).setSg 0 (fun G => { G with st := .run, runAt := 1999000, segAt := 1999000 })
def closedS (flow : Nat) (j : Option JReq) (taken : Bool) : State := (playS flow).setSg 0 (fun G => { G with closed := true, jump := j, taken := taken })
def waitS : State := (entry 0 0 640 gridS).setSg 0 (fun G => { G with st := .wait, cw := 900000#54 })

def startS : State := (gridS.wr (R.SG_ENTRY 0 0 0 1) 0x4000#32).wr (R.SG_ENTRY 0 0 0 2) 640#32

theorem test_stimulus_starts :
    openB gridS 0 R.SG_GO = true ∧ gridS.reaches (.hp 0) gridS.pmap.sg[(0 : Fin 8)] = true ∧ startS.sgCause 0 = none ∧
    (after (.sgGo (.hp 0) 1#32) startS).sg[(0 : Fin 8)].st = .wait ∧ ((playS 0).sgCause 0).isSome = true ∧
    counted (playS 0) (after (.sgGo (.hp 0) 1#32) (playS 0)) (R.SG_EVT_CNT 0 2) = true ∧ waitS.fb (R.SG_CTL 0) 3 = false ∧
    waitS.startIdx 0 = some 1840000 ∧ waitS.reached (waitS.launch 1840000) = true ∧ (after (.sgStart ⟨0, []⟩) waitS).sg[(0 : Fin 8)].runAt = 1840000 ∧
    (after (.sgStart ⟨0, []⟩) waitS).rd64 (R.SG_START_LO 0) (R.SG_START_HI 0) = 1840000 * 512#64 := by decide +kernel

theorem test_stimulus_segments :
    (playS 0).entSrc 0 0 ≠ 3 ∧ (playS 0).segLen 0 0 ≤ (playS 0).availTo 0 0 ∧ (playS 0).reached ((playS 0).launch (1999000 + ((playS 0).segLen 0 0 - 64))) = true ∧
    (after (.jumpLatchClose 0) (playS 0)).sg[(0 : Fin 8)].closed = true ∧ (after (.jumpLatchClose 0) (playS 0)).sg[(0 : Fin 8)].taken = false ∧
    (after (.jumpLatchClose 0) ((playS 0).setSg 0 (fun G => { G with jump := some ⟨1024#64, .write⟩ }))).sg[(0 : Fin 8)].taken = true ∧
    before 1024#64 ((playS 0).launch (1999000 + ((playS 0).segLen 0 0 - 64))) = true ∧
    (closedS 0 none false).reached ((closedS 0 none false).launch ((closedS 0 none false).boundaryIdx 0)) = true ∧
    (closedS 0 none false).nextEntry 0 0 0 0 = some (1, 0, 0) ∧ (closedS 3 none false).nextEntry 0 0 0 0 = some (7, 0, 0) ∧
    (after (.segmentEnd ⟨0, []⟩) (closedS 3 none false)).sg[(0 : Fin 8)].entry = 7 ∧ (after (.segmentEnd ⟨0, []⟩) (closedS 0 none false)).sg[(0 : Fin 8)].segAt = 1999640 ∧
    (after (.segmentEnd ⟨0, []⟩) (closedS 0 (some ⟨1024#64, .write⟩) true)).sg[(0 : Fin 8)].entry = 9 ∧
    (after (.segmentEnd ⟨0, []⟩) (closedS 4 none false)).sg[(0 : Fin 8)].st = .idle ∧
    (after (.segmentEnd ⟨0, []⟩) (closedS 4 none false)).rd64 (R.SG_STOP_LO 0) (R.SG_STOP_HI 0) = 1999640 * 512#64 := by decide +kernel

/-- A long segment, so that its boundary lies ahead; one halted in it. -/
def longS : State := (entry 0 0 100000 gridS).setSg 0 (fun G => { G with st := .run, runAt := 1999000, segAt := 1999000 })
def haltS : State := longS.setSg 0 (fun G => { G with stopAt := some (1999500 * 512#64) })
def seqJ : State := ((longS.wr (R.SG_JSRC 0) 0x100#32).setSg 0 (fun G => { G with jFrom := 10#54 })).setTrg (fun T => { T with
  seq := T.seq.set 0 { evLog := [(900000 * 1024#64, 900100#54, true)] } })
theorem test_stimulus_jumps :
    openB longS 0 (R.SG_JUMP 0) = true ∧ longS.reached (longS.launch (longS.boundaryIdx 0)) = false ∧
    (after (.sgJump (.hp 0) 0) longS).sg[(0 : Fin 8)].jq = [⟨longS.stamp32, .write⟩] ∧
    counted gridS (after (.sgJump (.hp 0) 0) gridS) (R.SG_EVT_CNT 0 2) = true ∧ upto (Count.stamp 900100#54) seqJ.now = true ∧
    before seqJ.sg[(0 : Fin 8)].jFrom.stamp (Count.stamp 900100#54) = true ∧ seqJ.sg[(0 : Fin 8)].jLast = none ∧ seqJ.fb (R.SG_JSRC 0) 8 = true ∧ seqJ.fb (R.SG_JSRC 0) 4 = false ∧
    (after (.seqJumpArrival 0) seqJ).sg[(0 : Fin 8)].jump = some ⟨Count.stamp 900100#54, .seq⟩ ∧ openB longS 0 R.SG_HALT = true ∧
    (after (.sgHalt (.hp 0) 1#32) longS).sg[(0 : Fin 8)].stopAt = some longS.stamp32 ∧ (after (.sgHalt (.hp 0) 1#32) waitS).sg[(0 : Fin 8)].st = .idle ∧
    counted gridS (after (.sgHalt (.hp 0) 1#32) gridS) (R.SG_EVT_CNT 0 2) = true ∧ haltS.haltIdx 0 = some 1999552 ∧ 1999552 ≤ haltS.boundaryIdx 0 ∧
    haltS.reached (haltS.launch 1999552) = true ∧ haltS.segLen 0 0 ≤ haltS.availTo 0 0 ∧ (after (.sgStopped 0) haltS).sg[(0 : Fin 8)].st = .idle := by decide +kernel

/-- A request waits to arrive, with the jump slot free, and with a request in it: the second one is dropped (R303). -/
def askS (j : Option JReq) : State := longS.setSg 0 (fun G => { G with jq := [⟨2048#64, .write⟩], jump := j })
theorem test_jump_drop :
    before 2048#64 longS.now = true ∧ ((askS none).jumpsTo 0 longS.now).sg[(0 : Fin 8)].jump = some ⟨2048#64, .write⟩ ∧
    ((askS (some ⟨1024#64, .seq⟩)).jumpsTo 0 longS.now).sg[(0 : Fin 8)].jump = some ⟨1024#64, .seq⟩ ∧
    ((askS (some ⟨1024#64, .seq⟩)).jumpsTo 0 longS.now).rd (R.SG_JDROP_CNT 0) = 1#32 := by decide +kernel

/-- A HOST stream of 16 chunks: ON; with a chunk at its head; a DRAM segment being prefetched; a starving and a starved generator. -/
def strS : State := ((live.wr (R.SG_STR_CTL 0) 0x80040000#32).wr (R.SG_CFG 0) 0x80000404#32).setSg 0 (fun G => { G with str := { life := 1 } })
def chunkS : State := (strS.wr (R.SG_STR_TAIL 0) 1#32).setSg 0 (fun G => { G with str := { G.str with asked := 1, parts := [(0, 0, List.replicate 4096 3#8)] } })
def dramS : State :=
  { (entry 1 0 640 gridS).wr (R.DC_PART_LIMIT 0) 16#32 with dc := Vector.replicate 16 { st := .active } }.setSg 0 (fun G => { G with st := .wait })
def hungryS : State := (entry 1 0 640 gridS).setSg 0 (fun G => { G with st := .run, runAt := 1999000, segAt := 1999000 })
def starvedS (o : Nat) : State := hungryS.setSg 0 (fun G => { G with
  starve := some (1999000, o), fifo := [⟨0, 0, List.replicate 64 0#8⟩], segAt := 1999000 - o })
theorem test_stimulus_streams :
    openB live 0 (R.SG_STR_CTL 0) = true ∧ live.fb (R.SG_STR_CTL 0) 31 = false ∧ goes (.streamEnable (.hp 0) 0 0x40000#32) live = true ∧
    openB strS 0 (R.SG_STR_DB 0) = true ∧ (1#32 - strS.strTail 0).toNat ≤ (strS.strHead 0 + word (strS.strRing 0) - strS.strTail 0).toNat ∧
    (after (.sgStrDb (.hp 0) 0 16#32) strS).rd (R.SG_STR_TAIL 0) = 16#32 ∧ counted strS (after (.sgStrDb (.hp 0) 0 17#32) strS) (R.SG_EVT_CNT 0 8) = true ∧
    chunkS.strOn 0 = true ∧ (chunkBytes chunkS.sg[(0 : Fin 8)].str (chunkS.strHead 0).toNat).isSome = true ∧ chunkS.fb (R.SG_STR_CTL 0) 21 = false ∧
    (after (.streamChunkRead 0) chunkS).rd (R.SG_STR_HEAD 0) = 1#32 := by decide +kernel
theorem test_stimulus_data :
    dramS.entSrc 0 0 = 1 ∧ 64 ≤ ceilDiv (dramS.segLen 0 0) 2 ∧ 64 ≤ dramS.fifoSize 0 ∧ dramS.dcActive (dramS.entAddr 0 0) = true ∧
    dramS.inShare (dramS.sgPart 0) (dramS.entAddr 0 0) 64 = true ∧ dramS.badIn (dramS.entAddr 0 0) 64 = [] ∧
    ((after (.prefetchData 0 64) dramS).sg[(0 : Fin 8)].fifo.map (fun f => f.bytes.length)) = [64] ∧
    hungryS.availTo 0 0 < hungryS.segLen 0 0 ∧ hungryS.reached (hungryS.launch (1999000 + hungryS.availTo 0 0)) = true ∧
    counted hungryS (after (.sgUnderrun 0) hungryS) (R.SG_EVT_CNT 0 3) = true ∧ (starvedS 10).keepTime 0 = false ∧ 10 < (starvedS 10).availTo 0 10 ∧
    (after (.sgResume 0) (starvedS 10)).rd (R.SG_UNDER_CNT 0) = word ((starvedS 10).firstIdx (starvedS 10).now - 1999000) := by decide +kernel

def calG : State := gridS.setGrp 1 (fun G => { G with calValid := true })
def lsS : State := live.wr (R.SG_LS_ADDR 0) 8#32
theorem test_stimulus_calibration_and_store :
    openB calG 0 (R.SG_CAL 0) = true ∧ calG.groupIdle 1 = true ∧ (after (.sgCal (.hp 0) 0 true) calG).sg[(0 : Fin 8)].cal = some 1 ∧
    (after (.sgCalDone 0 [(1, 2), (3, -4), (5, 6), (7, 8)]) (after (.sgCal (.hp 0) 0 true) calG)).rd (R.SG_LANE_TRIM 0 1) = 0xFFFC0003#32 ∧
    openB lsS 0 (R.SG_LS_DATA 0) = true ∧ lsS.f (R.SG_LS_ADDR 0) 17 2 * 4 < lsS.f (R.SG_CFG 0) 3 0 * 16384 ∧ lsS.mtStalls 3 0 8 false = false ∧
    (after (.sgLsAccess (.hp 0) 0 false 5#32 0) lsS).sramRd (sramAt 3 0 8) = 5#32 ∧
    (after (.sgLsAccess (.hp 0) 0 true 0#32 0) (lsS.sramWr (sramAt 3 0 8) 6#32)).resp = [(.hp 0, .data 6#32)] := by decide +kernel

/-! ## Memories and their controllers -/

/-- Bank 0 holds host scratch of partition 0 from window offset 0. -/
def scrS : State := live.wr (R.SB_MAP 0) 8#32
def sleepS (mem i : Nat) : State := live.setArr mem i (fun A => { A with dia := true })
theorem test_scrub_and_sleep :
    live.sleeping 0 3 = false ∧ live.mtStalls 0 3 64 false = false ∧ live.sramBadAt (sramAt 0 3 64) = false ∧ goes (.patrolScrub 0 3 64 ⟨0, none⟩) live = true ∧
    counted live (after (.patrolScrub 0 3 64 ⟨1, none⟩) live) (R.SB_CE_CNT 3) = true ∧ counted live (after (.patrolScrub 0 3 64 ⟨2, none⟩) live) (R.SB_UE_CNT 3) = true ∧
    counted live (after (.patrolScrub 0 3 68 ⟨1, some 5#64⟩) live) (R.SB_COLL_CNT 3) = true ∧
    (after (.patrolScrub 0 3 68 ⟨1, some 5#64⟩) live).sramRd (sramAt 0 3 64) = 5#32 ∧ (sleepS 1 7).sleeping 1 7 = true ∧ openB live 0 (R.SB_DIA_SP_ENTER 1) = true ∧ openB live 0 (R.SB_DIA_SP_WAKE 1) = true ∧
    live.reaches (.hp 0) (live.partOf .eng 37) = true ∧ (after (.sbDiaSpEnter (.hp 0) 1 32#32) live).sleeping 1 37 = true ∧ live.mtOn 1 37 = false ∧
    counted live ((live.setEng 37 (fun E => { E with st := 2 })).diaSpEnter 37) (R.SB_EVT_CNT (live.arrPart 1 37) 6) = true ∧
    ((after (.sbDiaSpWake (.hp 0) 1 32#32) (sleepS 1 37)).arrSt 1 37).wakeAt = some 1000000#54 ∧
    (after (.diapauseWakeDone 1 37) (after (.sbDiaSpWake (.hp 0) 1 32#32) (sleepS 1 37))).sleeping 1 37 = false ∧
    ((sleepS 1 37).arrSt 1 37).wakeAt = none ∧ (live.setEng 37 (fun E => { E with st := 1, goWait := some 900000#54 })).since 900000#54 24000 = true ∧
    (after (.diapauseWakeDone 1 37) (live.setEng 37 (fun E => { E with st := 1, goWait := some 900000#54 }))).eng[(37 : Fin 256)].st = 2 ∧ (after (.startupMarchDone []) { live with phase := 1 }).sc.marched = true := by decide +kernel

theorem test_scratch_window :
    scrS.portOpen 0 .bar0 = true ∧ scrS.scratchAt 0 64 = some (0, 64) ∧ scrS.sleeping 0 0 = false ∧ scrS.mtStalls 0 0 64 false = false ∧
    (after (.scratchWindowAccess 0 64 [9#32] false 15 0 false none) scrS).sramRd (sramAt 0 0 64) = 9#32 ∧
    (after (.scratchWindowAccess 0 64 [9#32] false 15 0 true none) scrS).sram = [] ∧
    (after (.scratchWindowAccess 0 64 [0#32] true 15 0 false none) (scrS.sramWr 64 7#32)).resp = [(.hp 0, .data 7#32)] ∧
    (after (.scratchWindowAccess 0 64 [0#32] true 15 0 false none) ((scrS.sramWr 64 7#32).sramSpoil 64)).resp = [(.hp 0, .poisoned 7#32)] := by
  decide +kernel

/-- A march of bank 0, slices 3 and 4. -/
def mtCfg : State := live.wr (R.SB_MT_RANGE 0) 0x40003#32
def mtS : State := after (.mtGo (.hp 0) 0 0x80000000#32) mtCfg
theorem test_march :
    openB mtCfg 0 (R.SB_MT_CTL 0) = true ∧ mtCfg.pmap.bank[(0 : Fin 32)] = 0 ∧ mtCfg.f (R.SB_MT_RANGE 0) 8 0 = 3 ∧ mtCfg.f (R.SB_MT_RANGE 0) 24 16 = 4 ∧
    mtCfg.mtSkips 0 0 3 = false ∧ mtS.mt[(0 : Fin 4)].slices = [(3, 0), (4, 0)] ∧ mtS.mtSkips 0 0 4 = false ∧
    counted mtS (after (.mtGo (.hp 0) 0 0#32) mtS) (R.SB_EVT_CNT 0 4) = true ∧ (after (.mtAbort (.hp 0) 0 0#32) mtS).f (R.SB_MT_STATUS 0) 30 29 = 3 ∧
    goes (.mtAbort (.hp 0) 0 0#32) live = true ∧ (after (.mtSliceDone 0 []) mtS).mt[(0 : Fin 4)].slices = [(4, 0)] ∧
    (after (.mtSliceDone 0 [8]) mtS).mt[(0 : Fin 4)].failAt = some (4096 * 3 + 8) ∧
    (after (.mtSliceDone 0 []) (after (.mtSliceDone 0 []) mtS)).f (R.SB_MT_STATUS 0) 30 29 = 1 ∧
    (after (.sbCocoonWipe false false) { live with cocoon := { wiping := true, cause := 2 } }).f R.SB_COCOON_STATUS 9 8 = 2 ∧
    (after (.sbCocoonWipe false true) { live with cocoon := { wiping := true } }).f R.PG_FAULT 15 0 = 0xF1 ∧
    (after (.sbCocoonWipe true false) { live with sealKey := some 1 }).sealKey = none ∧
    (after (.sbCocoonWipe true false) { live with sealKey := some 1 }).cocoon.wiping = true := by decide +kernel

/-- All channels active, and a share of 16 MiB for partition 0, whose window starts at address 0. -/
def dramOn : State := { live.wr (R.DC_PART_LIMIT 0) 16#32 with dc := Vector.replicate 16 { st := .active } }
def fillS : State := after (.fillGo (.hp 0) 0 0x80000001#32) dramOn
def reqS : State := dramOn.setDc 0 (fun D => { D with reqs := [⟨25, 2, 0, false, 0#54, false, {}, {}⟩, ⟨0, 0, 0, true, 0#54, false, {}, {}⟩] })
theorem test_dram_accesses :
    counted dramOn (after (.dramAccessDone 0 25 2 0 1 5) dramOn) (R.DC_CE_CNT 0) = true ∧ (after (.dramAccessDone 0 25 2 0 2 5) dramOn).bad = [0] ∧
    dramOn.regionBlock 0 (0 : Fin 16) = none ∧ readyG.regionBlock 512 (0 : Fin 16) = some 512 ∧
    dramOn.f R.DC_SCRUB 7 0 ≠ 0 ∧ 64 < dramOn.dcCap ∧ dramOn.dcActive 64 = true ∧ (dramOn.wr R.DC_SCRUB 0#32).f R.DC_SCRUB 7 0 = 0 ∧
    openB dramOn 0 (R.DC_FILL_CTL 0) = true ∧ dramOn.inShare 0 0 (1048576 * 16) = true ∧ dramOn.inShare 0 0 (1048576 * 17) = false ∧
    fillS.fill[(0 : Fin 4)] = ⟨true, 0, 1048576⟩ ∧ (after (.fillGo (.hp 0) 0 17#32) dramOn).fill = dramOn.fill ∧
    (after (.dcFillDone 0 none) (fillS.memSet 5 1#8)).memGet 5 = 0#8 ∧ (after (.dcFillDone 0 none) (fillS.memSet 1048576 1#8)).memGet 1048576 = 1#8 ∧
    (after .startupZeroingDone { dramOn with phase := 3, mem := [(3, 1#8)] }).mem = [] ∧ reqS.ageLimit 2 ≠ none ∧
    ((reqS.ageLimit 2).map (fun n => reqS.since 0#54 (n + 1))) = some true ∧
    ((after (.requestPromote 0 0) reqS).dc[(0 : Fin 16)].reqs.map (·.prom)) = [true, false] := by decide +kernel

/-- The spec's example of an address mapping: 16 channels, two ranks of 32 Gb, A = 0x0A_5C3B_2E40. -/
def mapS : State := forAll ([0x4401, 0x8802, 0x11004, 0x22008, 0x40040, 0x80080, 0x100100, 0x200200].zipIdx) (live.wr R.DC_CFG 0x26#32)
  (fun x s => s.wr (R.DC_XOR_MASK x.2) (word x.1))
theorem test_mapping : mapS.masksLegal = true ∧ mapS.dcChan 0x0A5C3B2E40 = 8 ∧ mapS.dcPlace 0x0A5C3B2E40 = ⟨0, 13, 84871, 9⟩ ∧
    mapS.checkPlace ⟨0, 13, 84871, 9⟩ = ⟨0, 5, 127116, 29⟩ ∧ checkByte ⟨0, 13, 84871, 9⟩ = 8 ∧ mapS.dcChan 0x0A5C3B2C40 = 9 ∧
    ((mapS.dcRequest 0 0 0x0A5C3B2E40 false).dc[(8 : Fin 16)].reqs.map (·.check)) = [⟨0, 5, 127116, 29⟩] := by decide +kernel

def heldW : State := { dramOn with
  asleep := [⟨.hp 0, .bar0, 0x3000040, 0#32, true, false⟩], winWait := [⟨0, 0x3000040, none, 0#54⟩], tb := { dramOn.tb with count := 2000000#54 } }
theorem test_acquisition_window :
    dramOn.portOpen 0 .bar0 = true ∧ dramOn.winAddr 0 (0x3000000 + 64) = 64 ∧ dramOn.inShare 0 64 4 = true ∧ dramOn.badIn 64 64 = [] ∧
    (after (.acqWindowAccess 0 64 [0x04030201#32] false 15 0 false) dramOn).memBytes 63 6 = [0#8, 1#8, 2#8, 3#8, 4#8, 0#8] ∧
    (after (.acqWindowAccess 0 64 [0#32] true 15 0 false) (dramOn.memSet 65 7#8)).resp = [(.hp 0, .data 0x700#32)] ∧
    live.inShare 0 64 4 = false ∧ counted live (after (.acqWindowAccess 0 64 [0#32] true 15 0 false) live) (R.DC_EVT_CNT 2) = true ∧
    counted live (after (.acqWindowAccess 0 64 [1#32] false 15 0 false) live) (R.DC_EVT_CNT 2) = true ∧
    (after (.acqWindowAccess 0 64 [0#32] true 15 0 false) { dramOn with dc := Vector.replicate 16 {} }).resp = [(.hp 0, .abort)] ∧
    (after (.acqWindowAccess 0 64 [0#32] true 15 0 false) { dramOn with dc := Vector.replicate 16 { st := .retrain } }).asleep.length = 1 ∧
    heldW.since 0#54 2000000 = true ∧ (after (.windowWaitTimeout 0) heldW).resp = [(.hp 0, .abort)] ∧
    { heldW with tb := { heldW.tb with count := 1999999#54 } }.since 0#54 2000000 = false := by decide +kernel

def rankS (h : Rank → Rank) : State := dramOn.setRank 0 0 (fun r => h { r with selfRef := false })
def dcS (h : DcSt → DcSt) : State := dramOn.setDc 0 h
/-- Group 0's port is in panic: its first stream has 256 staged entries and P is 1; its request waits at channel 0. -/
def panicS : State :=
  (((rankS (fun r => { r with must := 2, debt := 9, due := 1000000#54 })).wrF (R.CH_GRP_STG 0) 7 0 1).setCh 0
    (fun C => { C with stg := List.replicate 256 ⟨0, 0, true, none, false, false⟩ })).setGrp 0
    (fun G => { G with out := some ⟨0, 0, 0, 0, 0, [], false, false⟩ })
/-- The hold has begun, and one interval of mandatory refresh is left. -/
def holdS : State :=
  (after (.refreshDue 0 0) panicS).setRank 0 0 (fun r => { r with must := 1, debt := 8, paid := 7 })
theorem test_refresh_hold :
    panicS.panicWaits 0 = some 0 ∧ panicS.since (rankOf panicS.dc[(0 : Fin 16)] 0).due (panicS.trefiCounts 0 0) = false ∧
    (rankOf (after (.refreshDue 0 0) panicS).dc[(0 : Fin 16)] 0).hold = some (0, 1000000#54) ∧
    holdS.refreshing 0 0 = true ∧ (rankOf (after (.perBankRefreshDone 0 0) holdS).dc[(0 : Fin 16)] 0).hold = none ∧
    counted holdS (after (.perBankRefreshDone 0 0) holdS) (R.DC_EVT_CNT 3) = true ∧
    counted holdS (after (.mr4Poll 0 0 0 false) (holdS.setGrp 0 (fun G => { G with out := none }))) (R.DC_EVT_CNT 3) = true := by
  decide +kernel
theorem test_refresh :
    (rankS id).refreshing 0 0 = true ∧ (rankS id).panicWaits 0 = none ∧
    (rankS id).since (rankOf (rankS id).dc[(0 : Fin 16)] 0).due ((rankS id).trefiCounts 0 0) = true ∧
    (rankOf (after (.refreshDue 0 0) (rankS (fun r => { r with debt := 7 }))).dc[(0 : Fin 16)] 0).must = 1 ∧
    (after (.refreshDue 0 0) (rankS (fun r => { r with due := 1000000#54 }))).dc = (rankS (fun r => { r with due := 1000000#54 })).dc ∧
    dramOn.refreshing 0 0 = false ∧ (after (.refreshDue 0 0) dramOn).dc = dramOn.dc ∧
    (rankOf (after (.perBankRefreshDone 0 0) (rankS (fun r => { r with paid := 6, next := 7, debt := 1 }))).dc[(0 : Fin 16)] 0).paid = 7 ∧
    (rankOf (after (.perBankRefreshDone 0 0) (rankS (fun r => { r with paid := 7, hold := some (0, 0), must := 1, debt := 8 }))).dc[(0 : Fin 16)] 0).debt = 7 ∧
    (rankOf (after (.mr4Poll 0 0 2 false) (rankS (fun r => { r with debt := 3 }))).dc[(0 : Fin 16)] 0).debt = 12 ∧
    counted (rankS id) (after (.mr4Poll 0 0 2 false) (rankS id)) (R.DC_EVT_CNT 4) = true ∧
    counted (rankS id) (after (.mr4Poll 0 0 1 true) (rankS id)) (R.DC_EVT_CNT 8) = true := by
  decide +kernel

theorem test_controllers :
    openB live 0 (R.DC_CTL 0) = true ∧ 0 < live.nch ∧ live.masksLegal = true ∧ live.tb.dpll[quadOf 0].lock = true ∧
    (after (.dcEnable (.hp 0) 0 1#32) live).dc[(0 : Fin 16)].st = .training ∧ ((live.setTb (fun T => { T with dpll := Vector.replicate 4 {} })).tb.dpll[quadOf 0].lock = false) ∧
    (after (.dcDisable (.hp 0) 0 0#32) (dramOn.wr (R.DC_CTL 0) 1#32)).dc[(0 : Fin 16)].stopping = true ∧
    (after (.dcDisable (.hp 0) 0 0#32) ((dcS (fun D => { D with st := .training })).wr (R.DC_CTL 0) 1#32)).dc[(0 : Fin 16)].st = .disabled ∧
    (after (.selfRefreshAck 0) (dcS (fun D => { D with stopping := true }))).dc[(0 : Fin 16)].st = .disabled ∧
    (after (.selfRefreshAck 0) (dramOn.setTb (fun T => { T with dpll := T.dpll.set 0 { lolAt := some 5#54 } }))).dc[(0 : Fin 16)].st = .selfRefresh ∧
    (after (.fullTrainingDone 0 none [1] [2] [3] 4#32) (dcS (fun D => { D with st := .training }))).rd (R.DC_DLY_RD 0 0) = 2#32 ∧
    (after (.fullTrainingDone 0 (some 2) [] [] [] 0#32) (dcS (fun D => { D with st := .training }))).dc[(0 : Fin 16)].st = .failed ∧
    (after (.fullTrainingDone 0 (some 2) [] [] [] 0#32) (dcS (fun D => { D with st := .training, fullFor := true }))).f R.PG_FAULT 15 0 = 0xF4 ∧
    (after (.fullTrainingDone 0 (some 2) [] [] [] 0#32) { dcS (fun D => { D with st := .training }) with phase := 3 }).phase = 13 ∧
    (after (.fastRetrainDone 0 true) (dcS (fun D => { D with st := .retrain }))).dc[(0 : Fin 16)].st = .active ∧
    (after (.fastRetrainDone 0 false) (dcS (fun D => { D with st := .retrain }))).dc[(0 : Fin 16)].fullFor = true := by decide +kernel

def trnS : State := live.wr (R.DC_CTL 2) 2#32
def trnOn (op : Nat) : State := trnS.setDc 2 (fun D => { D with trn := some ⟨op, 1, 3, 0x55⟩ })
theorem test_custom_training :
    openB trnS 0 (R.DC_TRN_CMD 2) = true ∧ trnS.fb (R.DC_CTL 2) 0 = false ∧ trnS.fb (R.DC_CTL 2) 1 = true ∧
    (after (.trnMrr (.hp 0) 2 1 3 false 0x55) trnS).dc[(2 : Fin 16)].trn = some ⟨1, 1, 3, 0x55⟩ ∧
    (after (.trnMrw (.hp 0) 2 1 3 false 0x55) (trnOn 1)).dc[(2 : Fin 16)].trn = some ⟨1, 1, 3, 0x55⟩ ∧
    (after (.trnCmdDone 2 0x77#8 [] []) (trnOn 1)).f (R.DC_TRN_STATUS 2) 15 8 = 0x77 ∧
    (after (.trnCmdDone 2 0#8 [5, 6] []) (trnOn 3)).rd (R.DC_TRN_ERR 2 1) = 6#32 ∧
    (rankOf (after (.trnCmdDone 2 0#8 [] []) (trnOn 6)).dc[(2 : Fin 16)] 1).selfRef = true ∧ goes (.trnCmdDone 2 0#8 [] []) trnS = true := by
  decide +kernel

/-! ## Host ports -/

def loadL (p : Fin 4) : Load := { by_ := .mail p, src := .host, full := true, part := 0, addr := 0, len := 4096, life := 2 }
def loadS (p : Fin 4) : State := { live with sc := { live.sc with load := some (loadL p) } }
def txS (k : TxKind) : State := live.setPort 0 (fun P => { P with tx := [⟨k, 64, [1#8], false⟩] })
def fencedS : State := live.setPort 0 (fun P => { P with fenced := true })
theorem test_ports :
    live.present 0 = true ∧ live.port[(0 : Fin 4)].perst = false ∧ live.sc.load = none ∧ live.sc.kept[(0 : Fin 4)] = [] ∧
    (after (.perstAssert 0) live).port[(0 : Fin 4)] = {} ∧ counted live (after (.perstAssert 0) live) (R.HP_EVT_CNT 2 8) = true ∧
    State.reset.present 0 = false ∧ (loadS 1).issuer (loadL 1) ≠ 0 ∧ (after (.perstAssert 0) (loadS 1)).sc.perst = [(0, false)] ∧
    (after (.perstRelease 0) (after (.perstAssert 0) (loadS 1))).sc.perst = [(0, true)] ∧ (after (.perstRelease 0) live).port[(0 : Fin 4)].perst = false ∧
    counted live (after (.hpLinkUp 0 5 4) (live.setPort 0 (fun P => { P with link := false }))) (R.HP_EVT_CNT 0 2) = true ∧
    live.port[(0 : Fin 4)].link = true ∧ (after (.hotReset 0) (txS (.readout 4))).rd (R.HP_FDROP_CNT 0) = 1#32 ∧
    (after (.linkDown 0) live).port[(0 : Fin 4)].fenced = true ∧ counted live (after (.linkDown 0) live) (R.HP_EVT_CNT 0 0) = true := by decide +kernel

theorem test_acknowledgements :
    (after (.writeAcknowledged 0) (txS (.slots 6 0))).port[(0 : Fin 4)].tx = [] ∧ (after (.writeAcknowledged 0) (txS (.readout 6))).port[(0 : Fin 4)].tx = [] ∧
    ((txS (.shadow 6 0 9#32 [])).ringSt 6).life = 0 ∧ ((after (.writeAcknowledged 0) (txS (.shadow 6 0 9#32 []))).ringSt 6).ackT = 9#32 ∧
    (after (.writeAcknowledged 0) (txS (.stream 1 0 9#32))).sg[(1 : Fin 8)].str.ackHead = 9#32 ∧
    (live.setPort 0 (fun P => { P with link := false })).port[(0 : Fin 4)].link = false ∧ openB fencedS 0 (R.HP_FENCE 0) = true ∧ fencedS.bme 0 = true ∧
    (after (.fenceRelease (.hp 0) 0) fencedS).port[(0 : Fin 4)].fenced = false ∧ counted fencedS (after (.fenceRelease (.hp 0) 0) fencedS) (R.HP_EVT_CNT 0 1) = true ∧
    (after (.fenceRelease (.hp 0) 0) live).port = live.port := by decide +kernel

/-- A read of a load is outstanding under tag 5 since count 0. -/
def rd0 : Read := ⟨.load, 0, 0, 64, 2, false⟩
def tagS (r : Read) (n : Nat) (h : PortSt → PortSt) : State :=
  (State_at (loadS 0) n).setPort 0 (fun P => h { P with tags := [{ tag := 5, at_ := 0#54, read := r }] })
def noBme (P : PortSt) : PortSt := { P with cfg := [(4, 2#32)] }
theorem test_bus_master_enable :
    live.bme 0 = true ∧ (after (.bmeClear 0) (tagS rd0 1000000 id)).port[(0 : Fin 4)].grace = some 1000000#54 ∧ (live.setPort 0 noBme).bme 0 = false ∧
    (tagS rd0 20000000 (fun P => { P with grace := some 0#54 })).since 0#54 20000000 = true ∧
    (after (.bmeGraceEnd 0) (tagS rd0 20000000 (fun P => { P with grace := some 0#54 }))).port[(0 : Fin 4)].wants = [rd0] ∧
    (tagS rd0 19999999 (fun P => { P with grace := some 0#54 })).since 0#54 20000000 = false ∧
    ((after (.bmeSet 0) (live.setPort 0 (fun P => noBme { P with wants := [rd0] }))).port[(0 : Fin 4)].tags.map (·.read)) = [rd0] ∧
    (after (.d3hotEntry 0) live).port[(0 : Fin 4)].d3 = true ∧ (after (.d0Return 0) (after (.d3hotEntry 0) live)).port[(0 : Fin 4)].d3 = false ∧
    ((msixS 0#32).setPort 0 (fun P => { P with pba := [3] })).mayIssue 0 = true ∧
    (after (.msixUnmask 0) ((msixS 0#32).setPort 0 (fun P => { P with pba := [3] }))).port[(0 : Fin 4)].pba = [] ∧
    (after (.msixUnmask 0) ((msixS 1#32).setPort 0 (fun P => { P with pba := [3] }))).port[(0 : Fin 4)].pba = [3] := by decide +kernel

theorem test_host_reads :
    live.rings = [] ∧ counted live (after (.readCompletion 0 9 [1#8] false) live) (R.HP_UC_CNT 0) = true ∧
    ((after (.readCompletion 0 5 (List.replicate 32 1#8) false) (tagS rd0 5 id)).port[(0 : Fin 4)].tags.map (fun x => x.got.length)) = [32] ∧
    ((after (.readCompletion 0 5 (List.replicate 64 1#8) false) (tagS rd0 5 id)).sc.load.map (fun l => l.parts.map (fun x => x.2.length))) = some [64] ∧
    (tagS rd0 20000000 id).since 0#54 (2000000 * (tagS rd0 20000000 id).cto 0) = true ∧ (tagS rd0 20000000 noBme).mayIssue 0 = false ∧
    (after (.completionTimeout 0 5) (tagS rd0 20000000 noBme)).port[(0 : Fin 4)].retired = [(5, 20000000#54)] ∧
    counted live (after (.completionTimeout 0 5) (tagS ⟨.chunk 0 0#32, 0, 0, 64, 0, true⟩ 20000000 id)) (R.HP_EVT_CNT 0 3) = true ∧
    (tagS rd0 19999999 id).since 0#54 (2000000 * (tagS rd0 5 id).cto 0) = false ∧
    (State_at live 40000000).since 0#54 (4000000 * live.cto 0) = true ∧
    (after (.tagRetirementEnd 0 5) ((State_at live 40000000).setPort 0 (fun P => { P with retired := [(5, 0#54)] }))).port[(0 : Fin 4)].retired = [] ∧
    (State_at live 39999999).since 0#54 (4000000 * live.cto 0) = false := by decide +kernel

/-! ## Commands of the rings -/

/-- A descriptor of opcode `op` with SEQ 9 and parameter bytes from byte 16 on. -/
def desc (op : Nat) (args : List Byte) : List Byte := padTo 64 (padTo 16 (leBytes 1 op ++ leBytes 1 0 ++ leBytes 2 9) ++ args)

/-- Queue 6 is a CMD ring of partition 0 with one fetched command, queue 7 its CPL ring; the image is loaded, the driver attached. -/
def cmdS (s : State) (d : List Byte) : State :=
  (((s.wr (qd 6 0) 10#32).wr (qd 7 0) 11#32).setSc (fun c => { c with img := Vector.replicate 4 2 })).setRing 6 (fun G => { G with fetched := [d] })

/-- `Front` and `Ready` as tests. -/
def front (s : State) (op : Nat) (d : List Byte) : Bool :=
  s.qType 6 == 2 && !(s.ringSt 6).busy && (s.ringSt 6).fetched == [d] && leAt d 0 1 == op && s.qPart 6 == 0
def ready (s : State) : Bool := s.phase != 15 && s.sc.img[(0 : Fin 4)] == 2 && s.port[(0 : Fin 4)].attached

/-- The command has completed with a status and a result. -/
def ended (t : State) (d : List Byte) (status : Nat) (result : BitVec 64) : Bool :=
  (t.ringSt 6).fetched == [] && !(t.ringSt 6).busy && (t.ringSt 7).cpl == [(cplBytes 6 d status 0 result, false)]

/-- Run the front command of a state that holds it. -/
def cmd (c : Fin 16384 → Instr) (s : State) (d : List Byte) : State := after (c 6) (cmdS s d)

def detached : State := live.setPort 0 (fun P => { P with attached := false })
theorem test_plain_commands :
    front (cmdS live (desc 0 [])) 0 (desc 0 []) = true ∧ ended (cmd .nop live (desc 0 [])) (desc 0 []) 0 0 = true ∧
    ready (cmdS live (desc 2 [])) = true ∧ ended (cmd .detach live (desc 2 [])) (desc 2 []) 0 0 = true ∧
    (cmd .detach live (desc 2 [])).port[(0 : Fin 4)].attached = false ∧
    ended (cmd .detach detached (desc 2 [])) (desc 2 []) 1 0 = true ∧
    ended (cmd .detach { live with phase := 15 } (desc 2 [])) (desc 2 []) 8 0 = true ∧
    ended (cmd .attach detached (desc 1 (leBytes 2 0 ++ leBytes 6 0 ++ leBytes 8 77))) (desc 1 (leBytes 2 0 ++ leBytes 6 0 ++ leBytes 8 77)) 0 0x40000#64 = true ∧
    (cmd .attach detached (desc 1 (leBytes 8 0 ++ leBytes 8 77))).port[(0 : Fin 4)].driver = 77#64 ∧
    ended (cmd .attach detached (desc 1 (leBytes 2 256))) (desc 1 (leBytes 2 256)) 4 0 = true ∧
    (cmdS live (desc 3 [])).mayIssue 0 = true ∧ ended (cmd .digest fencedS (desc 3 [])) (desc 3 []) 8 0 = true := by decide +kernel

/-- A load of 4,096 bytes of flash, full or of the partition. -/
def loadD (scope : Nat) : List Byte := desc 4 (leBytes 1 scope ++ leBytes 7 0 ++ leBytes 8 0x100000 ++ leBytes 8 4096)
/-- Nothing runs in a state whose units are as after reset. -/
theorem idle_of (s : State) (hg : s.grp = live.grp) (ht : s.trg = live.trg) (hs : s.sg = live.sg) (he : s.eng = live.eng)
    (hi : ∀ u : Fin 16, s.fb (R.IU_CTL u) 0 = false) (p : Fin 4) : s.partIdle p = true := by
  have g : ∀ g : Fin 16, s.grp[g].st = .idle := fun g => by rw [hg]; simp [show live.grp = Vector.replicate 16 {} from rfl]
  have q : ∀ k : Fin 8, s.restingQ k = true := fun k => by simp [restingQ, ht, show live.trg.seq = Vector.replicate 8 {} from rfl]
  have w : ∀ k : Fin 8, s.sg[k].st = .idle := fun k => by rw [hs]; simp [show live.sg = Vector.replicate 8 {} from rfl]
  have e : ∀ k : Fin 256, s.eng[k].st = 0 := fun k => by rw [he]; simp [show live.eng = Vector.replicate 256 {} from rfl]
  unfold partIdle
  simp only [g, q, w, e, hi]
  simp [List.all_eq_true]

theorem test_load_commands (sc : Nat) (p : Fin 4) :
    (cmdS live (loadD sc)).partIdle p = true ∧ live.sc.load = none ∧ live.owner = 0 ∧ leAt (loadD 1) 16 1 = 1 ∧ leAt (loadD 1) 17 1 = 0 ∧
    0 < leAt (loadD 1) 32 4 ∧ leAt (loadD 1) 24 8 + leAt (loadD 1) 32 4 ≤ live.sc.flashLen :=
  ⟨idle_of _ rfl rfl rfl rfl (by decide +kernel) p, by decide +kernel⟩
theorem test_load_partition :
    ((cmd .loadPartition live (loadD 1)).sc.load.map (fun l => l.full), (cmd .loadPartition live (loadD 1)).sc.img.toList) =
      (some false, [1, 2, 2, 2]) := by decide +kernel

def maskD (op n : Nat) : List Byte := desc op (leBytes 2 n)
theorem test_group_commands :
    ready (cmdS readyG (maskD 5 1)) = true ∧ (cmdS readyG (maskD 5 1)).pmap.grp[(0 : Fin 16)] = (0 : Fin 4) ∧ (cmdS readyG (maskD 5 1)).grpCause 0 = none ∧
    (cmd .groupGo readyG (maskD 5 1)).grp[(0 : Fin 16)].start = some (1020000 * 1024#64) ∧
    ended (cmd .groupGo readyG (maskD 5 1)) (maskD 5 1) 0 readyG.now = true ∧
    (cmdS live (maskD 5 1)).grpCause 0 = some 2 ∧ ended (cmd .groupGo live (maskD 5 1)) (maskD 5 1) 2 0 = true ∧
    (cmdS runG (maskD 6 1)).grp[(0 : Fin 16)].st = .run ∧ ended (cmd .groupHalt runG (maskD 6 1)) (maskD 6 1) 0 runG.stamp32 = true ∧
    (cmd .groupHalt runG (maskD 6 1)).grp[(0 : Fin 16)].stop = some runG.stamp32 ∧
    live.grp[(0 : Fin 16)].st = .idle ∧ ended (cmd .groupHalt live (maskD 6 1)) (maskD 6 1) 1 0 = true := by decide +kernel

def armedS : State := after (.trgArm (.hp 0) 1#32) live
theorem test_unit_ring_commands :
    (cmdS live (maskD 7 1)).armCause 0 = none ∧ ended (cmd .arm live (maskD 7 1)) (maskD 7 1) 0 live.stamp32 = true ∧
    (cmdS armedS (maskD 8 1)).restingQ 0 = false ∧ ended (cmd .disarm armedS (maskD 8 1)) (maskD 8 1) 0 0 = true ∧
    (cmdS live (maskD 8 1)).restingQ 0 = true ∧ ended (cmd .disarm live (maskD 8 1)) (maskD 8 1) 1 0 = true ∧
    (cmdS startS (maskD 9 1)).sgCause 0 = none ∧ ended (cmd .sgGoCommand startS (maskD 9 1)) (maskD 9 1) 0 startS.now = true ∧
    (cmdS (playS 0) (maskD 10 1)).sg[(0 : Fin 8)].st = .run ∧ ended (cmd .sgHaltCommand (playS 0) (maskD 10 1)) (maskD 10 1) 0 0 = true ∧
    (cmdS (playS 0) (maskD 11 0)).pmap.sg[(0 : Fin 8)] = (0 : Fin 4) ∧ ((cmdS (playS 0) (maskD 11 0)).jumpAsk 0 ⟨(playS 0).stamp32, .cmd 6⟩).sg[(0 : Fin 8)].jq.length = 1 ∧
    ended (cmd .jump live (maskD 11 8)) (maskD 11 8) 2 0 = true := by decide +kernel

/-- SHARED: object, action, generation, and the length of the value block. -/
def sharedD (o a gen len : Nat) : List Byte := desc 12 (leBytes 1 o ++ leBytes 1 a ++ leBytes 2 gen ++ leBytes 4 0 ++ leBytes 8 0x4000 ++ leBytes 4 len)
theorem test_shared_commands :
    ready (cmdS live (sharedD 5 0 0 4)) = true ∧ (cmdS live (sharedD 5 0 0 4)).sharedStop (sharedD 5 0 0 4) = false ∧ valueLen 5 = 4 ∧
    ((cmd .sharedApply live (sharedD 5 0 0 4)).ringSt 6).busy = true ∧
    ended (cmd .sharedApply { live with owner := 1 } (sharedD 5 0 0 4)) (sharedD 5 0 0 4) 3 0 = true ∧
    (cmdS live (sharedD 5 0 1 4)).sharedStop (sharedD 5 0 1 4) = true ∧ ended (cmd .sharedApply live (sharedD 5 0 1 4)) (sharedD 5 0 1 4) 1 0 = true ∧
    (cmdS live (sharedD 3 1 0 0)).sharedStop (sharedD 3 1 0 0) = false ∧ ended (cmd .sharedFire live (sharedD 3 1 0 0)) (sharedD 3 1 0 0) 0 1 = true ∧
    (cmdS live (sharedD 1 1 0 0)).sharedStop (sharedD 1 1 0 0) = false ∧ ended (cmd .sharedRampGo live (sharedD 1 1 0 0)) (sharedD 1 1 0 0) 0 1 = true ∧
    (cmd .sharedRampGo live (sharedD 1 1 0 0)).tb.ramp.run = true ∧
    ended (cmd .sharedRampStop live (sharedD 1 2 0 0)) (sharedD 1 2 0 0) 0 1 = true ∧
    ended (cmd .sharedRampStop { live with owner := 1 } (sharedD 1 2 0 0)) (sharedD 1 2 0 0) 3 0 = true ∧
    ended (cmd .sharedFire live (sharedD 3 1 7 0)) (sharedD 3 1 7 0) 1 0 = true := by decide +kernel

/-- READOUT of 64 bytes at `a`, with the channels active and a byte 0xAB at address 3. -/
def readD (a : Nat) : List Byte := desc 13 (leBytes 8 a ++ leBytes 8 0x8000 ++ leBytes 4 64)
def memS : State := { live.wr (R.DC_PART_LIMIT 0) 16#32 with dc := Vector.replicate 16 { st := .active }, mem := [(3, 0xAB#8)] }
def readoutS : State := (cmd .readout memS (readD 0)).setPort 0 (fun P => { P with tx := [] })
theorem test_readout_waits :
    (((cmd .readout memS (readD 0)).ringSt 6).got, ((cmdS { memS with dc := Vector.replicate 16 { st := .retrain } } (readD 0)).ringSt 6).busy,
      ((cmd .readout { memS with dc := Vector.replicate 16 { st := .retrain } } (readD 0)).ringSt 6).busy) = (64, false, false) ∧
    ended (after (.readoutDone 6) ((cmdS { memS with dc := Vector.replicate 16 { st := .failed } } (readD 0)).setRing 6
      (fun G => { G with busy := true }))) (readD 0) 8 0 = true := by decide +kernel
theorem test_readout :
    (cmdS memS (readD 0)).inShare 0 0 64 = true ∧ (cmdS memS (readD 0)).mayIssue 0 = true ∧ (cmdS memS (readD 0)).badIn 0 64 = [] ∧
    ((cmd .readout memS (readD 0)).port[(0 : Fin 4)].tx.flatMap (·.bytes)).take 4 = [0, 0, 0, 0xAB#8] ∧
    (cmd .readout memS (readD 0)).port[(0 : Fin 4)].tx.all (fun x => x.kind == .readout 6) = true ∧
    (cmdS memS (readD 0x1000000)).inShare 0 0x1000000 64 = false ∧ ended (cmd .readout memS (readD 0x1000000)) (readD 0x1000000) 2 0 = true ∧
    ended (cmd .readout (memS.setPort 0 (fun P => { P with fenced := true })) (readD 0)) (readD 0) 8 0 = true ∧
    (readoutS.ringSt 6).fetched = [readD 0] ∧ ended (after (.readoutDone 6) readoutS) (readD 0) 0 64 = true ∧
    ((after (.readoutDone 6) (cmd .readout memS (readD 0))).ringSt 6).busy = true := by decide +kernel

/-- A life-cycle command, and a device in a state whose host scratch is bank 0 of the store, with two words of it. -/
def lifeD (a gen off len : Nat) : List Byte := desc 14 (leBytes 1 a ++ leBytes 1 0 ++ leBytes 2 gen ++ leBytes 4 off ++ leBytes 4 len)
def lifeS (lc : Nat) (words : List (Nat × Word)) : State :=
  { (live.wr (R.SB_MAP 0) 8#32).setSc (fun c => { c with fuse := { c.fuse with lc := lc } }) with sram := words }
/-- A provisioning block for partition 0 that accepts Thrumdal's key alone, and the head of a return token. -/
def provB : List (Nat × Word) := [(1, 0x01000000#32), (2, 0x12341234#32)]
def tokenB : List (Nat × Word) := [(0, word magicToken)]
/-- Host scratch that is awake and good, in a device without march tests, is free. -/
theorem scratch_free_of {s : State} (p off n : Nat) (ho : s.owner = p) (hm : ∀ q : Fin 4, s.mt[q].busy = false) (hb : s.sramBad = [])
    (ha : ∀ b : Nat, s.sleeping 0 b = false) : ScratchFree s off n := by
  have touch (i a : Nat) : s.mtTouch 0 i a = s := by
    unfold mtTouch
    have : ∀ l : List (Fin 4), forAll l s (fun p s =>
        match s.mt[p].slices with
        | (k, n) :: r =>
          if s.mt[p].busy && !s.mt[p].destr && s.mt[p].mem == 0 && s.mt[p].index == i && k == a / 4096 then
            let s := (s.setMt p (fun M => if 16 ≤ n + 1 then { M with slices := r, skipped := M.skipped + 1, defers := M.defers + 1 }
              else { M with slices := r ++ [(k, n + 1)], defers := M.defers + 1 }))
            (s.wrF (R.SB_MT_STATUS p) 9 0 (min 1023 s.mt[p].defers)).mtNext p 1024
          else s
        | [] => s) = s := by
      intro l
      induction l with
      | nil => rfl
      | cons x r ih => simp only [forAll, hm, Bool.false_and, Bool.false_eq_true, ite_false]; split <;> exact ih
    exact this _
  have all (l : List (Nat × Nat)) : forAll l s (fun e s => s.mtTouch 0 e.1 (4096 * e.2)) = s := by
    induction l with
    | nil => rfl
    | cons x r ih => rw [forAll, touch]; exact ih
  subst ho
  refine ⟨?_, by simp [scratchBad, hb]⟩
  have stalls (i a : Nat) (b : Bool) : s.mtStalls 0 i a b = false := by
    unfold mtStalls; simp only [hm, Bool.false_and, List.any_eq_false, Bool.false_eq_true, not_false_eq_true, implies_true]
  simp [scratchReach, ha, stalls, all]

theorem live_marches (q : Fin 4) : live.mt[q].busy = false := (by decide +kernel : ∀ q : Fin 4, live.mt[q].busy = false) q
theorem live_cocoon : live.cocoon.wiping = false := by decide +kernel

theorem life_idle (lc : Nat) (ws : List (Nat × Word)) : (List.finRange 4).all (fun r => (lifeS lc ws).partIdle r) = true :=
  List.all_eq_true.2 (fun r _ => idle_of _ rfl rfl rfl rfl (by decide +kernel) r)
theorem test_life_premises (lc off n : Nat) (ws : List (Nat × Word)) : ScratchFree (lifeS lc ws) off n ∧ (lifeS lc ws).cocoon.wiping = false :=
  ⟨scratch_free_of 0 off n rfl live_marches rfl (fun _ => rfl), live_cocoon⟩
theorem test_provision : (lifeS 0 provB).lifeStatus 0 (lifeD 0 0 0 288) = 0 ∧ (lifeS 1 provB).lifeStatus 0 (lifeD 1 0 0 288) = 0 := by
  unfold lifeStatus; rw [life_idle, life_idle]; decide +kernel
theorem test_finalise : (lifeS 1 []).lifeStatus 0 (lifeD 2 0 0 0) = 0 := by unfold lifeStatus; rw [life_idle]; decide +kernel
theorem test_life_cycle_refused :
    ended (cmd .finalise { lifeS 1 [] with owner := 1 } (lifeD 2 0 0 0)) (lifeD 2 0 0 0) 3 0 = true ∧
    ended (cmd .finalise (lifeS 1 []) (lifeD 2 1 0 0)) (lifeD 2 1 0 0) 1 0 = true := by decide +kernel

/-- The token passes every check but the signature's, which no evaluation can see; where it verifies, RETURN goes on. -/
def tokenBytes : List Byte := (lifeS 2 tokenB).scratchBytes 0 0 128
theorem test_return (h : Config.returnVerify 0 (slice tokenBytes 0 32) (slice tokenBytes 32 96) = true) :
    (lifeS 2 tokenB).lifeStatus 0 (lifeD 3 0 0 128) = 0 := by
  have ok : (lifeS 2 tokenB).tokenOk tokenBytes = true := by
    unfold tokenOk; rw [show (lifeS 2 tokenB).sc.fuse.retHash = 0 from rfl, h, Bool.and_true]; decide +kernel
  unfold lifeStatus
  rw [life_idle, if_neg (by decide +kernel), if_neg (by decide +kernel), if_neg (by decide +kernel)]
  exact if_pos ok

theorem test_digest_snapshot :
    openB live 0 R.HP_DIGEST_SNAP = true ∧ (after (.digestSnap (.hp 0)) live).port[(0 : Fin 4)].dseq = 1 ∧
    (after (.digestSnap (.hp 0)) { live with sc := { live.sc with load := some (loadL 1) } }).port[(0 : Fin 4)].snapping = false ∧
    (after (.digestSnapDone 0) (live.setPort 0 (fun P => { P with snapping := true }))).port[(0 : Fin 4)].snapping = false := by decide +kernel

/-! ## Start-up, loads, mailboxes, the checker -/

def romS : State := { State.reset with phase := 1 }
/-- A flash directory with one firmware slot of 4,096 bytes at 0x10000, its CRC in the last word. -/
def dirHead : List Byte := padTo 252 (padTo 6 [] ++ leBytes 2 1 ++ padTo 8 [] ++ leBytes 4 1 ++ leBytes 4 0x10000 ++ leBytes 4 4096)
def dirS : State :=
  romS.setSc (fun c => { c with flash := (List.range 256).zip (dirHead ++ wordBytes (crc32c (dirHead ++ padTo 4 []))) })
set_option maxRecDepth 20000 in
theorem test_start_up :
    (after .porstAssert live).phase = 0 ∧ (after .porstAssert live).tb.ever = false ∧
    (after (.porstRelease 1 2) State.reset).phase = 1 ∧ romS.slots 1 = [] := by decide +kernel
set_option maxRecDepth 20000 in
theorem test_firmware_slot :
    dirS.phase = 1 ∧ dirS.cocoon.wiping = false ∧ dirS.sc.tamperIn = false ∧ dirS.slots 1 = [(0x10000, 4096)] ∧ dirS.sc.marched = false := by decide +kernel

/-- A partition load of 4,096 erased bytes, asked for by ring 6, before and after its check. -/
def stageS : State := (cmdS live (loadD 1)).setSc (fun c => { c with
  load := some ⟨.cmd 6, .flash, false, 0, 0x100000, 4096, 0, Vector.replicate 4 2, [], none⟩, img := #v[1, 2, 2, 2] })
def image0 : Image := ⟨false, 0, 7, 0, 1, [], []⟩
def checkedS : State := stageS.setSc (fun c => { c with
  load := some ⟨.cmd 6, .flash, false, 0, 0x100000, 4096, 0, Vector.replicate 4 2, [], some image0⟩ })
theorem test_image_staged :
    (stageS.sc.load.map (fun l => stageS.loadCheck l)) = some (.fail 2 2) ∧ stageS.sc.perst = [] ∧ stageS.cocoon.wiping = false ∧
    (after (.imageStaged false) stageS).sc.load = none ∧ (after (.imageStaged false) stageS).sc.img.toList = [2, 2, 2, 2] ∧
    (after (.imageStaged true) stageS).sc.load = none ∧ goes (.imageStaged false) live = true := by decide +kernel
theorem test_image_loaded : image0.covers = [0] ∧ checkedS.sc.perst = [] ∧
    ((checkedS.sc.load.bind (fun l => l.image)).map (fun i => i.version)) = some 7 := by decide +kernel

def islandS : State := after (.islandTimeout (.hp 0) .bar0 0x40000 0#32 true) live
theorem test_island_timeout : islandOf .bar0 0x40000 = some 0 ∧ (islandS.phase, islandS.f R.PG_FAULT 15 0, islandS.resp) = (15, 0xF3, [(.hp 0, .abort)]) := by
  decide +kernel
theorem test_tamper :
    (after .tamperSupply live).sc.tampered = true ∧ (after (.tamperPin true) live).sc.tamperIn = true ∧ live.sc.tamperIn = false ∧
    (after .tamperClock { live with sealKey := some 1 }).sealKey = none := by decide +kernel
theorem test_lockstep : (after .lockstepMismatch live).f R.PG_FAULT 15 0 = 0xF0 := by decide +kernel

/-- A mailbox with arguments; the host scratch is bank 0 and the flash holds 0xA5 at 5. -/
def mailA (svc a n o bad : Nat) : State :=
  { live.wr (R.SB_MAP 0) 8#32 with
    sc := { live.sc with flash := [(5, 0xA5#8)], mail := #v[some ⟨svc, [word a, word n, word o, 0#32], bad⟩, none, none, none] }
    sram := [(0, 0x0F0F0F0F#32), (1, 0x0F0F0F0F#32)] }
theorem test_mailbox_scratch (svc a n o k m : Nat) :
    ScratchFree (mailA svc a n o 0) k m ∧ (mailA svc a n o 0).cocoon.wiping = false :=
  ⟨scratch_free_of 0 k m rfl live_marches rfl (fun _ => rfl), live_cocoon⟩
def argS (n o : Nat) : State := ((live.wr (R.SB_MAP 0) 8#32).wr (R.SC_MB_ARG 0 1) (word n)).wr (R.SC_MB_ARG 0 2) (word o)
theorem test_mailbox_commands :
    openB live 0 (R.SC_MB_CMD 0) = true ∧ live.sc.mail[(0 : Fin 4)] = none ∧
    ((after (.info (.hp 0) 0) live).sc.mail[(0 : Fin 4)].map (fun j => (j.svc, j.bad))) = some (0, 0) ∧
    ({ argS 64 0 with phase := 12 } : State).mailVerdict 0 4 [0#32, 64#32, 0#32, 0#32] = 0 ∧
    (after (.imageLoad (.hp 0) 0) { argS 64 0 with phase := 12 }).loading = true ∧
    ((after (.fwRecover (.hp 0) 0) live).sc.mail[(0 : Fin 4)].map (fun j => j.bad)) = some 1 ∧
    (after (.info (.hp 0) 0) (mailA 1 0 8 0 0)).sc = (mailA 1 0 8 0 0).sc := by decide +kernel
theorem test_mailbox_ends :
    (after (.mailboxDone 0 ⟨false, 0⟩) (mailA 1 0 8 0 3)).f (R.SC_MB_STATUS 0) 15 8 = 3 ∧
    (after (.mailboxDone 0 ⟨false, 0⟩) (mailA 0 0 0 0 0)).sc.mail[(0 : Fin 4)] = none ∧
    (after (.mailboxDone 0 ⟨true, 0⟩) (mailA 1 0 8 0 0)).f (R.SC_MB_STATUS 0) 15 8 = 8 ∧
    (after (.mailboxDone 0 ⟨false, 0⟩) (mailA 1 0 8 0 0)).scratchGet 0 5 = 0xA5#8 ∧ 0 + 8 ≤ (mailA 1 0 8 0 0).scratchSize (mailA 1 0 8 0 0).owner ∧
    (after (.mailboxDone 0 ⟨false, 0⟩) (mailA 2 0 4096 0 0)).flashGet 5 = 0xFF#8 ∧ (after (.mailboxDone 0 ⟨false, 0⟩) (mailA 3 0 8 0 0)).flashGet 5 = 0x05#8 ∧
    (after (.mailboxDone 0 ⟨false, 0⟩) (mailA 5 0 8 0 0)).sc.mail[(0 : Fin 4)] = none := by decide +kernel

theorem test_cfgi :
    openB live 0 (R.CFGI_COMMIT 0) = true ∧ live.fb (R.CFGI_CTL 0) 0 = true ∧ (after (.cfgiCapture (.hp 0) 0) live).cfgi[(0 : Fin 4)].st = 1 ∧
    (put (R.CFGI_CTL 0) 0#32 live).fb (R.CFGI_CTL 0) 0 = false ∧
    (after (.cfgiCapture (.hp 0) 0) (put (R.CFGI_CTL 0) 0#32 live)).cfgi[(0 : Fin 4)].st = 0 ∧
    goes (.cfgiPass 0 []) (put (R.CFGI_CTL 0) 0#32 live) = true ∧ (live.setCfgi 0 (fun C => { C with st := 2 })).tracked 0 = 0#32 := by decide +kernel

/-- A committed partition whose reference agrees, and one whose VALUE commit set another. -/
def cfS (x : Word) : State := live.setCfgi 0 (fun C => { C with st := 2, known := true, shift := x })
theorem cfS_tracked (x : Word) : (cfS x).tracked 0 = (cfS x).partCrc 0 [] ^^^ x := by unfold State.tracked; rfl
theorem test_cfgi_references : (cfS 0#32).partCrc 0 [] = (cfS 0#32).tracked 0 ∧ (cfS 1#32).partCrc 0 [] ≠ (cfS 1#32).tracked 0 := by
  refine ⟨by rw [cfS_tracked]; simp, ?_⟩
  rw [cfS_tracked]
  generalize (cfS 1#32).partCrc 0 [] = w
  intro h; have h0 := congrArg (fun v => v.getLsbD 0) h; simp at h0

/-! ## Power and monitors -/

def hotS (a : Count) : State := live.setPwr (fun w => { w with thermal := true, coolFrom := some a })
theorem test_thermal :
    (State_at (hotS 0#54) 3000000).since 0#54 2000000 = true ∧ (after .thermalEnd (State_at (hotS 0#54) 3000000)).pwr.thermal = false ∧
    (hotS 0#54).since 0#54 2000000 = false := by decide +kernel
/-- Every throttled class stands at its floor. -/
def fullX : State := live.setPwr (fun w => { w with x := 65536 })
theorem test_estimate :
    live.phase ≠ 15 ∧ [1000, 500].sum ≤ live.pwr.budget ∧ (after (.pgEstimate [1000, 500] 0) live).f R.PG_DRAW 15 0 = 1500 ∧
    live.pwr.budget < [9000].sum ∧ (after (.pgEstimate [9000] 300) live).pwr.x = max live.pwr.x 300 ∧ fullX.pwr.over_ = false ∧
    counted fullX (after (.pgEstimate [9000] 0) fullX) (R.PG_EVT_CNT 5) = true ∧
    (after (.pgEstimate [1000] 700) fullX).pwr.x = 700 ∧ (after (.pgEstimate [live.pwr.budget] 700) fullX).pwr.x = 65536 ∧
    (after (.pgEstimate [9000] 0) live).pwr.over_ = false := by decide +kernel
def tightS : State := live.wr R.PG_DRAW (word 3999)
theorem test_tokens :
    live.drawNow + 1 ≤ live.pwr.budget ∧ tightS.pwr.budget < tightS.drawNow + 2 ∧
    tightS.f (R.PG_CLASS_DRAW 3) 31 16 < tightS.f (R.PG_CLASS_DRAW 3) 15 0 + 2 ∧ tightS.pwr.thermal = false ∧
    (after (.tokenGrant 3 2 500) tightS).pwr.x = 500 := by decide +kernel
def budgetS : State := live.wr R.PG_BUDGET 5000#32
theorem test_budget :
    openB budgetS 0 R.PG_APPLY = true ∧ budgetS.owner = 0 ∧ budgetS.pgApplies 0 = true ∧ budgetS.pgApplies 1 = false ∧
    (after (.pgApply (.hp 0) 0#16) budgetS).pwr.budget = 5000 ∧ (after (.pgApply (.hp 0) 0#16) budgetS).rd R.PG_GEN = 1#32 ∧
    counted budgetS (after (.pgApply (.hp 0) 1#16) budgetS) (R.PG_EVT_CNT 3) = true := by decide +kernel

/-- The owner has set VSET to 800 mV and VCORE stands at 780 mV. -/
def coreS : State := (live.wr R.PG_VCTL (word (2 ^ 31 + 800 * 2 ^ 20 + 880 * 2 ^ 10 + 680))).wr R.PG_VCORE (word 780)
def silentS : State := live.setPwr (fun w => { w with pmbFail := true })
theorem test_vcore :
    coreS.fb R.PG_VCTL 31 = true ∧ coreS.vNow + 10 ≤ coreS.vSet ∧ (after (.vcoreStep false true 791) coreS).vNow = 790 ∧
    (after (.vcoreStep false true 791) coreS).f R.PG_VCORE 31 16 = 791 ∧ (after (.vcoreStep false false 0) coreS).pwr.pmbFail = true ∧
    live.pwr.pmbFail = false ∧ (after (.pgCalibrate true 701 5) live).f R.PG_VCORE 31 16 = 701 ∧
    (after (.pgCalibrate false 0 0) live).pwr.pmbFail = true ∧ (after (.pmbRetry true) silentS).pwr.pmbFail = false ∧
    counted silentS (after (.pmbRetry false) silentS) (R.PG_EVT_CNT 4) = true := by decide +kernel

/-- Monitor 1 watches VCORE, quantity 7, every millisecond. -/
def monS : State := coreS.wr (monCtl 1) (word (1 + 2 * 7 + 2 ^ 24))
def snapM (clr : Bool) : State := (State_at monS 1000032).setMon 1 (fun M => { M with snap := some (1000 * 1024#64, clr), live := { count := 4 } })
theorem test_monitors :
    monS.monEn 1 = true ∧ monS.since monS.mon[(1 : Fin 32)].lastAt (monS.monPeriod 1) = true ∧ monS.f (monCtl 1) 4 1 = 7 ∧
    (after (.monSample 1 0) monS).mon[(1 : Fin 32)].live.high = 780 ∧ live.monEn 1 = false ∧ openB live 0 R.MON_SNAP = true ∧
    openB live 0 R.MON_SNAP_CLR = true ∧ live.reaches (.hp 0) (live.partOf .mon 1) = true ∧
    (after (.monSnap (.hp 0) (oneBit 1)) live).mon[(1 : Fin 32)].snap = some (live.stamp32, false) ∧
    (after (.monSnapClr (.hp 0) (oneBit 1)) live).mon[(1 : Fin 32)].snap = some (live.stamp32, true) := by decide +kernel
theorem test_monitor_snapshots :
    (snapM true).passed (1000 * 1024#64) = true ∧ (snapM true).mon[(1 : Fin 32)].held = [] ∧
    (after (.monSnapshotDone 1) (snapM true)).mon[(1 : Fin 32)].live.count = 0 ∧ (after (.monSnapshotDone 1) (snapM false)).mon[(1 : Fin 32)].live.count = 4 ∧
    (State_at (snapM true) 10).passed (1000 * 1024#64) = false := by decide +kernel

/-! ## The whole machine -/

theorem test_goes_on : goes .thermalEnd live = true ∧ (Instr.thermalEnd).wf = true := by decide +kernel
theorem test_step :
    (step { live with pending := [.thermalEnd] }) = exec .thermalEnd live ∧ step State.reset = .next State.reset := ⟨rfl, rfl⟩
theorem test_idle_edge :
    (match step live with | .next t => t.tb.count.toNat | _ => 0) = 1000001 ∧ (live.tb.count + 1#54).toNat % 2 ^ 50 ≠ 0 ∧
    (List.finRange 8).all (fun g => live.sg[g].jq.isEmpty) = true ∧
    (match step (live.setTb (fun T => { T with count := BitVec.allOnes 54 })) with | .next t => t.tb.count.toNat | _ => 1) = 0 := by decide +kernel
theorem test_counter_read :
    openB live 0 R.TB_COUNT_LO = true ∧ openB (after (.latchingRead (.hp 0) .bar0 R.TB_COUNT_LO 1 15 0) live) 0 R.TB_COUNT_HI = true := by decide +kernel
theorem test_invariants_hold_at_reset : State.reset.modesLegal ∧ State.reset.memCanonical := by unfold modesLegal memCanonical; decide +kernel
theorem test_invariants_hold_later : live.modesLegal ∧ memS.memCanonical := by unfold modesLegal memCanonical; decide +kernel

end Sys2Proof.Tests
end

section
/-! SUPPORT. Reads of registers that nothing turns away (R430 to R439), and the counter registers (R55). -/

namespace Sys2Proof.Machine

open Bits Claims

/-- A stamp is its count with ten fraction bits of zero below it (R55). -/
theorem count_stamp_eq_shiftLeft (c : Count) : Count.stamp c = c.setWidth 64 <<< 10 := by
  unfold Count.stamp
  apply BitVec.eq_of_toNat_eq
  simp [Nat.shiftLeft_eq]

namespace State

/-! ## What an answer and a latch leave as it is -/

@[simp] theorem open_heard {s : State} {m : Master} {a : Nat} : Open (heard s) m a ↔ Open s m a := Iff.rfl

@[simp] theorem open_answer {s : State} {k m : Master} {x : Answer} {a : Nat} : Open (s.answer k x) m a ↔ Open s m a := Iff.rfl

@[simp] theorem open_latchWord {s : State} {k m : Master} {b a : Nat} : Open (s.latchWord k b) m a ↔ Open s m a := Iff.rfl

@[simp] theorem latch_heard (s : State) : (heard s).latch = s.latch := rfl

@[simp] theorem latch_answer (s : State) (m : Master) (x : Answer) : (s.answer m x).latch = s.latch := rfl

@[simp] theorem now_heard (s : State) : (heard s).now = s.now := rfl

/-! ## Reads of registers -/

/-- A listed register is not reserved for a master to which it is open (R433, R477). -/
theorem reserved_of_open {s : State} {c : Part} (ho : Open s c.m c.off) (hbar : c.bar = .bar0) (hoff : c.off < 0x2000000)
    (hf : (RegTable.find (plainOff c.off)).isSome = true) : s.reserved c = false := by
  obtain ⟨-, hrec, -⟩ := ho
  have hlisted : (RegTable.find (plainOff c.off)).isNone = false := by rwa [Option.isNone_eq_false_iff]
  unfold reserved
  simp only [hbar, if_pos hoff, hlisted, Bool.false_or]
  by_cases h14 : s.phase = 14
  · rcases hrec h14 with h | h | h <;> simp [h]
  · simp [h14]

/-- Below the memory windows, the array behind a part is the one behind a data port. -/
theorem behind_register (s : State) {c : Part} (hbar : c.bar = .bar0) (hoff : c.off < 0x2000000) : s.behind c = s.portArr c := by
  unfold behind
  rw [hbar]
  cases c.m with
  | hp p => simp only [if_neg (by omega : ¬ 0x3000000 ≤ c.off), if_neg (by omega : ¬ 0x2000000 ≤ c.off)]
  | sc => rfl

/-- A part at an open register that is no data port is done at once (R432, R437, R438). -/
theorem partDo_of_open {s : State} {c : Part} (ecc : Nat) (ho : Open s c.m c.off) (hbar : c.bar = .bar0) (hoff : c.off < 0x2000000)
    (hn : s.portArr c = none) : s.partDo c ecc = s.partReg c ecc := by
  obtain ⟨-, -, hisland, hw, -⟩ := ho
  have hperf : s.perform c ecc = (true, s.partReg c ecc) := by
    unfold perform
    rw [behind_register s hbar hoff, hn, hbar]
    dsimp only
    rw [if_neg]
    · cases c.m with
      | hp p => simp [partHost, hbar, show ¬ 0x3000000 ≤ c.off by omega, show ¬ 0x2000000 ≤ c.off by omega]
      | sc => simp
    · cases h : islandOf .bar0 c.off with
      | none => simp
      | some i => simpa using hisland i h
  simp [partDo, hw, hperf]

/-- A read of registers that the whole access has no reason to turn away is the reads of its parts, lowest first (R430, R432). -/
theorem bus_read_of_open {s : State} {m : Master} {a n : Nat} (ecc : Nat) (ho : Open s m a) (hend : a + 4 * n ≤ 0x2000000)
    (hc : accessCause .bar0 a n 15 = none)
    (hr : ∀ c ∈ partsOf m .bar0 a (List.replicate n 0#32) true, s.reserved c = false) :
    s.bus m .bar0 a (List.replicate n 0#32) true 15 ecc false =
      forAll (partsOf m .bar0 a (List.replicate n 0#32) true) (heard s) (fun c s => s.partDo c ecc) := by
  have hfind : (partsOf m .bar0 a (List.replicate n 0#32) true).find? (fun c => (heard s).reserved c) = none := by
    rw [List.find?_eq_none]
    intro c hcm
    rw [show (heard s).reserved c = s.reserved c from rfl, hr c hcm]
    decide
  have hacc : (heard s).access m .bar0 a (List.replicate n 0#32) true 15 ecc =
      forAll (partsOf m .bar0 a (List.replicate n 0#32) true) (heard s) (fun c s => s.partDo c ecc) := by
    simp [access, hc, hfind]
  obtain ⟨-, -, -, -, hport⟩ := ho
  cases m with
  | sc => exact hacc
  | hp p =>
    have hopen : ({ s with resp := [] } : State).portOpen p .bar0 = true := hport p rfl
    have hsize : ¬ 0x4000000 < a + 4 * n := by omega
    unfold bus
    dsimp only
    rw [if_neg (by decide), if_neg (by simp [hopen, barSize, hsize]), if_neg (by simp)]
    exact hacc

/-- A part of a read of words of BAR0 by a master: the word at `a`. -/
def wordRead (m : Master) (a : Nat) (later : Bool) : Part := ⟨m, .bar0, a, 0#32, true, later⟩

theorem partsOf_read_one (m : Master) (a : Nat) : partsOf m .bar0 a (List.replicate 1 0#32) true = [wordRead m a false] := rfl

theorem partsOf_read_two (m : Master) (a : Nat) :
    partsOf m .bar0 a (List.replicate 2 0#32) true = [wordRead m a false, wordRead m (a + 4) true] := rfl

/-- An aligned two-word access to the register space has no cause of a bus error (R430, R433). -/
theorem accessCause_pair {a : Nat} (ha : a % 8 = 0) (hb : a < 0x2000000) : accessCause .bar0 a 2 15 = none := by
  simp [accessCause, isWindow, ha, show a % 4 = 0 by omega, show ¬ 0x2000000 ≤ a by omega]

/-- LATCHING_READ of one open register is the read of its one part (R430). -/
theorem exec_latchingRead_one {s : State} {m : Master} {a : Nat} (ecc : Fin 3) (ho : Open s m a) (ha : a % 4 = 0)
    (hb : a < 0x2000000) (hf : (RegTable.find (plainOff a)).isSome = true) :
    exec (.latchingRead m .bar0 a 1 15 ecc) s = .next ((heard s).partDo (wordRead m a false) ecc) := by
  refine congrArg Host.Outcome.next (bus_read_of_open (n := 1) ecc ho (by omega) (accessCause_word ha hb) ?_)
  rw [partsOf_read_one, List.forall_mem_singleton]
  exact reserved_of_open ho rfl hb hf

/-- LATCHING_READ of two open registers, aligned as a pair, is the reads of its two parts, the lower one first (R430). -/
theorem exec_latchingRead_two {s : State} {m : Master} {a : Nat} (ecc : Fin 3) (ho : Open s m a) (ho' : Open s m (a + 4))
    (ha : a % 8 = 0) (hb : a < 0x2000000) (hf : (RegTable.find (plainOff a)).isSome = true)
    (hf' : (RegTable.find (plainOff (a + 4))).isSome = true) :
    exec (.latchingRead m .bar0 a 2 15 ecc) s =
      .next (((heard s).partDo (wordRead m a false) ecc).partDo (wordRead m (a + 4) true) ecc) := by
  refine congrArg Host.Outcome.next (bus_read_of_open (n := 2) ecc ho (by omega) (accessCause_pair ha hb) ?_)
  rw [partsOf_read_two, List.forall_mem_cons, List.forall_mem_singleton]
  exact ⟨reserved_of_open ho rfl hb hf, reserved_of_open ho' rfl (show a + 4 < _ by omega) hf'⟩

/-! ## The counter registers (R55, R439) -/

/-- The row of a counter register at `a` (R81): a read-only word that every master may read. -/
def countRow (a : Nat) : RegRow := ⟨a, [], .dev, 1, true, .none, [⟨31, 0, .RO, false, .num 0⟩]⟩

theorem find_countLo : RegTable.find (plainOff R.TB_COUNT_LO) = some (countRow R.TB_COUNT_LO, []) := by decide

theorem find_countHi : RegTable.find (plainOff R.TB_COUNT_HI) = some (countRow R.TB_COUNT_HI, []) := by decide

/-- The upper half of the counter is open to whom the lower half is: both lie in the timebase's block (R437, R454). -/
theorem open_countHi {s : State} {m : Master} (h : Open s m R.TB_COUNT_LO) : Open s m R.TB_COUNT_HI := by
  obtain ⟨hfault, hrec, hisland, hw, hport⟩ := h
  exact ⟨hfault, fun h14 => (hrec h14).imp_right (fun h => absurd h (by decide)), hisland, hw, hport⟩

theorem reachMask_countRow (s : State) (m : Master) (a : Nat) : s.reachMask m (countRow a) [] = 0xFFFFFFFF#32 := by
  simp [reachMask, countRow]

theorem rowNow_countRow (s : State) {a : Nat} (ha : a < 0x80000) : s.rowNow (countRow a) [] = countRow a := by
  have hdesc : (countRow a).descWord = none := if_neg (by simp only [countRow]; omega)
  simp [rowNow, RegRow.layout, hdesc]

/-- A counter register is neither of the data ports. -/
theorem countRow_base {a : Nat} (ha : a < 0x80000) :
    (countRow a).base ≠ R.ME_SPD 0 0 ∧ (countRow a).base ≠ R.SG_LS_DATA 0 := by
  simp only [countRow, R.ME_SPD, R.SG_LS_DATA]
  omega

/-- No array is behind a counter register. -/
theorem portArr_countRow (s : State) {c : Part} {a : Nat} (hf : RegTable.find (plainOff c.off) = some (countRow a, []))
    (ha : a < 0x80000) : s.portArr c = none := by
  obtain ⟨hspd, hls⟩ := countRow_base ha
  simp [portArr, hf, hspd, hls]

/-- A read of a counter register hides no bit: an upper half shows what the reader has latched, any other shows its live word, and a
lower half latches besides (R439). -/
theorem regRead_countRow (s : State) (m : Master) {a : Nat} (later : Bool) (ecc : Nat) (hplain : plainOff a = a)
    (hf : RegTable.find (plainOff a) = some (countRow a, [])) (ha : a < 0x80000) :
    s.regRead (wordRead m a later) ecc =
      if isLatchHi (countRow a) then (Tab.get (fun _ => 0#32) s.latch (latchKey m a), s)
      else if isLatchLo (countRow a) then
        (s.liveWord m a, forAll (latchedBy (countRow a)) s (fun d s => s.latchWord m (a + d).toNat))
      else (s.liveWord m a, s) := by
  obtain ⟨hspd, hls⟩ := countRow_base ha
  have hbits : (FieldSpec.bits ⟨31, 0, .RO, false, .num 0⟩) = 0xFFFFFFFF#32 := by decide
  have hall (w : Word) : w &&& 0xFFFFFFFF#32 = w := BitVec.and_allOnes
  have hfields : (countRow a).fields = [⟨31, 0, .RO, false, .num 0⟩] := rfl
  rw [hplain] at hf
  unfold regRead
  simp [wordRead, hplain, hf, rowNow_countRow s ha, reachMask_countRow, hspd, hls, hfields, hbits, hall]

/-- A read of TB_COUNT_LO shows the lower half of the present edge's stamp and latches the upper half for the reader (R55). -/
theorem regRead_countLo (s : State) (m : Master) (later : Bool) (ecc : Nat) :
    s.regRead (wordRead m R.TB_COUNT_LO later) ecc = (lo32 s.now, s.latchWord m R.TB_COUNT_HI) := by
  have hlo : isLatchLo (countRow R.TB_COUNT_LO) = true := by decide
  have hhi : isLatchHi (countRow R.TB_COUNT_LO) = false := by decide
  rw [regRead_countRow s m later ecc rfl find_countLo (by decide), hlo, hhi]
  rfl

/-- A read of TB_COUNT_HI shows what the reader's last read of TB_COUNT_LO latched (R55, R439). -/
theorem regRead_countHi (s : State) (m : Master) (later : Bool) (ecc : Nat) :
    s.regRead (wordRead m R.TB_COUNT_HI later) ecc = (Tab.get (fun _ => 0#32) s.latch (latchKey m R.TB_COUNT_HI), s) := by
  have hhi : isLatchHi (countRow R.TB_COUNT_HI) = true := by decide
  rw [regRead_countRow s m later ecc rfl find_countHi (by decide), hhi]
  rfl

/-- What a read of TB_COUNT_LO latches is the upper half of the same edge's stamp. -/
theorem latch_countLo (s : State) (m : Master) :
    Tab.get (fun _ => 0#32) (s.latchWord m R.TB_COUNT_HI).latch (latchKey m R.TB_COUNT_HI) = hi32 s.now :=
  Tab.get_set_same ..

/-- The read of an open TB_COUNT_LO answers the lower half and latches the upper one (R55). -/
theorem partDo_countLo {s : State} {m : Master} (ecc : Nat) (later : Bool) (ho : Open s m R.TB_COUNT_LO) :
    s.partDo (wordRead m R.TB_COUNT_LO later) ecc = (s.latchWord m R.TB_COUNT_HI).answer m (.data (lo32 s.now)) := by
  rw [partDo_of_open ecc ho rfl (show R.TB_COUNT_LO < _ by decide) (portArr_countRow s find_countLo (by decide))]
  rw [partReg, regRead_countLo]
  rfl

/-- The read of an open TB_COUNT_HI answers what its master has latched (R439). -/
theorem partDo_countHi {s : State} {m : Master} (ecc : Nat) (later : Bool) (ho : Open s m R.TB_COUNT_HI) :
    s.partDo (wordRead m R.TB_COUNT_HI later) ecc =
      s.answer m (.data (Tab.get (fun _ => 0#32) s.latch (latchKey m R.TB_COUNT_HI))) := by
  rw [partDo_of_open ecc ho rfl (show R.TB_COUNT_HI < _ by decide) (portArr_countRow s find_countHi (by decide))]
  rw [partReg, regRead_countHi]
  rfl

/-! ## Whole reads of the counter (R55) -/

/-- A one-word read of the lower half answers it and latches the upper half. -/
theorem exec_read_countLo {s : State} {m : Master} (ho : Open s m R.TB_COUNT_LO) :
    exec (.latchingRead m .bar0 R.TB_COUNT_LO 1 15 0) s =
      .next (((heard s).latchWord m R.TB_COUNT_HI).answer m (.data (lo32 s.now))) := by
  rw [exec_latchingRead_one 0 ho (by decide) (by decide) (by rw [find_countLo]; rfl),
    partDo_countLo _ _ (open_heard.mpr ho), now_heard]

/-- A one-word read of the upper half answers what its master has latched. -/
theorem exec_read_countHi {s : State} {m : Master} (ho : Open s m R.TB_COUNT_HI) :
    exec (.latchingRead m .bar0 R.TB_COUNT_HI 1 15 0) s =
      .next ((heard s).answer m (.data (Tab.get (fun _ => 0#32) s.latch (latchKey m R.TB_COUNT_HI)))) := by
  rw [exec_latchingRead_one 0 ho (by decide) (by decide) (by rw [find_countHi]; rfl),
    partDo_countHi _ _ (open_heard.mpr ho), latch_heard]

/-- A two-word read answers both halves of one edge's stamp: its second part shows what its first has latched. -/
theorem exec_read_count64 {s : State} {m : Master} (ho : Open s m R.TB_COUNT_LO) :
    exec (.latchingRead m .bar0 R.TB_COUNT_LO 2 15 0) s =
      .next ((((heard s).latchWord m R.TB_COUNT_HI).answer m (.data (lo32 s.now))).answer m (.data (hi32 s.now))) := by
  have hhi : R.TB_COUNT_LO + 4 = R.TB_COUNT_HI := rfl
  have ho' := open_countHi ho
  rw [exec_latchingRead_two 0 ho ho' (by decide) (by decide) (by rw [find_countLo]; rfl) (by rw [hhi, find_countHi]; rfl), hhi,
    partDo_countLo _ _ (open_heard.mpr ho), partDo_countHi _ _ (by simpa using ho'), latch_answer, latch_countLo, now_heard]

end State
end Sys2Proof.Machine

namespace Sys2Proof.Claims

open Machine Bits State

/-- Settles O53: the counter stands above ten bits of zero, and the half that a read of TB_COUNT_LO latches is the one that a read of
TB_COUNT_HI shows, in the same access or in a later one. -/
theorem counterReadsAreConsistent : Obligations.CounterReadsAreConsistent := by
  unfold Obligations.CounterReadsAreConsistent
  intro s m ho
  refine ⟨fun k hk => ?_, ?_, ⟨_, exec_read_count64 ho, rfl⟩, _, exec_read_countLo ho, rfl, fun u hu hou => ?_⟩
  · rw [now, count_stamp_eq_shiftLeft]
    simp [hk]
  · rw [now, count_stamp_eq_shiftLeft]
    bv_omega
  · refine ⟨_, exec_read_countHi hou, ?_⟩
    rw [hu, latch_answer, latch_countLo, now_heard]
    rfl

end Sys2Proof.Claims
end

section
/-! SUPPORT. The residue check of an engine's result and its retry (R243, R244): two runs of one instruction of which the second has
counted a mismatch, and the fault that a second mismatch ends in. -/

namespace Sys2Proof.Machine.State

open Bits Claims

/-! ## Operations on the state behind the registers -/

/-- An operation that neither reads nor writes the register file. -/
def RegBlind (F : State → State) : Prop :=
  ∀ (t : State) (r : List (Nat × Word)), F { t with regs := r } = { F t with regs := r }

theorem RegBlind.regs {F : State → State} (hF : RegBlind F) (t : State) : (F t).regs = t.regs := by
  have h := congrArg State.regs (hF t t.regs)
  exact h

theorem setGpr_withRegs (t : State) (r : List (Nat × Word)) (e : Fin 256) (n : Nat) (w : Word) :
    ({ t with regs := r } : State).setGpr e n w = { t.setGpr e n w with regs := r } := by
  unfold setGpr
  split <;> rfl

theorem sramDamage_regBlind (a : Nat) : RegBlind (fun t => t.sramDamage a) := by
  intro t r
  simp only [sramDamage, show ({ t with regs := r } : State).sramBadAt a = t.sramBadAt a from rfl]
  split <;> rfl

/-- An array's first corrected error of a second is due for a report (R326). -/
def ceDue (s : State) (e : Fin 256) (off : Nat) : Bool :=
  ((s.arrSt 1 e off).ceAt.map (fun c => s.since c 2000000000)).getD true

/-- A corrected error of a scratchpad: counted for its engine, and reported when a report is due (R326). -/
theorem sbCe_scratchpad (s : State) (e : Fin 256) (off : Nat) :
    s.sbCe 1 e off =
      if s.ceDue e off then
        ((s.bump (engReg R.ME_ECC_CNT (Fin.ofNat 256 e.val))).setArr 1 e (fun A => { A with ceAt := some s.tb.count }) off).event
          (s.arrPart 1 e) (R.SB_EVT_CNT (s.arrPart 1 e) 0) 0xE0 0 e none [(1, 1), (4, off / 8 * 8)]
      else s.bump (engReg R.ME_ECC_CNT (Fin.ofNat 256 e.val)) := rfl

/-- An uncorrectable word of a scratchpad is reported (R327). -/
theorem sbUe_scratchpad (s : State) (e : Fin 256) (off m : Nat) :
    s.sbUe 1 e off m =
      s.event (s.arrPart 1 e) (R.SB_EVT_CNT (s.arrPart 1 e) 1) 0xE0 1 e none
        [(1, 1), (4, off / 8 * 8), (1, (Config.masterCode m).toNat)] := rfl

/-! ## A run and its retry -/

/-- The registers that are no engine's ME_RES_CNT: those with another place in an engine's block, and those above the blocks. -/
theorem ne_resCnt (e : Fin 256) {a : Nat} (h : a % 64 ≠ 0x34 ∨ 0x414000 ≤ a) : a ≠ engReg R.ME_RES_CNT e := by
  unfold engReg R.ME_RES_CNT
  omega

/-- `u` is `t` with one residue mismatch more counted for engine `e`: nothing but ME_RES_CNT tells them apart (R244). -/
def Retried (e : Fin 256) (t u : State) : Prop :=
  ∃ r, u = { t with regs := r } ∧ ∀ a, u.rd a = if a = engReg R.ME_RES_CNT e then sat32 (t.rd a) 1 else t.rd a

namespace Retried

variable {e : Fin 256} {t u : State}

theorem of_bump (e : Fin 256) (t : State) : Retried e t (t.bump (engReg R.ME_RES_CNT e)) := by
  refine ⟨_, rfl, fun a => ?_⟩
  split
  · next ha => rw [ha, rd_bump_same]
  · next ha => exact rd_bump_other t 1 ha

theorem rd_eq (h : Retried e t u) {a : Nat} (ha : a ≠ engReg R.ME_RES_CNT e) : u.rd a = t.rd a := by
  obtain ⟨_, -, hrd⟩ := h
  rw [hrd, if_neg ha]

theorem map {F : State → State} (h : Retried e t u) (hF : RegBlind F) : Retried e (F t) (F u) := by
  have hregs := hF.regs
  obtain ⟨r, rfl, hrd⟩ := h
  refine ⟨r, hF t r, fun a => ?_⟩
  rw [rd_congr (hregs _), rd_congr (hregs t)]
  exact hrd a

theorem wr (h : Retried e t u) {a : Nat} (w : Word) (ha : a ≠ engReg R.ME_RES_CNT e) : Retried e (t.wr a w) (u.wr a w) := by
  obtain ⟨r, rfl, hrd⟩ := h
  refine ⟨_, rfl, fun b => ?_⟩
  by_cases hb : b = a
  · rw [hb, rd_wr_same, rd_wr_same, if_neg ha]
  · rw [rd_wr_other _ _ hb, rd_wr_other _ _ hb]
    exact hrd b

theorem bump (h : Retried e t u) {a : Nat} (n : Nat) (ha : a ≠ engReg R.ME_RES_CNT e) : Retried e (t.bump a n) (u.bump a n) := by
  unfold State.bump
  rw [h.rd_eq ha]
  exact h.wr _ ha

theorem forAll {α : Type} {f : α → State → State} (hf : ∀ x t u, Retried e t u → Retried e (f x t) (f x u)) (l : List α)
    (h : Retried e t u) : Retried e (Bits.forAll l t f) (Bits.forAll l u f) := by
  induction l generalizing t u with
  | nil => exact h
  | cons x l ih => exact ih (hf x t u h)

theorem setEng (h : Retried e t u) (m : Fin 256) (f : EngSt → EngSt) : Retried e (t.setEng m f) (u.setEng m f) :=
  h.map (F := fun s => s.setEng m f) (fun _ _ => rfl)

theorem eng_eq (h : Retried e t u) : u.eng = t.eng := by
  obtain ⟨_, rfl, -⟩ := h
  rfl

theorem gpr_eq (h : Retried e t u) (m : Fin 256) (n : Nat) : u.gpr m n = t.gpr m n := by
  unfold gpr
  rw [h.eng_eq]

/-! ### Events and faults -/

theorem pushEv (h : Retried e t u) (p : Fin 4) (r : List Byte) : Retried e (t.pushEv p r) (u.pushEv p r) := by
  have hevt : u.evt = t.evt := by obtain ⟨_, rfl, -⟩ := h; rfl
  unfold State.pushEv evtUsed
  rw [hevt]
  split
  · exact h.map (F := fun s => s.setEvt p (fun x => { x with recs := x.recs ++ [r] })) (fun _ _ => rfl)
  · exact (h.map (F := fun s => s.setEvt p (fun x => { x with lost := x.lost + 1 })) (fun _ _ => rfl)).bump 1
      (ne_resCnt e (.inr (by unfold R.QM_EVT_LOST_CNT; omega)))

theorem event (h : Retried e t u) (p : Fin 4) {c : Nat} (b k i : Nat) (st : Option Stamp) (l : List (Nat × Nat))
    (hc : c ≠ engReg R.ME_RES_CNT e) : Retried e (t.event p c b k i st l) (u.event p c b k i st l) := by
  have hnow : u.now = t.now := by obtain ⟨_, rfl, -⟩ := h; rfl
  unfold State.event
  rw [hnow]
  exact (h.bump 1 hc).pushEv p _

theorem engStop (h : Retried e t u) (m : Fin 256) (cause : Nat) : Retried e (t.engStop m cause) (u.engStop m cause) := by
  have hwr := (h.wr (a := engReg R.ME_PC m) (word t.eng[m].pc) (ne_resCnt e (.inl (by unfold engReg R.ME_PC; omega)))).wr
    (a := engReg R.ME_CAUSE m) (word cause) (ne_resCnt e (.inl (by unfold engReg R.ME_CAUSE; omega)))
  have hnote := hwr.map (F := fun s => (s.setEng m (fun E => { E with st := 5 })).faultNote 0x30 m) (fun _ _ => rfl)
  have hev := hnote.event t.pmap.me[m] (c := R.ME_EVT_CNT (m.val / 64) (m.val % 64) 0) 0x40 0 m (some t.eng[m].slot[0].stamp)
    [(1, cause), (4, t.eng[m].pc)] (ne_resCnt e (.inr (by unfold R.ME_EVT_CNT; omega)))
  obtain ⟨r, rfl, -⟩ := h
  simpa [State.engStop, meEvent] using hev

theorem gangSize_eq (h : Retried e t u) (m : Fin 256) : u.gangSize m = t.gangSize m := by
  unfold gangSize gangLog State.f
  rw [h.rd_eq (ne_resCnt e (.inl (by unfold engReg R.ME_STATUS; omega)))]

theorem gangOf_eq (h : Retried e t u) (m : Fin 256) : u.gangOf m = t.gangOf m := by
  unfold gangOf gangFirst
  rw [h.gangSize_eq]

/-- The members of a gang that a fault of another one stops. -/
theorem stopMember (h : Retried e t u) (m : Fin 256) :
    Retried e (if t.eng[m].st = 2 ∨ t.eng[m].st = 3 then t.engStop m 6 else t)
      (if u.eng[m].st = 2 ∨ u.eng[m].st = 3 then u.engStop m 6 else u) := by
  rw [h.eng_eq]
  split
  · exact h.engStop m 6
  · exact h

theorem engFault (h : Retried e t u) (m : Fin 256) (cause : Nat) : Retried e (t.engFault m cause) (u.engFault m cause) := by
  have hstop := h.engStop m cause
  unfold State.engFault
  dsimp only
  rw [hstop.gangOf_eq]
  exact forAll (fun m _ _ h => h.stopMember m) _ hstop

/-! ### The end of an instruction, and its access to the scratchpad -/

theorem retire (h : Retried e t u) (k next : Nat) : Retried e (t.retire e k next) (u.retire e k next) := by
  have hlo : engReg R.ME_STEP_LO e ≠ engReg R.ME_RES_CNT e := ne_resCnt e (.inl (by unfold engReg R.ME_STEP_LO; omega))
  have hhi : engReg R.ME_STEP_HI e ≠ engReg R.ME_RES_CNT e := ne_resCnt e (.inl (by unfold engReg R.ME_STEP_HI; omega))
  have hpc : engReg R.ME_PC e ≠ engReg R.ME_RES_CNT e := ne_resCnt e (.inl (by unfold engReg R.ME_PC; omega))
  have hsteps : u.rd64 (engReg R.ME_STEP_LO e) (engReg R.ME_STEP_HI e) = t.rd64 (engReg R.ME_STEP_LO e) (engReg R.ME_STEP_HI e) := by
    unfold rd64
    rw [h.rd_eq hlo, h.rd_eq hhi]
  simp only [State.retire, wr64, hsteps, wr_eng, h.eng_eq]
  exact (((h.wr _ hlo).wr _ hhi).wr _ hpc).setEng e _

theorem codeSize_eq (h : Retried e t u) (m : Fin 256) : u.codeSize m = t.codeSize m := by
  unfold codeSize State.f
  rw [h.rd_eq (ne_resCnt e (.inl (by unfold engReg R.ME_CODE; omega)))]

theorem inData_eq (h : Retried e t u) (m : Fin 256) (a n : Nat) : u.inData m a n = t.inData m a n := by
  unfold inData
  rw [h.codeSize_eq, h.gangSize_eq]

theorem sbCe (h : Retried e t u) (off : Nat) : Retried e (t.sbCe 1 e off) (u.sbCe 1 e off) := by
  have hcount := h.bump (a := engReg R.ME_ECC_CNT (Fin.ofNat 256 e.val)) 1 (ne_resCnt e (.inl (by unfold engReg R.ME_ECC_CNT; omega)))
  have hev := (hcount.map (F := fun s => s.setArr 1 e (fun A => { A with ceAt := some s.tb.count }) off) (fun _ _ => rfl)).event
    (t.arrPart 1 e) (c := R.SB_EVT_CNT (t.arrPart 1 e) 0) 0xE0 0 e none [(1, 1), (4, off / 8 * 8)]
    (ne_resCnt e (.inr (by unfold R.SB_EVT_CNT; omega)))
  have hdue : u.ceDue e off = t.ceDue e off := by obtain ⟨_, rfl, -⟩ := h; rfl
  have hpart : u.arrPart 1 e = t.arrPart 1 e := by obtain ⟨_, rfl, -⟩ := h; rfl
  rw [sbCe_scratchpad, sbCe_scratchpad, hdue, hpart]
  split
  · exact hev
  · exact hcount

theorem sbUe (h : Retried e t u) (off m : Nat) : Retried e (t.sbUe 1 e off m) (u.sbUe 1 e off m) := by
  have hpart : u.arrPart 1 e = t.arrPart 1 e := by obtain ⟨_, rfl, -⟩ := h; rfl
  rw [sbUe_scratchpad, sbUe_scratchpad, hpart]
  exact h.event _ _ _ _ _ _ (ne_resCnt e (.inr (by unfold R.SB_EVT_CNT; omega)))

theorem sramCheck (h : Retried e t u) (off ecc m : Nat) :
    (u.sramCheck 1 e off ecc m).1 = (t.sramCheck 1 e off ecc m).1 ∧
      Retried e (t.sramCheck 1 e off ecc m).2 (u.sramCheck 1 e off ecc m).2 := by
  have hbad : u.sramBadAt (sramAt 1 e off) = t.sramBadAt (sramAt 1 e off) := by obtain ⟨_, rfl, -⟩ := h; rfl
  unfold State.sramCheck
  simp only [hbad]
  split
  · exact ⟨rfl, (h.map (sramDamage_regBlind _)).sbUe off m⟩
  · split
    · exact ⟨rfl, h.sbCe off⟩
    · exact ⟨rfl, h⟩

end Retried

/-! ## Faults of engines -/

section EngStop

variable (s : State) (m : Fin 256) (cause : Nat)

@[simp] theorem engStop_sram : (s.engStop m cause).sram = s.sram := by simp [engStop, meEvent]

@[simp] theorem engStop_mem : (s.engStop m cause).mem = s.mem := by simp [engStop, meEvent]

@[simp] theorem engStop_port : (s.engStop m cause).port = s.port := by simp [engStop, meEvent]

@[simp] theorem engStop_eng : (s.engStop m cause).eng = s.eng.set m { s.eng[m] with st := 5 } := by simp [engStop, meEvent, setEng]

theorem engStop_eng_other {k : Fin 256} (h : k ≠ m) : (s.engStop m cause).eng[k] = s.eng[k] := by
  rw [engStop_eng]
  exact Vector.getElem_set_ne _ _ (fun q => h (Fin.ext q.symm))

/-- Below the event counters, a stop writes no register but its engine's ME_PC and ME_CAUSE (R246). -/
theorem engStop_rd {a : Nat} (ha : a < 0x414000) :
    (s.engStop m cause).rd a = ((s.wr (engReg R.ME_PC m) (word s.eng[m].pc)).wr (engReg R.ME_CAUSE m) (word cause)).rd a := by
  unfold engStop meEvent
  exact event_rd _ _ _ _ _ _ _ _ (by unfold R.QM_EVT_LOST_CNT; omega) (by unfold R.ME_EVT_CNT; omega)

theorem engStop_rd_cause : (s.engStop m cause).rd (engReg R.ME_CAUSE m) = word cause := by
  rw [engStop_rd s m cause (by unfold engReg R.ME_CAUSE; omega), rd_wr_same]

theorem engStop_rd_pc : (s.engStop m cause).rd (engReg R.ME_PC m) = word s.eng[m].pc := by
  rw [engStop_rd s m cause (by unfold engReg R.ME_PC; omega), rd_wr_other _ _ (by unfold engReg R.ME_PC R.ME_CAUSE; omega),
    rd_wr_same]

end EngStop

/-- Of the memories and the ports nothing differs, and of the engines only their modes. -/
structure OnlyModes (s t : State) : Prop where
  sram : t.sram = s.sram
  mem : t.mem = s.mem
  port : t.port = s.port
  eng : ∀ k : Fin 256, t.eng[k] = { s.eng[k] with st := t.eng[k].st }

theorem OnlyModes.engStop {s t : State} (h : OnlyModes s t) (m : Fin 256) (cause : Nat) : OnlyModes s (t.engStop m cause) := by
  obtain ⟨hsram, hmem, hport, heng⟩ := h
  refine ⟨by simpa using hsram, by simpa using hmem, by simpa using hport, fun k => ?_⟩
  by_cases hk : k = m
  · subst hk
    have hk := heng k
    simp only [engStop_eng]
    rw [Fin.getElem_fin, Vector.getElem_set_self, hk]
  · rw [engStop_eng_other t m cause hk]
    exact heng k

theorem faulted_engStop (s : State) (e : Fin 256) (cause : Nat) : Faulted s (s.engStop e cause) e cause := by
  refine ⟨?_, engStop_rd_cause s e cause, engStop_rd_pc s e cause⟩
  rw [engStop_eng, Fin.getElem_fin, Vector.getElem_set_self]

/-- An engine that has faulted keeps its record while another one stops (R246). -/
theorem faulted_engStop_other {s t : State} {e m : Fin 256} {cause : Nat} (h : Faulted s t e cause) (hm : m ≠ e) (c : Nat) :
    Faulted s (t.engStop m c) e cause := by
  obtain ⟨heng, hcause, hpc⟩ := h
  have hv : m.val ≠ e.val := fun q => hm (Fin.ext q)
  refine ⟨?_, ?_, ?_⟩
  · rw [engStop_eng_other t m c hm.symm]; exact heng
  · rw [engStop_rd t m c (by unfold engReg R.ME_CAUSE; omega), rd_wr_other _ _ (by unfold engReg R.ME_CAUSE; omega),
      rd_wr_other _ _ (by unfold engReg R.ME_CAUSE R.ME_PC; omega), hcause]
  · rw [engStop_rd t m c (by unfold engReg R.ME_PC; omega), rd_wr_other _ _ (by unfold engReg R.ME_CAUSE R.ME_PC; omega),
      rd_wr_other _ _ (by unfold engReg R.ME_PC; omega), hpc]

/-- The members of a gang that a fault stops are other engines than the one that faults. -/
theorem faulted_engFault (s : State) (e : Fin 256) (cause : Nat) : Faulted s (s.engFault e cause) e cause := by
  refine forAll_keeps (fun t => Faulted s t e cause) _ _ (fun m hm t ht => ?_) _ (faulted_engStop s e cause)
  have hne : m ≠ e := by simpa using (List.mem_filter.mp hm).2
  split
  · exact faulted_engStop_other ht hne 6
  · exact ht

theorem OnlyModes.engFault {s t : State} (h : OnlyModes s t) (e : Fin 256) (cause : Nat) : OnlyModes s (t.engFault e cause) := by
  refine forAll_keeps (OnlyModes s) _ _ (fun m _ u hu => ?_) _ (h.engStop e cause)
  split
  · exact hu.engStop m 6
  · exact hu

theorem Counted.onlyModes {s t : State} {l : List Nat} (h : Counted s t l) : OnlyModes s t := by
  rw [h.eq]
  exact ⟨rfl, rfl, rfl, fun _ => rfl⟩

theorem Counted.eng {s t : State} {l : List Nat} (h : Counted s t l) : t.eng = s.eng := by
  rw [h.eq]

/-! ## A checked instruction up to its own effect -/

/-- The state that the fetch of an engine's instruction leaves; `ecc` is what its read meets (R245). -/
def fetched (s : State) (e : Fin 256) (ecc : Nat) : State := (s.sramCheck 1 e s.eng[e].pc ecc 0).2

/-- An instruction that is fetched without an error that stops it and is checked by residue: with no mismatch its own effect follows,
with one it follows once ME_RES_CNT has counted it, and a second one is a fault (R244). -/
theorem engRun_checked {s : State} {e : Fin 256} {op : Nat} {h : Haz} (hf : Fetches s e op) (hh : h.fetch.val ≠ 2) (r : Fin 3)
    (run : EngWord → State → State) :
    s.engRun e op true { h with res := r } run =
      if r = 2 then (s.fetched e h.fetch).engFault e 4
      else run (s.engWord e) (if r = 1 then (s.fetched e h.fetch).bump (engReg R.ME_RES_CNT e) else s.fetched e h.fetch) := by
  obtain ⟨hrun, hpc, hop, hlegal, hawake, hmarch, hgood⟩ := hf
  obtain ⟨hbad, -⟩ := check_clean e (Counted.refl s (engCounts s e)) s.eng[e].pc h.fetch 0 hh hgood
  unfold engRun fetched
  simp only [hrun, hpc, hop, hlegal, hawake, noMarch_stalls hmarch, noMarch_touch hmarch, hbad, ne_eq, not_true_eq_false,
    Bool.not_true, Bool.false_eq_true, or_self, if_false, true_and]

section

variable {s : State} {e : Fin 256} {op : Nat} {h : Haz} (hf : Fetches s e op) (hh : h.fetch.val ≠ 2) (run : EngWord → State → State)

include hf hh

theorem engRun_no_mismatch : s.engRun e op true { h with res := 0 } run = run (s.engWord e) (s.fetched e h.fetch) := by
  rw [engRun_checked hf hh, if_neg (by decide), if_neg (by decide)]

theorem engRun_one_mismatch :
    s.engRun e op true { h with res := 1 } run = run (s.engWord e) ((s.fetched e h.fetch).bump (engReg R.ME_RES_CNT e)) := by
  rw [engRun_checked hf hh, if_neg (by decide), if_pos rfl]

theorem engRun_two_mismatches : s.engRun e op true { h with res := 2 } run = (s.fetched e h.fetch).engFault e 4 := by
  rw [engRun_checked hf hh, if_pos rfl]

end

theorem counted_fetched {s : State} {e : Fin 256} {op : Nat} (hf : Fetches s e op) {ecc : Nat} (hecc : ecc ≠ 2) :
    Counted s (s.fetched e ecc) (engCounts s e) := by
  obtain ⟨-, -, -, -, -, -, hgood⟩ := hf
  exact (check_clean e (Counted.refl s (engCounts s e)) _ ecc 0 hecc hgood).2

/-- A read that meets no error leaves everything as it is. -/
theorem fetched_good {s : State} {e : Fin 256} {op : Nat} (hf : Fetches s e op) : s.fetched e 0 = s := by
  obtain ⟨-, -, -, -, -, -, hgood⟩ := hf
  simp only [fetched, sramCheck, hgood]
  rfl

/-- A counted mismatch is nothing that a fetch looks at. -/
theorem fetches_bump_resCnt {s : State} {e : Fin 256} {op : Nat} (hf : Fetches s e op) :
    Fetches (s.bump (engReg R.ME_RES_CNT e)) e op := by
  have h := Retried.of_bump e s
  obtain ⟨hrun, hpc, hop, hlegal, hrest⟩ := hf
  refine ⟨hrun, ?_, hop, ?_, hrest⟩
  · unfold pcOk
    rw [h.codeSize_eq]
    exact hpc
  · rw [h.gangSize_eq]
    exact hlegal

/-! ## What the effect of a checked instruction may read -/

/-- What a checked instruction may look at besides its engine stands still: a WAIT has no edges, changes of EN or extractors to take
symbols from, and no march test holds the word that a load or store reaches. -/
def StandsStill (s : State) (e : Fin 256) (op : Nat) : Prop :=
  (op = 0x39 → Quiet s ∧ s.boundXts e = []) ∧ ∀ y ∈ memoryRows, y.2.1 = op → NoMarchAt s e (effAddr s e)

/-- A checked instruction: whatever its residue, it is its own effect behind the common part of R243 to R245, and the effect does not
look at ME_RES_CNT. -/
def RetrySafe (c : Fin 256 → Haz → Instr) (op : Nat) : Prop :=
  ∀ (s : State) (e : Fin 256) (h : Haz), ∃ run : EngWord → State → State,
    (∀ r, exec (c e { h with res := r }) s = .next (s.engRun e op true { h with res := r } run)) ∧
    (StandsStill s e op → ∀ t, Counted s t (engCounts s e) →
      Retried e (run (s.engWord e) t) (run (s.engWord e) (t.bump (engReg R.ME_RES_CNT e))))

/-- An instruction whose effect looks at no register of the register file but its step counter. -/
theorem retrySafe_of_effect {c : Fin 256 → Haz → Instr} {op : Nat} (run : State → Fin 256 → EngWord → State → State)
    (hc : ∀ s e h, exec (c e h) s = .next (s.engRun e op true h (run s e)))
    (hrun : ∀ s e i t u, Retried e t u → Retried e (run s e i t) (run s e i u)) : RetrySafe c op :=
  fun s e _ => ⟨run s e, fun _ => hc s e _, fun _ t _ => hrun s e _ _ _ (Retried.of_bump e t)⟩

theorem retried_setGpr_retire {e : Fin 256} {t u : State} (h : Retried e t u) (d k : Nat) (w : State → Word) (next : State → Nat)
    (hw : ∀ (t : State) r, w { t with regs := r } = w t) (hn : ∀ (t : State) r, next { t with regs := r } = next t) :
    Retried e ((t.setGpr e d (w t)).retire e k (next t)) ((u.setGpr e d (w u)).retire e k (next u)) := by
  have hset := h.map (F := fun s => s.setGpr e d (w s))
    (fun t r => (congrArg (setGpr _ e d) (hw t r)).trans (setGpr_withRegs t r e d (w t)))
  have hnext : next u = next t := by obtain ⟨r, rfl, -⟩ := h; exact hn t r
  rw [hnext]
  exact hset.retire k _

/-- The instructions that write a register and go on. -/
theorem retrySafe_alu {c : Fin 256 → Haz → Instr} {op : Nat} (k : Nat) (val : State → Fin 256 → EngWord → Word)
    (hc : ∀ s e h, exec (c e h) s = .next (s.engAlu e op true k h (val s e))) : RetrySafe c op :=
  retrySafe_of_effect (fun s e i t => (t.setGpr e i.d (val s e i)).retire e k (t.eng[e].pc + 4)) hc
    (fun s e i _ _ h => retried_setGpr_retire h i.d k (fun _ => val s e i) (fun t => t.eng[e].pc + 4) (fun _ _ => rfl) (fun _ _ => rfl))

/-- The branches. -/
theorem retrySafe_branch {c : Fin 256 → Haz → Instr} {op : Nat} (test : Word → Word → Bool)
    (hc : ∀ s e h, exec (c e h) s = .next (s.engBranch e op h test)) : RetrySafe c op := by
  refine retrySafe_of_effect _ hc (fun s e i t u h => ?_)
  simp only [h.gpr_eq, h.eng_eq]
  split
  · exact h.retire 2 _
  · exact h.retire 1 _

theorem retrySafe_jal : RetrySafe .meJal 0x2E :=
  retrySafe_of_effect _ (fun _ _ _ => rfl) (fun _ e i _ _ h => retried_setGpr_retire h i.d 2 (fun t => word (t.eng[e].pc + 4))
    (fun t => (BitVec.ofInt 32 ((t.eng[e].pc : Int) + i.jump)).toNat) (fun _ _ => rfl) (fun _ _ => rfl))

theorem retrySafe_jalr : RetrySafe .meJalr 0x2F :=
  retrySafe_of_effect _ (fun _ _ _ => rfl) (fun _ e i _ _ h => retried_setGpr_retire h i.d 2 (fun t => word (t.eng[e].pc + 4))
    (fun t => ((t.gpr e i.a + BitVec.ofInt 32 i.simm) &&& 0xFFFFFFFC#32).toNat) (fun _ _ => rfl) (fun _ _ => rfl))

theorem retrySafe_tset : RetrySafe .meTset 0x33 := by
  refine retrySafe_of_effect _ (fun _ _ _ => rfl) (fun _ e i t u h => ?_)
  simp only [h.gpr_eq, h.eng_eq]
  exact (h.setEng e _).retire 1 _

/-! ## Loads and stores -/

/-- The effect of a load or store of `n` bytes (R232, R243, R245); `s` is the state before the fetch, which an access that stalls
leaves. -/
def memEffect (s : State) (e : Fin 256) (n : Nat) (reads : Bool) (ecc : Nat) (serve : EngWord → Nat → State → State) (i : EngWord)
    (t : State) : State :=
  let a := (t.gpr e i.a + BitVec.ofInt 32 i.simm).toNat
  if a % n ≠ 0 then t.engFault e 2
  else if !t.inData e a n then t.engFault e 3
  else if t.mtStalls 1 e a true then s
  else
    let t := t.mtTouch 1 e a
    if reads then
      let x := t.sramCheck 1 e a ecc 0
      if x.1 then x.2.engFault e 5 else (serve i a x.2).retire e 1 (x.2.eng[e].pc + 4)
    else (serve i a t).retire e 1 (t.eng[e].pc + 4)

theorem engMem_eq_engRun (s : State) (e : Fin 256) (op n : Nat) (load rmw : Bool) (h : Haz) (serve : EngWord → Nat → State → State) :
    s.engMem e op n load rmw h serve = s.engRun e op true h (s.memEffect e n (load || rmw) h.data serve) := rfl

theorem retried_memEffect {s t u : State} {e : Fin 256} (n : Nat) (reads : Bool) (ecc : Nat) {serve : EngWord → Nat → State → State}
    (hserve : ∀ i a, RegBlind (serve i a)) (hm : NoMarchAt s e (effAddr s e)) (ht : Counted s t (engCounts s e)) (h : Retried e t u) :
    Retried e (s.memEffect e n reads ecc serve (s.engWord e) t) (s.memEffect e n reads ecc serve (s.engWord e) u) := by
  have haddr : (t.gpr e (s.engWord e).a + BitVec.ofInt 32 (s.engWord e).simm).toNat = effAddr s e := by rw [ht.eq]; rfl
  have hmt : NoMarch t e (effAddr s e) := by rw [ht.eq]; exact hm
  have hmu : NoMarch u e (effAddr s e) := by obtain ⟨_, rfl, -⟩ := h; exact hmt
  have hserved {t u : State} (h : Retried e t u) : Retried e ((serve (s.engWord e) (effAddr s e) t).retire e 1 (t.eng[e].pc + 4))
      ((serve (s.engWord e) (effAddr s e) u).retire e 1 (u.eng[e].pc + 4)) := by
    rw [h.eng_eq]
    exact (h.map (hserve _ _)).retire 1 _
  obtain ⟨hbad, hchk⟩ := h.sramCheck (effAddr s e) ecc 0
  simp only [memEffect, h.gpr_eq, haddr, h.inData_eq, noMarch_stalls hmt, noMarch_stalls hmu, noMarch_touch hmt, noMarch_touch hmu, hbad]
  split
  · exact h.engFault e 2
  · split
    · exact h.engFault e 3
    · simp only [Bool.false_eq_true, if_false]
      cases reads with
      | false => exact hserved h
      | true =>
        simp only [if_true]
        split
        · exact hchk.engFault e 5
        · exact hserved hchk

/-- The loads and stores. -/
theorem retrySafe_mem {c : Fin 256 → Haz → Instr} {op : Nat} (n : Nat) (load rmw : Bool)
    (serve : Fin 256 → EngWord → Nat → State → State)
    (hc : ∀ s e h, exec (c e h) s = .next (s.engMem e op n load rmw h (serve e))) (hrow : ∃ y ∈ memoryRows, y.2.1 = op)
    (hserve : ∀ e i a, RegBlind (serve e i a)) : RetrySafe c op := by
  intro s e h
  obtain ⟨y, hy, hop⟩ := hrow
  exact ⟨s.memEffect e n (load || rmw) h.data (serve e), fun r => by rw [hc, engMem_eq_engRun],
    fun hs t ht => retried_memEffect n _ _ (hserve e) (hs.2 y hy hop) ht (Retried.of_bump e t)⟩

theorem retrySafe_load {c : Fin 256 → Haz → Instr} {op : Nat} (n : Nat)
    (hc : ∀ s e h, exec (c e h) s = .next (s.engMem e op n true false h (fun i a t => t.setGpr e i.d (t.padLoad e a n))))
    (hrow : ∃ y ∈ memoryRows, y.2.1 = op) : RetrySafe c op :=
  retrySafe_mem n true false (fun e i a t => t.setGpr e i.d (t.padLoad e a n)) hc hrow (fun e i _ t r => setGpr_withRegs t r e i.d _)

theorem retrySafe_store {c : Fin 256 → Haz → Instr} {op : Nat} (n : Nat)
    (hc : ∀ s e h, exec (c e h) s = .next (s.engMem e op n false true h (fun i a t => t.padStore e a n (t.gpr e i.d))))
    (hrow : ∃ y ∈ memoryRows, y.2.1 = op) : RetrySafe c op :=
  retrySafe_mem n false true (fun e i a t => t.padStore e a n (t.gpr e i.d)) hc hrow (fun _ _ _ _ _ => rfl)

/-! ## WAIT -/

/-- With no edges, changes of EN and test items under way, the consumers are up to the present. -/
theorem settle_of_quiet {s : State} (h : Quiet s) : s.settle = s := by
  obtain ⟨hflow, hpend, hmtg⟩ := h
  have hsync : s.mtgSync = s := by
    refine forAll_nothing _ s _ (fun g _ => if_neg (fun hplays => ?_))
    rw [Bool.and_eq_true, beq_iff_eq, beq_iff_eq] at hplays
    obtain ⟨hrun, hsrc⟩ := hplays
    exact (hmtg g).elim (fun h => h hrun) (fun h => h hsrc)
  have hres : s.resSync (fun _ _ => true) = s := by
    simp only [resSync, setTrg, hpend, List.filter_nil, forAll]
    rw [← hpend]
  unfold settle
  rw [hsync, hres]
  simp [flowTo, hflow]

/-- A quiet port with no extractors to feed it has every symbol. -/
theorem portFed_of_quiet {s : State} {e : Fin 256} (h : Quiet s) (hx : s.boundXts e = []) : s.portFed e = s := by
  rw [portFed, settle_of_quiet h, hx]
  rfl

theorem Counted.boundXts {s t : State} {e : Fin 256} (h : Counted s t (engCounts s e)) : t.boundXts e = s.boundXts e := by
  have htarget (x : Fin 128) : t.xtTarget x = s.xtTarget x := by
    unfold xtTarget State.f
    rw [h.rd]
    simp [engCounts, engReg, R.ME_X_TGT, R.ME_ECC_CNT, R.ME_RES_CNT, R.SB_EVT_CNT, R.QM_EVT_LOST_CNT]
    omega
  have hgang : t.gangFirst e = s.gangFirst e := by
    unfold gangFirst gangSize gangLog State.f
    rw [h.rd]
    simp [engCounts, engReg, R.ME_STATUS, R.ME_ECC_CNT, R.ME_RES_CNT, R.SB_EVT_CNT, R.QM_EVT_LOST_CNT]
    omega
  have hxt : t.xt = s.xt := by rw [h.eq]
  simp only [State.boundXts, htarget, hgang, hxt]

theorem Counted.quiet {s t : State} {e : Fin 256} (h : Counted s t (engCounts s e)) (hq : Quiet s) : Quiet t := by
  have hsrc (g : Fin 8) (k : Nat) : t.entSrc g k = s.entSrc g k := by
    unfold entSrc entW
    rw [h.rd]
    simp [engCounts, engReg, R.SG_ENTRY, R.ME_ECC_CNT, R.ME_RES_CNT, R.SB_EVT_CNT, R.QM_EVT_LOST_CNT]
    omega
  have htrg : t.trg = s.trg := by rw [h.eq]
  have hsg : t.sg = s.sg := by rw [h.eq]
  simpa only [Quiet, hsrc, htrg, hsg] using hq

/-- A port without extractors releases symbols and timer events by the clock alone. -/
theorem portHorizon_of_unbound {s : State} {e : Fin 256} (hx : s.boundXts e = []) : s.portHorizon e = s.now - 307200#64 := by
  rw [portHorizon, hx]
  rfl

theorem takeEvent_congr {t u : State} {e : Fin 256} (heng : u.eng = t.eng) (hhor : u.portHorizon e = t.portHorizon e) :
    u.takeEvent e = t.takeEvent e := by
  unfold takeEvent timerPend
  rw [heng, hhor]

/-- The handler of event `k` (R237, R238). -/
def handlerPc (e : Fin 256) (k : Nat) (t : State) : Nat := ((t.eng[e].vbase &&& 0xFFFFFFF0#32) + word (16 * k)).toNat

/-- The effect of WAIT (R238): the engine goes on at the handler of the event it takes, or waits. -/
def waitEffect (e : Fin 256) (t : State) : State :=
  let t := t.portFed e
  match t.takeEvent e with
  | none => t.block e
  | some k =>
    let t := t.setEng e (fun E => { E with
      ecause := k, timer := if k = 1 then E.timer.set 0 {} else if k = 2 then E.timer.set 1 {} else E.timer })
    t.retire e 3 (handlerPc e k t)

theorem exec_meWait (s : State) (e : Fin 256) (h : Haz) :
    exec (.meWait e h) s = .next (s.engRun e 0x39 true h (fun _ => waitEffect e)) := rfl

theorem retried_waitEffect {e : Fin 256} {t u : State} (h : Retried e t u) (ht : Quiet t) (hxt : t.boundXts e = []) (hu : Quiet u)
    (hxu : u.boundXts e = []) : Retried e (waitEffect e t) (waitEffect e u) := by
  have hhandler {t u : State} (h : Retried e t u) (k : Nat) : handlerPc e k u = handlerPc e k t := by
    unfold handlerPc
    rw [h.eng_eq]
  have hnow : u.now = t.now := by obtain ⟨_, rfl, -⟩ := h; rfl
  have htake : u.takeEvent e = t.takeEvent e :=
    takeEvent_congr h.eng_eq (by rw [portHorizon_of_unbound hxt, portHorizon_of_unbound hxu, hnow])
  simp only [waitEffect, portFed_of_quiet ht hxt, portFed_of_quiet hu hxu, htake]
  split
  · exact h.setEng e _
  · rw [hhandler (h.setEng e _)]
    exact (h.setEng e _).retire 3 _

theorem retrySafe_wait : RetrySafe .meWait 0x39 := by
  intro s e h
  refine ⟨_, fun r => exec_meWait s e _, fun hs t ht => ?_⟩
  obtain ⟨hq, hx⟩ := hs.1 rfl
  have hu := ht.bump (a := engReg R.ME_RES_CNT e) 1 (by simp [engCounts])
  exact retried_waitEffect (Retried.of_bump e t) (ht.quiet hq) (ht.boundXts.trans hx) (hu.quiet hq) (hu.boundXts.trans hx)

/-- A WAIT whose fetch is good runs with one mismatch as from the state that has counted it: that it counts before it looks for
events makes no difference to their order. -/
theorem exec_meWait_retry {s : State} {e : Fin 256} {h : Haz} (hf : Fetches s e 0x39) (hh : h.fetch.val = 0) :
    exec (.meWait e { h with res := 1 }) s = exec (.meWait e { h with res := 0 }) (s.bump (engReg R.ME_RES_CNT e)) := by
  have hne : h.fetch.val ≠ 2 := by omega
  have hf' := fetches_bump_resCnt hf
  rw [exec_meWait, exec_meWait, engRun_one_mismatch hf hne, engRun_no_mismatch hf' hne, hh, fetched_good hf, fetched_good hf']

/-! ## All checked instructions -/

/-- In the order of `checkedRows`: what writes a register, the loads and stores, the branches, and the five that remain (R243). -/
theorem retrySafe_checkedRows : ∀ x ∈ checkedRows, RetrySafe x.1 x.2 := by
  unfold checkedRows
  simp only [List.forall_mem_cons]
  iterate 20 refine ⟨retrySafe_alu _ _ (fun _ _ _ => rfl), ?_⟩
  refine ⟨retrySafe_load 4 (fun _ _ _ => rfl) (by simp [memoryRows]), retrySafe_store 4 (fun _ _ _ => rfl) (by simp [memoryRows]),
    retrySafe_load 2 (fun _ _ _ => rfl) (by simp [memoryRows]), retrySafe_store 2 (fun _ _ _ => rfl) (by simp [memoryRows]),
    retrySafe_load 1 (fun _ _ _ => rfl) (by simp [memoryRows]), retrySafe_store 1 (fun _ _ _ => rfl) (by simp [memoryRows]), ?_⟩
  iterate 6 refine ⟨retrySafe_branch _ (fun _ _ _ => rfl), ?_⟩
  exact ⟨retrySafe_jal, retrySafe_jalr, retrySafe_alu _ _ (fun _ _ _ => rfl), retrySafe_tset, retrySafe_wait, List.forall_mem_nil _⟩

end Sys2Proof.Machine.State

namespace Sys2Proof.Claims

open Machine Bits State

/-- Settles O54: nothing that an instruction does looks at ME_RES_CNT, so a run that has counted one mismatch goes as one without;
a second mismatch is a fault, which leaves registers, memories and ports alone. -/
theorem residueMismatchRetriesOnce : Obligations.ResidueMismatchRetriesOnce := by
  unfold Obligations.ResidueMismatchRetriesOnce
  refine ⟨fun x hx s e h hf hh hwait hmem => ?_, fun s e h hf hh => ?_, fun x hx s e h hf hh => ?_⟩
  · obtain ⟨run, hexec, heffect⟩ := retrySafe_checkedRows x hx s e h
    obtain ⟨r, hr, hrd⟩ := heffect ⟨hwait, hmem⟩ _ (counted_fetched hf hh)
    exact ⟨_, _, by rw [hexec, engRun_no_mismatch hf hh], by rw [hexec, engRun_one_mismatch hf hh], by rw [hr], hrd⟩
  · exact exec_meWait_retry hf hh
  · obtain ⟨run, hexec, -⟩ := retrySafe_checkedRows x hx s e h
    have hcount := counted_fetched hf hh
    obtain ⟨hsram, hmem, hport, heng⟩ := hcount.onlyModes.engFault e 4
    have hfault := faulted_engFault (s.fetched e h.fetch) e 4
    rw [Faulted, hcount.eng] at hfault
    exact ⟨_, (hexec 2).trans (by rw [engRun_two_mismatches hf hh]), hfault, hsram, hmem, hport, heng⟩

end Sys2Proof.Claims
end
